-- ==== Sys2Proof/Word.lean ====
section
/-! DEFINITION. The bit-field vocabulary of the model: registers and frame fields are natural numbers read and
written by bit position, bit 0 the least significant (spec/00_scope.md, Notation). -/
namespace Sys2Proof

/-- Bit `i` of `n`. -/
def bit (n i : Nat) : Bool := n.testBit i

/-- The field of `w` bits of `n` whose lowest bit is bit `lo`. -/
def field (n lo w : Nat) : Nat := (n >>> lo) % 2 ^ w

/-- `n` with bit `i` made `b`. -/
def setBit (n i : Nat) (b : Bool) : Nat :=
  if n.testBit i = b then n else if b then n + 2 ^ i else n - 2 ^ i

/-- `n` with the field of `w` bits at `lo` made `v` (taken modulo its width). -/
def setField (n lo w v : Nat) : Nat :=
  n - field n lo w * 2 ^ lo + v % 2 ^ w * 2 ^ lo

/-- A truth value as one bit. -/
def b2n (b : Bool) : Nat := if b then 1 else 0

end Sys2Proof
end

