-- ==== Sys2Proof/Machine/Parts.lean ====
section
/-! DEFINITION. The parts of the machine's state that are not dictionary entries: queues, sequencers, engine memories and
stores. Every part is plain data; scalar registers that the object dictionary numbers live in the dictionary store instead.
The rule of spec/ that names each part stands in its docstring. -/
namespace Sys2Proof.Machine

/-! ### Events, ring and log (spec/20_recorder_and_health.md) -/

/-- An entry of the event ring or the event log, Table 20.2 (R669, R672). `data` is the DATA field, 256 bits. `queued` and
`delivered` are the plant half's marks of R627. -/
structure RingEntry where
  seq       : Nat
  tick      : Nat
  utc       : Nat
  subsec    : Nat
  tq        : Nat
  origin    : Nat
  event     : Nat
  data      : Nat
  queued    : Bool
  delivered : Bool
  deriving DecidableEq, Repr

/-- An event found in the present tick, not yet written to the ring (R669, R670). -/
structure NewEvent where
  event : Nat
  data  : Nat
  deriving DecidableEq, Repr

/-- The event ring of the plant MRAM, oldest entry first, and the events of the tick in progress. `nextSeq` survives reset. -/
structure Ring where
  entries : List RingEntry
  fresh   : List NewEvent
  nextSeq : Nat
  deriving DecidableEq, Repr

/-- A CoE emergency message waiting at the station half, Table 18 of chapter 16 (R570). -/
structure Emcy where
  errcode : Nat
  event   : Nat
  rseq    : Nat
  deriving DecidableEq, Repr

/-- One streamed tick of the recorder: its values in list order (R674). -/
structure StreamTick where
  tick : Nat
  vals : List Nat
  deriving DecidableEq, Repr

/-- One cell snapshot message of the recorder (R674). -/
structure Snapshot where
  tick    : Nat
  pair    : Nat
  reports : List Nat
  deriving DecidableEq, Repr

/-- A recorder slot (R678 to R680): its state, what was fixed at the trigger, the retriggers and the stored stream. -/
structure RecSlot where
  state    : Nat
  age      : Nat
  trigTick : Nat
  trigSrc  : Nat
  utc      : Nat
  subsec   : Nat
  flags    : Nat
  armTick  : Nat
  retrig   : List (Nat × Nat)
  ticks    : List StreamTick
  snaps    : List Snapshot
  cfgVer   : Nat
  cfgCrc   : Nat
  gaps     : Nat
  deriving DecidableEq, Repr

/-- The recorder stream at the plant half: the values of an even tick that wait for the odd one (R674), and the last values of the
channels of the eight level triggers (R677). -/
structure StreamBuf where
  held   : Option StreamTick
  levels : List Nat
  deriving DecidableEq, Repr

/-- The time base of the plant half: the stored pair (n_s, u) and the consecutive missing edges (R667, R668), and the
station half's edge qualification (R666). -/
structure TimeBase where
  ns       : Nat
  us       : Nat
  known    : Bool
  missing  : Nat
  accepted : Bool
  lastSec  : Nat
  deriving DecidableEq, Repr

/-- Service life (R684): exact equivalent hours and whole seconds of operation, both held in MRAM, and whether the case
temperature lay outside the recommended range when last estimated. -/
structure Life where
  eqHours : Rat
  opSecs  : Nat
  upSecs  : Nat
  tempOut : Bool
  deriving DecidableEq, Repr

/-! ### The barrier (spec/18_barrier_channels.md) -/

/-- A barrier message, Table 18.3 (R613). -/
structure Msg where
  cls     : Nat
  typ     : Nat
  pair    : Nat
  seq     : Nat
  tickLo  : Nat
  payload : List Nat
  deriving DecidableEq, Repr

/-- A barrier channel (R620 to R625, Table 18.9): its state at the plant interface and at the station interface (Table 18.6). `flight`
holds messages transmitted and not yet received whole, `queue` the receiving queue, both oldest first; `part` counts the chunks of 256
bytes of the oldest message on its way that have certainly been served (R619). `nextTx` is the SEQ of the next message and `expect`
the next SEQ at the receiver (assumption log 24). -/
structure Chan where
  state    : Nat
  stState  : Nat
  nextTx   : Nat
  seqTx    : Nat
  expect   : Nat
  seqRx    : Nat
  flight   : List Msg
  part     : Nat
  fails    : Nat
  queue    : List Msg
  credits  : Nat
  sent     : Nat
  sentWrap : Nat
  discards : Nat
  fulls    : Nat
  viols    : Nat
  gaps     : Nat
  presets  : Nat
  discStk  : Bool
  fullStk  : Bool
  violStk  : Bool
  gapStk   : Bool
  prStk    : Bool
  bells    : Nat
  mask     : Nat
  emptyEn  : Bool
  txIrq    : Bool
  rxIrq    : Bool
  deriving DecidableEq, Repr

/-- The barrier: sixteen channels and the trained lanes of each direction (R617, R618). `crcEqual` is the comparison of the
two binding-table CRCs made when both directions first trained after a reset (R611). `p2sOn` and `s2pOn` name the channels of which a
chunk may be on the lanes of a direction, beside the one that the transmitter serves next (R619). `upload` is what is left of the
object-access answer that the plant half is sending in segments. -/
structure Barrier where
  chans     : List Chan
  p2s       : List Bool
  s2p       : List Bool
  exchanged : Bool
  crcEqual  : Bool
  stationView : List Chan
  p2sOn     : List Nat
  s2pOn     : List Nat
  upload    : List Nat
  deriving DecidableEq, Repr

/-! ### The station half (spec/16_object_dictionary.md, spec/17_configuration_and_startup.md) -/

/-- The plant half's dictionary as it stood at the last tick boundary, with the channels as its table shows them: what an SDO read
answers from (R9, R547). -/
structure Boundary where
  od    : List (Nat × Nat)
  chans : List Chan
  view  : List Chan
  deriving DecidableEq, Repr

/-- A stored credential: salt and derived key (R539). -/
structure Credential where
  salt : Nat
  key  : Nat
  len0 : Bool
  deriving DecidableEq, Repr

/-- A counted lockout (R515, R539): consecutive failures, and whether the lockout runs. -/
structure Lockout where
  fails  : Nat
  locked : Bool
  deriving DecidableEq, Repr

/-- A process-data image: tick and bytes (R564). -/
structure Image where
  tick  : Nat
  bytes : List Nat
  deriving DecidableEq, Repr

/-- An entry of the safety change log, Table 15.11 (R518). -/
structure ChangeEntry where
  seq     : Nat
  utc     : Nat
  tick    : Nat
  session : Nat
  kind    : Nat
  object  : Nat
  old     : Nat
  new     : Nat
  deriving DecidableEq, Repr

/-- The safety session and the two copies of the safety configuration (R514 to R519): the pending set, the stored
passphrase, the opening lockout, the change log, the copies with the selector, whether a commit takes effect next T0, the tick of the last
write to an rws entry (R517) and the tick at which the lockout began. -/
structure Session where
  pendingSet : List (Nat × Nat)
  setupOnly  : Bool
  pass       : Option Credential
  lock       : Lockout
  log        : List ChangeEntry
  logSeq     : Nat
  copies     : List (List (Nat × Nat))
  sel        : Nat
  effect     : Bool
  usedAt     : Nat
  lockedAt   : Nat
  deriving DecidableEq, Repr

/-- The comparators and channel 1 of the safety functions (R483 to R508): the outputs that stand outside as bits k, the cycle of
the tick from which a pair's qualification counts, the test step in progress (0 none), whether it is repeated, whether its result
is discarded, whether the partner stands in (R486), the next comparator to test, whether the plant half has left SELF-TEST, the
state of channel 1 and whether the peer source was the only one since NORMAL, whether SAFE_RESET has been low since the plant
reset, the RESET bit of FSoE (tick of its rise, whether it was low first), the read-back differences of the outputs, the tick
of entry to CHECKING, the tick of the last test begun (R485), for each input the tick since which its levels differ (R502), the tick
since which the channels disagree on NORMAL, none once the event stands (R497), and the tick of the last FSoE frame (R510). -/
structure Guard where
  outside   : Nat
  quals     : List Nat
  step      : Nat
  again     : Bool
  discard   : Bool
  swapped   : Bool
  nextK     : Nat
  left      : Bool
  ch1       : Nat
  peerOnly  : Bool
  resetLow  : Bool
  fsoeHigh  : Option Nat
  fsoeLow   : Option Nat
  outRun    : List Nat
  zeSince   : Nat
  testAt    : Option Nat
  differ    : List Nat
  split     : Option Nat
  fsoeAt    : Nat
  deriving DecidableEq, Repr

/-- The EtherCAT slave and the station cores' working state. `sdoData` holds the bytes that the last SDO read has returned, `sdoMore` that
segments of it are still to come (R547). -/
structure Station where
  al         : Nat
  alStatus   : Nat
  port1      : Bool
  emcyOut    : Nat
  dcSync0    : Bool
  sync0Ns    : Nat
  windowCnt  : Nat
  goodEdges  : Nat
  imageAge   : Nat
  sm2        : List Nat
  sm2Fresh   : Bool
  sm3        : List Nat
  image      : Option Image
  imageSeen  : Bool
  emcy       : List Emcy
  log        : List RingEntry
  logSeq     : Nat
  creds      : List (Option Credential)
  loginLock  : Lockout
  segmented  : Bool
  sdoBusy    : Bool
  sdoResult  : Nat
  sdoData    : List Nat
  sdoMore    : Bool
  foeOut     : List Nat
  foeErr     : Nat
  resetAfter : Bool
  regEnDrv   : Bool
  regEnHiZ   : Bool
  tqSeen     : Nat
  faulted    : Bool
  deriving DecidableEq, Repr

/-- What one configuration slot of the flash holds: the image's bytes when a write has completed (R585 to R591), and whether
its flash blocks still verify (R709). -/
structure SlotStore where
  image   : List Nat
  flashOk : Bool
  deriving DecidableEq, Repr

/-- One firmware image of the flash: whether it is present and passed R604, its version and CRC, its sealed metering
version, and whether its flash blocks still read back (R604, R709). -/
structure FwImage where
  present : Bool
  version : Nat
  crc     : Nat
  meterVersion : Nat
  flashOk : Bool
  deriving DecidableEq, Repr

/-- A commit record, Table 17.11 (R596). -/
structure CommitRec where
  seq     : Nat
  kind    : Nat
  target  : Nat
  slot    : Nat
  flags   : Nat
  version : Nat
  crc     : Nat
  atick   : Nat
  named   : Nat
  utc     : Nat
  deriving DecidableEq, Repr

/-- The activation in progress (R593 to R598). `fwTarget` is true for ACTIVATE FIRMWARE; `rollback` for ROLLBACK; `adopt`
for an adoption under R599; `peer` while the peer rows apply; `myCommit` the SEQ of the unit's own COMMIT record. -/
structure Activation where
  pending   : Bool
  holder    : Bool
  slot      : Nat
  fwTarget  : Bool
  rollback  : Bool
  adopt     : Bool
  peer      : Bool
  peerReady : Bool
  peerDone  : Bool
  abandon   : Bool
  shadow    : List (Nat × Nat)
  myCommit  : Option Nat
  deriving DecidableEq, Repr

/-- Start-up, flash and configuration store (R573 to R606). `recsNew` marks a lock-step record (bit 0) or an uncorrectable-word record
(bit 1) not yet entered in the event ring. -/
structure Boot where
  stationHeld  : Bool
  stationDown  : Bool
  plantHeld    : Bool
  stState      : Nat
  plState      : Nat
  faultSince   : Bool
  slots        : List SlotStore
  images       : List FwImage
  selector     : Nat
  stImage      : Nat
  writing      : Option Nat
  validating   : Option Nat
  commits      : List CommitRec
  commitSeq    : Nat
  act          : Activation
  readyDone    : Bool
  selfTest     : Nat
  selfEntered  : Nat
  mismatchTicks : Nat
  lockStepRec  : Option (Nat × Nat × Nat × Nat)
  uncorrRec    : Option (Nat × Nat)
  recsNew      : Nat
  pairsHalted  : Bool
  regRec       : Option (Nat × Nat × Nat)
  faultN       : Bool
  plantClock   : Bool
  stationClock : Bool
  safeState    : Bool
  running      : List (Nat × Nat)
  trial        : Bool
  deriving DecidableEq, Repr

/-! ### The tick (spec/02_control_tick.md) -/

/-- The tick timer's stage of the tick in progress: 0 after T0, 1 after the measurement deadline, 2 after the control
engine's, 3 after the Rank engine's (Table 2.2); the SYNC tracker's counts (Table 2.5), the shift of the tick in progress in ps by a
realigning step and the tick's length with it (R76), the average rate in steps a tick that HOLDOVER keeps, the steps and ticks of
TRACKING that it is the average of, the steps that it owes, and the phase steps of the tick (R71). -/
structure TickTimer where
  running   : Bool
  stage     : Nat
  edgeRun   : Nat
  farRun    : Nat
  nearRun   : Nat
  missRun   : Nat
  expecting : Bool
  aligning  : Int
  lengthPs  : Nat
  stepRate  : Rat
  stepSum   : Int
  stepTicks : Nat
  owed      : Rat
  syncOutNs : Nat
  committed : Bool
  holds     : Nat
  swapIn    : Bool
  steps     : Nat
  deriving DecidableEq, Repr

/-! ### The twin (spec/13_twin_and_lease.md) -/

/-- The lease and the arbiter port (R409 to R421). `sent` lists the SEQ of REQUESTs still answerable, `tx` is the last
message sent; `noLease` counts ticks since the frames last carried HOLDER = 1, `noHolder` ticks since NOTICE has shown no
holder, `noTick` ticks since the last TICK record; `cold` marks a cold-start REQUEST as the last one sent, and `heard`
is the tick of the last valid message (R421). -/
structure Lease where
  valid     : Bool
  epoch     : Nat
  nextSeq   : Nat
  sent      : List Nat
  tx        : Nat
  noLease   : Nat
  noHolder  : Nat
  noTick    : Nat
  noticed   : Bool
  cold      : Bool
  stalemate : Bool
  heard     : Nat
  deriving DecidableEq, Repr

/-- A buffered TICK record (R424). -/
structure TickRec where
  tick  : Nat
  lease : Bool
  epoch : Nat
  snap  : List Nat
  lmap  : Nat
  ldig  : Nat
  hash  : Nat
  deriving DecidableEq, Repr

/-- What a DECISION record carries (Table 13.6). -/
inductive Decision where
  /-- an accepted pole command: pole, code of 0x3001.01, and the run-back target it uses -/
  | command (p code arg : Nat)
  /-- BLOCK ALL -/
  | blockAll
  /-- an accepted DEBLOCK and its tick -/
  | deblock (p tick : Nat)
  /-- the judgement at the deblock tick: the first condition of R189 that fails, 0 for none -/
  | outcome (p k : Nat)
  /-- a setpoint frame, as (address, value) pairs -/
  | setpoint (vals : List (Nat × Nat))
  /-- an accepted tick-period change: its code and change tick -/
  | period (code tick : Nat)
  /-- an islanding decision -/
  | island (p : Nat)
  /-- the loss tracker's values of a pole: band offset, ΔA2, Δφ2, r as raw words -/
  | loss (p : Nat) (vals : List Nat)
  deriving DecidableEq, Repr

/-! ### Pole control (spec/05_pole_control.md, spec/06_fault_ride_through.md) -/

/-- A setpoint frame that waits for its slow run: the tick from which it takes effect and its (address, value) pairs
(R162). -/
structure SetFrame where
  due  : Nat
  vals : List (Nat × Nat)
  deriving DecidableEq, Repr

/-- The grid angle tracker's working values (R171 to R174): the values of its filters, the PI integrator, its outputs with the angle at
the start of the run, and how long the condition that leaves its state has held, in µs; `clearUs` counts the time angle valid has been
clear. -/
structure Tracker where
  state   : Nat
  inner   : List Rat
  integ   : Rat
  theta   : Rat
  freq    : Rat
  rocof   : Rat
  vpd     : Rat
  vpq     : Rat
  vnd     : Rat
  vnq     : Rat
  ipd     : Rat
  ipq     : Rat
  ind     : Rat
  inq     : Rat
  holdUs  : Nat
  backUs  : Nat
  valid   : Bool
  clearUs : Nat
  deriving DecidableEq, Repr

/-- The virtual synchronous machine (R175, R176): whether it runs and whether it gives the block its angle and currents, ω in per unit,
θ_v in turns at the run's commit tick, the internal voltage E with the direction it was initialised in, P_m, and the isochronous
correction of R185. -/
structure Vsm where
  on     : Bool
  lead   : Bool
  omega  : Rat
  theta  : Rat
  ed     : Rat
  eq     : Rat
  dd     : Rat
  dq     : Rat
  pm     : Rat
  iso    : Rat
  deriving DecidableEq, Repr

/-- AC ride-through (R209 to R214): state, elapsed time, time inside the recovery band, held P_c and I⁺q, the P_c ramp of
RECOVERING, U_pre, the v⁺ of past runs (newest first) and the time since the flag cleared. -/
structure RideThrough where
  state   : Nat
  elapsed : Nat
  inBand  : Nat
  pcHeld  : Rat
  iqHeld  : Rat
  ramp    : Rat
  upre    : Rat
  hist    : List Rat
  quietUs : Nat
  deriving DecidableEq, Repr

/-- Islanding detection (R179 to R183): the number of the window in progress and of the window that counts as k = 0, the negative-sequence
sums of the window, the mean of the previous window and its impedance, times of the passive indicators in µs, and the tracker's last phase error. -/
structure Islanding where
  win     : Nat
  base    : Nat
  sumD    : Rat
  sumQ    : Rat
  runs    : Nat
  prev    : Option (Rat × Rat)
  zPrev   : Option Rat
  rocofUs : Nat
  indUs   : Nat
  passUs  : Nat
  lastErr : Rat
  fired   : Bool
  deriving DecidableEq, Repr

/-- What a fast run yields, in arm per unit, with θ_g at its commit tick: it enters the reference block at that tick (R158). -/
structure FastRes where
  trk     : Tracker
  vsm     : Vsm
  ride    : RideThrough
  isl     : Islanding
  idp     : Rat
  iqp     : Rat
  idn     : Rat
  iqn     : Rat
  limD    : Bool
  limQ    : Bool
  limited : Bool
  thetaG  : Rat
  thetaB  : Nat
  nB      : Nat
  dTheta  : Nat
  angleOk : Bool
  iz0     : Option Rat
  vdcs    : Option Rat
  xE      : Rat
  loopOn  : Bool
  vt      : Rat
  xR      : Rat
  pe      : Rat
  qe      : Rat
  deriving DecidableEq, Repr

/-- A decision of a fast run that acts at its commit tick, applied only while the pole still stands where it was taken. -/
inductive FastAct where
  /-- energisation: from, to, reason (Table 6.1) -/
  | energise (src dst reason : Nat)
  /-- AC ride-through: from, to, whether the pole trips (Table 6.2) -/
  | ride (src dst : Nat) (abort : Bool)
  /-- an islanding decision (R181) -/
  | island
  /-- a DC restart begins (Table 6.3) -/
  | restartBegin
  /-- a DC restart ends: to NORMAL, to SUPPRESSING, or in a trip (Table 6.3) -/
  | restart (dst : Nat) (trip : Bool)
  /-- the tracker's angle was lost (Table 5.3) -/
  | angleLost
  deriving DecidableEq, Repr

/-- What a slow run yields, in arm per unit (R164 to R170, R177), with the ramped orders in the units of their entries, the modes in
force and the coordinates of the loss tracker (R351). -/
structure SlowRes where
  pRamp  : Rat
  qRamp  : Rat
  uRamp  : Rat
  vRamp  : Rat
  xP     : Rat
  xV     : Rat
  xQ     : Rat
  xU     : Rat
  xN     : Rat
  pc     : Rat
  qc     : Rat
  iz0    : Rat
  vdcs   : Rat
  idp    : Rat
  iqp    : Rat
  ramping : Bool
  dcMode : Nat
  acMode : Nat
  form   : Bool
  xs     : List Rat
  deriving DecidableEq, Repr

/-- A run on its way to its commit tick, and whether it finishes in time (R158, R159). -/
structure FastPend where
  commit : Nat
  finish : Bool
  res    : FastRes
  acts   : List FastAct
  deriving DecidableEq, Repr

/-- A slow run on its way to its commit tick. -/
structure SlowPend where
  commit : Nat
  finish : Bool
  res    : SlowRes
  deriving DecidableEq, Repr

/-- Sums since the last slow run (R156): ticks with V_dc, I_dc and the neutral current, and fast runs with P, Q and V⁺. -/
structure TierSums where
  n    : Nat
  vdc  : Rat
  idc  : Rat
  ineu : Rat
  runs : Nat
  p    : Rat
  q    : Rat
  vp   : Rat
  deriving DecidableEq, Repr

/-- DC fault suppression in the tick tier (R215 to R218): detection count, i_r, x_dc, the detection tick, the tick from
which the current has stayed in the band, the tick of entry to EXTINGUISHED, and whether a restart waits for the next fast run. -/
structure DcFault where
  count   : Nat
  ir      : Rat
  xdc     : Rat
  since   : Nat
  below   : Option Nat
  extinct : Nat
  again   : Bool
  deriving DecidableEq, Repr

/-- The energisation sequence (R203 to R206): ticks of entry to the state and to PASSIVE, the start values of the arms and
the overcurrent counts of R204. -/
structure EnSeq where
  entered : Nat
  passive : Nat
  checked : Bool
  starts  : List Rat
  overs   : List Nat
  deriving DecidableEq, Repr

/-- The loss tracker of a pole (R351 to R364): the coordinates x₀ to x₃, the value of the coordinate under trial before its step,
whether that step stands on trial, the tick from which the settle time runs, whether a window is to open at the next metering window end,
the window in progress (opening tick, the energies E_dc, E_ac and E_q there, the sum of w), whether it is spoiled, the window that
closed (L, P̄, Q̄ and its validity), the baseline's L, P̄ and Q̄, the ramped P and Q of the previous run, the modes of the previous
run, the unit role then, the tick at which a pole last tripped, the tick from which the window in progress may close, the state the
ACTIVE unit forwarded, the settings 0x5000.02, .06 to .10 of the previous run, and the deadband and operating-point band of the window
in progress or closed last (R364). -/
structure Loss where
  xs      : List Rat
  saved   : Rat
  onTrial : Bool
  settle  : Nat
  toOpen  : Bool
  win     : Option (Nat × Int × Int × Int × Rat)
  bad     : Bool
  closed  : Option (Rat × Rat × Rat × Bool)
  base    : Rat × Rat × Rat
  last    : Rat × Rat
  modes   : Nat × Nat × Bool
  active  : Bool
  tripped : Option Nat
  due     : Nat
  fwd     : Nat
  cfg     : List Nat
  marks   : Rat × Rat
  deriving DecidableEq, Repr

/-- A pole's control state: trip causes and the state change due at the next tick boundary, the deblock tick, accepted
RECONNECTED, the run-back target, a setpoint loss whose fallback acts or waits for the end of ride-through (R163, R221), the ticks of the
last change of grid mode and of the last islanding decision on its AC bus (R187, R190), the tier runs, the setpoint frames, and the tick-tier values. -/
structure PoleCtl where
  trips     : List Nat
  goto      : Option Nat
  deblockAt : Option Nat
  reconnect : Bool
  runBack   : Option Rat
  fallback  : Bool
  fallWait  : Bool
  overrun   : Nat
  fastMiss  : Nat
  slowMiss  : Nat
  fast      : FastRes
  slow      : SlowRes
  fastPend  : Option FastPend
  slowPend  : Option SlowPend
  samples   : List (List Rat)
  sums      : TierSums
  frames    : List SetFrame
  lastFrame : Option Nat
  dc        : DcFault
  en        : EnSeq
  transUntil : Nat
  modeSince : Option Nat
  islandAt  : Option Nat
  lastCmd   : Nat
  loss      : Loss
  deriving DecidableEq, Repr

/-! ### Extension tasks (spec/14_lockstep_and_extensions.md) -/

/-- What a run of an extension task does, as the task's own program makes it (R473 to R476): the task, the PCORE cycles used, the
fault code of Table 14.9 (0 when the run returns), its messages, its event code, its result block and its data region. -/
structure TaskRun where
  task   : Nat
  cycles : Nat
  fault  : Nat
  msgs   : List (List Nat)
  event  : Option Nat
  result : Nat
  data   : List Nat
  deriving DecidableEq, Repr

/-- An extension task: its image, its data region, the inbox (oldest first), the consecutive overruns and the command that takes
effect at the next T0 (R474 to R476). -/
structure TaskCtl where
  image : List Nat
  data  : List Nat
  inbox : List (List Nat)
  overs : Nat
  cmd   : Nat
  deriving DecidableEq, Repr

/-- The slot of core pair 3 (R65, R473): whether it is open, the task that runs on, the due tasks that have not started, and the PCORE
cycles that the slot still had when the running task started. -/
structure Slot3 where
  opened  : Bool
  current : Option Nat
  waiting : List Nat
  left    : Nat
  deriving DecidableEq, Repr

/-! ### Metering (spec/12_metering.md) -/

/-- The window series of a pole, or the metering engine's own series (R369 to R373, R380): opening tick (none before the first), its
length in half microseconds, per phase the sums of v·i and of i² and the conversions, the DC sum in V·A·µs with the sum of I_dc and
its ticks, the quality bits found, whether it closes early (R398), the last conversion of the phase A voltage, the conversions since
one lay below the arming threshold, the time since the last accepted crossing, the crossings accepted, the consecutive candidates
of FIXED with the time since the last one, whether the third regained SYNC, the residues of Table 12.1, whether doubt stands in the
meter log, whether a window closed at the present T0, and whether a value without VALID came in the window that closed last (R356). -/
structure MeterWin where
  opened   : Option Nat
  hu       : Nat
  ep       : List Rat
  i2       : List Rat
  n        : List Nat
  dc       : Rat
  idc      : Rat
  nDc      : Nat
  qual     : Nat
  param    : Bool
  prev     : Option Rat
  low      : Option Nat
  since    : Nat
  accepted : Nat
  cands    : Nat
  sinceCand : Nat
  regain   : Bool
  resid    : List Rat
  doubt    : Bool
  shut     : Bool
  lost     : Bool
  deriving DecidableEq, Repr

/-- A save record of the energy area (R383 to R389): whether its CRC passes, sequence number, ENDGAME flag, tick and UTC second, the
save interval; for both poles the accumulators, wrap counts, residues, partial sums and rollover counts; and the backlog and residue
of every pulse output. -/
structure SaveRec where
  ok      : Bool
  seq     : Nat
  endgame : Bool
  tick    : Nat
  utc     : Nat
  every   : Nat
  accs    : List Nat
  wraps   : List Nat
  resid   : List Rat
  part    : List Rat
  rolls   : List Nat
  backlog : List Nat
  pres    : List Rat
  deriving DecidableEq, Repr

/-- A pulse output (R392, R393): residue, time since its last pulse began in µs, and whether it conducts. -/
structure PulseOut where
  resid : Rat
  age   : Nat
  on    : Bool
  deriving DecidableEq, Repr

/-- An entry of the meter log, Table 12.5. -/
structure MeterEntry where
  seq   : Nat
  tick  : Nat
  utc   : Nat
  typ   : Nat
  pole  : Nat
  item  : Nat
  value : Nat
  deriving DecidableEq, Repr

/-- The metering engine: the series of pole 0, pole 1 and its own, the conversions of channels 0 to 11 in the windows in progress
(newest first), the two save slots, the pulse outputs, the meter log, the time since the last save in µs, whether it has started,
METER-FAULT, the UNSAVED entry due once the configuration is known (tick, UTC, interval), and the endgame save in progress. -/
structure Meter where
  wins      : List MeterWin
  streams   : List (List (Nat × Rat))
  slots     : List SaveRec
  pulses    : List PulseOut
  log       : List MeterEntry
  logSeq    : Nat
  sinceSave : Nat
  started   : Bool
  fault     : Bool
  unsaved   : Option (Nat × Nat × Nat)
  endgame   : Option SaveRec
  deriving DecidableEq, Repr

/-! ### Core power (spec/19_core_power.md) -/

/-- A shed in progress (R642, R643): the phase, its periods since the shed began or none while it has not, the ns from the last T0 to its
next period boundary, and the period in ns that its boundaries keep until then. -/
structure Shed where
  phase  : Nat
  done   : Option Nat
  next   : Rat
  period : Rat
  deriving DecidableEq, Repr

/-- The core-power controller, gate drive and holdup store beyond their dictionary entries: the 12 V auxiliary supply, the retention
domain, P_REG_EN; whether an endgame save runs from the store and whether supply has returned meanwhile (R657); the soft-start
attempt and the switches that tripped in it (R652, R653); the cause of the latch that stands (0 none) and whether the record of a
latch has not yet been entered in the ring (R658); the locked-out supplies, bit h bootstrap, bit 6 VDRV (R648); the phase being shed
(R642); the ns from a T0 to the rise of the anticipation signal, none while the tick timer does not run, and the current in A added to
the demand while it is high (R643); braking (R645); I_avg in mA and the ps for which it has lain below the shed limit (R642); whether C and ESR have been measured since the retention domain
started, whether a measurement runs, whether the charger may run (R660, R661); the settings of the regulator record and those in use
since SELF-CHECK (R637). -/
structure Power where
  supply    : Bool
  retention : Bool
  enable    : Bool
  saving    : Bool
  returned  : Bool
  attempt   : Nat
  tripped   : Nat
  cause     : Nat
  recNew    : Bool
  locked    : Nat
  shed      : Option Shed
  rise      : Option Int
  added     : Rat
  braking   : Bool
  iavg      : Nat
  lowPs     : Nat
  measured  : Bool
  measuring : Bool
  charger   : Bool
  record    : List (Nat × Nat)
  inUse     : List (Nat × Nat)
  deriving DecidableEq, Repr

/-- What reaches the device from outside at a T0: bits k of the comparator outputs that stand outside (R484), the outputs whose
read-back differs from their drive (R508), the corrected staging errors of the lock-step inputs (R458), and the core-power
controller's readings of the tick: I_avg in mA, the output voltage, the phase currents and the store voltage as binary32 words, and
the pulses its PWM requested of the switches, in ps (R636, R640, R642, R659) (assumption log 9). -/
structure T0In where
  outside   : Nat
  differ    : Nat
  corrected : Nat
  iavg      : Nat
  vcore     : Nat
  phases    : List Nat
  vstore    : Nat
  pulses    : List Nat
  deriving DecidableEq, Repr

/-! ### Measurement front end (spec/03_measurement.md) -/

/-- A conversion of a window (R90, R99 to R101): raw code, taken at ×16, clipped, discarded, and the settling conversion that is
the first at a new gain. -/
structure Sample where
  raw   : Int
  hi    : Bool
  clip  : Bool
  drop  : Bool
  first : Bool
  deriving DecidableEq, Repr

/-- A converter channel: the window in progress (oldest first), whether it has converted throughout it, the last kept conversion
before it, how many discarded conversions ended the windows before (R101), whether the next conversion is a settling one, the time below the down threshold in ns, the consumers that have taken
the last value (R95), and the debounce counts of its window comparator (low, high, inside). -/
structure Conv where
  window  : List Sample
  whole   : Bool
  prev    : Option Sample
  tail    : Nat
  settle  : Bool
  belowNs : Nat
  taken   : Nat
  nLow    : Nat
  nHigh   : Nat
  nIn     : Nat
  deriving DecidableEq, Repr

/-- An overlap check in progress (R109): its channel, the conversions made, the sums of magnitudes and counts at ×1 and ×16, and
whether a conversion clipped. -/
structure Overlap where
  ch    : Nat
  n     : Nat
  sum1  : Rat
  n1    : Nat
  sum16 : Rat
  n16   : Nat
  clip  : Bool
  deriving DecidableEq, Repr

/-- The front end: the 32 channels, whether the reference buffer was READY throughout the window in progress, the time since the buffer
was enabled in ps (R87), and the overlap checks that run, one a channel. -/
structure Front where
  chans   : List Conv
  refOk   : Bool
  warmPs  : Nat
  overlaps : List Overlap
  deriving DecidableEq, Repr

/-! ### The control engine (spec/04_current_engine.md) -/

/-- The reference block of a pole, Table 4.2, in the engine formats of Table 4.1: per-unit words of 24 fraction bits, angles of
one turn = 2^32; `iz0` per leg, `dw` per arm, `band` per arm the band offset of R244 in units of V_cn. -/
structure RefBlock where
  thetaB  : Nat
  nB      : Nat
  dTheta  : Nat
  angleOk : Bool
  permit  : Bool
  idp     : Int
  iqp     : Int
  idn     : Int
  iqn     : Int
  vdp     : Int
  vqp     : Int
  vdn     : Int
  vqn     : Int
  vdcs    : Int
  r       : Int
  dA2     : Int
  dPhi2   : Nat
  iz0     : List Int
  dw      : List Int
  band    : Rat
  deriving DecidableEq, Repr

/-- What the control engine computed for an arm in a tick, written at the tick's end if the arm completes (R135, R151). `amp` and
`phi` belong to the leg; `eI` is the current error, `loopSat` the saturation of R132, `thMeas` the measurement angle of R144. -/
structure EngOut where
  n       : Int
  s       : Int
  v       : Int
  iref    : Int
  imeas   : Int
  w       : Int
  wref    : Int
  nav     : Nat
  flags   : Nat
  xi      : Int
  xw      : Int
  cv      : Int
  ci      : Int
  amp     : Int
  phi     : Nat
  eI      : Int
  loopSat : Bool
  thMeas  : Nat
  deriving DecidableEq, Repr

/-! ### The Rank engine and the firing generator (spec/07_rank_engine.md, spec/08_firing_and_forcing.md) -/

/-- A cell: recorded polarity and pin timer (R228), bypass cause of Table 7.3 (0 not bypassed) with its consecutive counts and the
marks of its episode (R238, R240), the tick of the last change of polarity, the firing state of R275 (tick and offset of the
last change), the last command without HBLK, and what the last completed tick showed (R258). -/
structure Cell where
  pol      : Int
  pin      : Nat
  byp      : Nat
  ov       : Nat
  uv       : Nat
  lift     : Nat
  shown    : Bool
  anom     : Bool
  lastChg  : Nat
  fire     : Option (Nat × Nat)
  cmd      : Nat
  pinned   : Bool
  forced   : Bool
  waiting  : Bool
  repeated : Bool
  deriving DecidableEq, Repr

/-- A force request, entries .01 to .05 of 0x4003 + a × 0x100 (R276, Table 8.4). -/
structure ForceReq where
  scope   : Nat
  pattern : Nat
  lanes   : Nat
  level   : Int
  offset  : Nat
  deriving DecidableEq, Repr

/-- A change of an arm's change list (R269): the cell, whether it raises the level, and 0 for a bypass, 1 for a swap, 2 for any
other change. -/
structure Change where
  c      : Nat
  raises : Bool
  kind   : Nat
  deriving DecidableEq, Repr

/-- What the Rank engine computed for an arm in a tick, written at the tick's end if the arm completes (R228). -/
structure RankOut where
  cells   : List Cell
  changes : List Change
  forced  : List Nat
  level   : Int
  debt    : Int
  switchings : Nat
  swaps   : Nat
  discard : Nat
  held    : Nat
  waiting : Nat
  newWait : Nat
  deriving DecidableEq, Repr

/-- An arm: its cells, the engine state of R135 (integrators, sign, and on an upper arm A and φ of the leg), the level debt, the
stage at which it slipped in this tick (0 none), the arm fault found in this tick (0 none, Table 7.5), the cells bypassed in this
tick with their old polarity, what the stages of this tick computed, the force in force and the one due at the next T0, the exclusion
map in force (R228), and the bypass events and arm faults that 0x4004 does not show yet (R259, R262). -/
structure Arm where
  cells   : List Cell
  xi      : Int
  xw      : Int
  s       : Int
  amp     : Int
  phi     : Nat
  debt    : Int
  slip    : Nat
  fault   : Nat
  fresh   : List (Nat × Int)
  eng     : Option EngOut
  rank    : Option RankOut
  force   : Option ForceReq
  forceTo : Option ForceReq
  ubar    : Rat
  map     : Nat
  newByp  : Nat
  newFault : Nat
  deriving DecidableEq, Repr

/-! ### Lanes (spec/09_minak_lanes.md, spec/10_minak_frames.md) -/

/-- A valid upstream frame (Tables 10.3 and 10.4): its header fields and its reports, position 0 first. -/
structure UpFrame where
  aseq   : Nat
  aepoch : Nat
  flags  : Nat
  low    : Nat
  reports : List Nat
  deriving DecidableEq, Repr

/-- A downstream frame: header of 56 bits (Table 10.1), preamble of 320 bits (Table 10.2) and commands as transmitted. -/
structure DownFrame where
  head : Nat
  pre  : Nat
  cmds : List Nat
  deriving DecidableEq, Repr

/-- A lane: LOS and LOL as asserted, reports in use with their staleness and those they replaced, the valid frame held for the next latch, consecutive misses, T0s since
OPERATIONAL, the runs of R339, the last downstream frame and whether it was sent in this tick, and the working state of bring-up:
what was received in HANDSHAKE, the CONFIG and message last sent, echo values in 1/8 ns (newest first), whether the receiver is
aligned, whether TRAIN has come clean, the rate a STEP or a fall-back goes to, the writes held under R319, the tick of entry to the state,
the bits [55:0] of the message received last and of the echo taken last (R304, R308), and the bring-up messages sent. -/
structure Lane where
  los     : Bool
  lol     : Bool
  old     : List Nat
  reports : List Nat
  stale   : Bool
  held    : Option UpFrame
  took    : Bool
  misses  : Nat
  t0s     : Nat
  errRun  : Nat
  seqRun  : Nat
  tx      : Option DownFrame
  sent    : Bool
  gotTrain : Bool
  gotCap  : Bool
  gotId   : Bool
  config  : Option Nat
  message : Nat
  echoes  : List Int
  aligned : Bool
  clean   : Bool
  stepTo  : Nat
  writes  : List (Nat × Nat)
  since   : Nat
  seen    : Option Nat
  echoed  : Option Nat
  sends   : Nat
  deriving DecidableEq, Repr

/-! ### Resynchronisation (R443) -/

/-- A piece of the active unit's state as a STATE record carries it: the engine, selection and firing state of an arm; a display entry
of a pole or an arm, by its address; the reference block in force of a pole. -/
inductive StatePart where
  /-- arm `a` -/
  | arm (a : Nat) (x : Arm)
  /-- an entry of the poles and arms -/
  | entry (key v : Nat)
  /-- the reference block in force of pole `p` -/
  | block (p : Nat) (b : RefBlock)
  deriving DecidableEq, Repr

/-- What a standby's own latch took on a lane in a tick: whether it took a frame, the reports it replaced and those in use. -/
structure LaneReports where
  took    : Bool
  old     : List Nat
  reports : List Nat
  deriving DecidableEq, Repr

/-- The twin link, castling, resynchronisation and disputes (R422 to R447). `castle` is 0 for none, 1 proposed, 2 agreed; `castleAt` is the
tick from which the new active unit waits for its grant (R440). -/
structure Twin where
  txSeq      : Nat
  rxSeq      : Option Nat
  lastTx     : List Nat
  tickRec    : Option TickRec
  prevHash   : Nat
  diverged   : Bool
  leaveSync  : Bool
  leaveActive : Bool
  grantReady : Bool
  coldGrant  : Bool
  unitGo     : Option Nat
  takeUp     : Option Nat
  bridgeFrom : Nat
  castle     : Nat
  noRelease  : Bool
  castleWait : Bool
  castleAt   : Nat
  goodPeer   : Nat
  peerSafe   : Nat
  resyncReq  : Bool
  resyncCmd  : Bool
  snapTick   : Nat
  buffered   : List TickRec
  bufWrites  : List (Nat × Nat × Nat)
  bufBlocks  : List (Nat × List RefBlock)
  bufState   : List StatePart
  bufReports : List (Nat × List LaneReports)
  loaded     : Bool
  gotOuter   : Bool
  ownBlocks  : Bool
  verified   : Nat
  oos        : Bool
  unlike     : Bool
  dispCnt    : List Nat
  dispQuiet  : Nat
  margins    : List Int
  writes     : List (Nat × Nat × Nat)
  decisions  : List (Nat × Decision)
  deriving DecidableEq, Repr

end Sys2Proof.Machine
end

