-- ==== Sys2Proof/Syntax.lean ====
section
/-! DEFINITION. The commands the block takes: one constructor per row of spec/opcode_table.json, with its operands. The docstring of a
constructor is the row's summary and its rule. Where a rule gives what happens an instant that only the plant knows (a measured value, the
outcome of a run, whether a CRC held), that is an operand. -/
namespace Sys2Proof

open Machine

/-- The commands. -/
inductive Instr where
  /-- Release of the station-half reset starts the station half from OFF into STRAP-SAMPLE. (R579) -/
  | stationResetRelease (word : Nat) (open_ : Bool) (syn : Nat)
  /-- S_RESET_N held low for at least 10 µs resets the station half. (R695) -/
  | sResetNLow
  /-- The plant half leaves reset, locks its synthesiser, starts the tick timer and requests its boot load. (R580) -/
  | plantResetRelease (syn quality : Nat)
  /-- The plant half holds strap word, firmware part and configuration, checks them and enters SELF-TEST or FAULT. (R579) -/
  | bootLoadComplete (fwOk : Bool) (fail : Option (Nat × Nat × Nat)) (us : Nat)
  /-- Once the checks of SELF-TEST are done the plant half runs boot validation and enters CONFIGURED, FAULT or rollback. (R579) -/
  | selfTestComplete (detectors mram : Bool)
  /-- Once every lane carrying cells is OPERATIONAL or LIMITED and the Rolpor link is up, the device enters LINKED. (R579) -/
  | enterLinked
  /-- Expiry of the link wait 0xA000.14 in CONFIGURED takes the device to LINKED. (R579) -/
  | linkWaitExpiry
  /-- Expiry of the ready timeout on a trial boot abandons the trial and rolls back. (R603) -/
  | readyTimeout
  /-- A synthesiser losing lock or reference gates its outputs; in the plant half FAULT_N and BLOCK_OUT assert and the safe state follows. (R37) -/
  | clockLoss (plant : Bool)
  /-- A comparator or cross-check inequality or an uncorrectable staging error stops every core pair. (R459) -/
  | lockStepFault (pair kind word : Nat)
  /-- An uncorrectable plant memory word takes the plant half to its safe state and the device to FAULT. (R683) -/
  | uncorrectableWord (addr : Nat)
  /-- The scrubber reads every plant memory word once per second and writes back corrected words. (R683) -/
  | memoryScrub (corrected dram : Nat)
  /-- The 12 V auxiliary supply below 9.0 V for 2 µs raises the supply-loss signal and puts the core domain in reset. (R657) -/
  | supplyLoss (vs : Nat)
  /-- When the endgame save ends or has not begun, the retention domain disconnects from the store. (R657) -/
  | endgameSaveEnd (written : Nat)
  /-- The 12 V auxiliary supply above 10.5 V for 10 ms restarts the retention domain and the regulator from OFF. (R657) -/
  | supplyReturn
  /-- P_REG_EN low beyond its 100 µs filter turns the regulator off, clears latched faults and requests a plant reset. (R655) -/
  | regEnLow
  /-- With the retention domain up, HRPWM present and P_REG_EN high, the regulator leaves OFF for SELF-CHECK or LATCHED. (R652) -/
  | regEnHigh (detected failed : Nat)
  /-- VCORE held in the power-good window for 200 µs takes the regulator to RUN and releases the core domain. (R652) -/
  | powerGood
  /-- Power-good not reached 1 ms after the ramp ends leads to HICCUP or, on the fourth attempt, LATCHED. (R652) -/
  | softStartTimeout
  /-- 50 ms after a failed attempt the regulator starts the next soft-start attempt. (R652) -/
  | hiccupExpiry
  /-- A soft or hard short-circuit threshold turns off and, in RUN, latches the switch that tripped. (R647) -/
  | switchShortTrip (soft hard : Nat)
  /-- An undervoltage, overvoltage or HRPWM loss takes the regulator to SHUTDOWN and the plant half to its safe state. (R650) -/
  | coreRailFault (cause : Nat)
  /-- After 5 µs in SHUTDOWN every switch is off and the regulator is LATCHED. (R652) -/
  | shutdownExpiry
  /-- A bootstrap supply below its falling threshold turns off its high-side switch. (R648) -/
  | bootstrapLockout (h : Nat)
  /-- VDRV below its falling threshold turns off every low-side switch. (R648) -/
  | vdrvLockout
  /-- A gate supply rising past its rising threshold lets the locked-out switch resume at the next period boundary. (R648) -/
  | lockoutRecovery (k : Nat)
  /-- VCORE above setpoint plus the braking threshold turns off both switches of every active phase. (R645) -/
  | brakeStart
  /-- Braking ends when VCORE falls below the exit level or after 2 µs, and switching resumes. (R645) -/
  | brakeEnd
  /-- A load step aborts a shed in progress and returns the phase to its full share. (R644) -/
  | loadStep
  /-- A low tick-average current held for the shed delay sheds a phase over 16 periods. (R642) -/
  | phaseShed
  /-- After 31 periods at full duty the PWM forces a low-side refresh pulse in the 32nd. (R641) -/
  | forcedRefresh (h : Nat)
  /-- A write of h + 1 to 0x5800.1B sheds phase h, tests its comparators and adds it again. (R651) -/
  | comparatorTestPhase (v failed : Nat)
  /-- At start-up or each measurement interval the holdup store's capacitance and ESR are measured by charge step or test load. (R660) -/
  | storeMeasurement
  /-- A write of 0x01 to 0x5900.0E starts a store measurement at once. (R660) -/
  | measureNow (v : Nat)
  /-- A completed store measurement updates C, ESR and E_avail and judges store health. (R661) -/
  | storeMeasurementComplete (c esr : Nat)
  /-- A charge that has not reached 5.00 V in its allowed time fails the store's health. (R661) -/
  | storeChargeTimeout
  /-- At each T0 the tick number advances and the tick pipeline begins. (R49) -/
  | tickT0 (i : T0In)
  /-- At T0+0.20 µs arms whose measurement channels lack a valid value slip, and the control engine starts. (R54) -/
  | measurementDeadline (late : Nat)
  /-- At T0+1.40 µs incomplete arms slip and the Rank engine starts. (R54) -/
  | controlEngineDeadline (incomplete : Nat)
  /-- At T0+2.20 µs incomplete arms slip and firing and serialisation start. (R54) -/
  | rankEngineDeadline (incomplete : Nat)
  /-- Core pair 3's fixed slot begins, running the tick tier first and then extension tasks. (R65) -/
  | pair3SlotStart (tier : Nat) (runs : List TaskRun)
  /-- The hardware cycle counter stops a task whose budget is spent. (R473) -/
  | taskBudgetExpiry (runs : List TaskRun)
  /-- The slot ends at its end time; a running task is stopped and tasks not started are skipped. (R65) -/
  | pair3SlotEnd
  /-- The active unit sends the TICK record of the tick at T0+0.04 µs. (R425) -/
  | tickRecordSend
  /-- Each unit sends its HEALTH record at T0+3.00 µs. (R433) -/
  | healthRecordSend
  /-- At T0+0.20 µs a STANDBY-SYNC unit without a valid TICK record treats it as missing. (R435) -/
  | tickRecordDeadline
  /-- A conversion result is calibrated and added to its window. (R90) -/
  | conversionComplete (ch : Nat) (raw : Int)
  /-- 20 ms after enable the reference buffer becomes READY or FAULT. (R87) -/
  | referenceWarmupExpiry (dev : Nat)
  /-- The monitor outside ±0.25 % for 8 conversion periods takes the buffer to FAULT. (R87) -/
  | referenceMonitorFault (dev : Nat)
  /-- The monitor back within ±0.25 % for 8 conversion periods returns the buffer to WARMING. (R87) -/
  | referenceMonitorRecovery (dev : Nat)
  /-- A write of 0x5600.41 enables or disables the reference buffer with manual sequencing. (R89) -/
  | bufferEnableWrite (v : Nat)
  /-- A write of 0x01 to 0x5601 + ch .49 starts the overlap check of a metering channel. (R109) -/
  | overlapCheck (ch : Nat)
  /-- After 4,096 conversions the check corrects the range match or records a failure. (R109) -/
  | overlapCheckComplete
  /-- A SYNC_IN edge is qualified and drives the SYNC tracker. (R69) -/
  | syncInEdge (err off : Int) (high : Nat) (ppm : Int)
  /-- Four consecutive missing or invalid expected edges take the tracker to HOLDOVER. (R74) -/
  | syncEdgeMissing
  /-- The plant synthesiser makes a 25 ps phase step at most every 50 ENG cycles while tracking. (R71) -/
  | syncPhaseStep
  /-- Phase error within ±20 ns for 1,000 ticks sets the tracked flag. (R74) -/
  | syncTracked
  /-- A write of 0x2010.03 is judged and, if accepted, schedules a change tick. (R42) -/
  | tickPeriodRequest (code : Nat)
  /-- At the change tick the new tick period takes effect. (R43) -/
  | tickPeriodChange
  /-- A lane receiver's input below threshold for 100 ns asserts loss of signal. (R297) -/
  | losAssert (l : Nat)
  /-- Input above threshold plus 20 mV for 1 µs clears loss of signal. (R297) -/
  | losClear (l : Nat)
  /-- A recovered rate off by more than ±1,000 ppm asserts loss of lock. (R298) -/
  | lolAssert (l : Nat)
  /-- Two measurements within ±500 ppm clear loss of lock. (R298) -/
  | lolClear (l : Nat)
  /-- Sixteen invalid words within 64 make an aligned receiver lose alignment. (R299) -/
  | alignmentLost (l : Nat)
  /-- LOS and LOL both clear for 10 µs take a lane from SEARCH to ALIGN. (R302) -/
  | signalSettled (l : Nat)
  /-- An aligned receiver takes the lane to HANDSHAKE or completes a manual alignment. (R299) -/
  | alignmentAchieved (l pos words : Nat)
  /-- A search that ends without alignment or lasts over 1 ms returns the lane to SEARCH. (R300) -/
  | alignmentSearchFail (l : Nat)
  /-- A write of 0x01 to 0x5530 + l .48 makes one bit slip in manual mode. (R301) -/
  | bitSlip (l : Nat)
  /-- A TRAIN message received twice is taken into the handshake or training. (R304) -/
  | trainReceived (l lf cleanUs : Nat)
  /-- A concentrator CAPABILITY message is checked against the cluster size and rates. (R309) -/
  | capabilityReceived (l lf mask largest : Nat)
  /-- A concentrator IDENTITY message is checked against the expected identity. (R309) -/
  | identityReceived (l lf version identity : Nat)
  /-- A CONFIG_ACK equal to CONFIG takes the lane to RANGING. (R302) -/
  | configAckReceived (l lf body : Nat)
  /-- A RANGE_ECHO gives one fibre delay value; 16 consistent values end ranging. (R308) -/
  | rangeEchoReceived (l cycles dc : Nat)
  /-- A RATE_ACK starts the countdown and the rate change. (R306) -/
  | rateAckReceived (l rate : Nat)
  /-- A READY from the concentrator completes training at a rate. (R307) -/
  | readyReceived (l rate : Nat)
  /-- A NACK from the concentrator takes the lane to FAULT with cause 7 or 8. (R309) -/
  | nackReceived (l lf reason : Nat)
  /-- 20 ms in HANDSHAKE takes the lane to FAULT with cause 8. (R302) -/
  | handshakeTimeout (l : Nat)
  /-- 20 ms in RANGING takes the lane to FAULT with cause 8. (R302) -/
  | rangingTimeout (l : Nat)
  /-- 2 ms in STEP takes the lane to FAULT with cause 8. (R302) -/
  | stepTimeout (l : Nat)
  /-- A lane not trained within the training timeout falls back one rate. (R307) -/
  | trainingTimeout (l : Nat)
  /-- After 1 ms quiet in FAULT a used lane returns to SEARCH at 1.25 Gb/s. (R302) -/
  | laneQuietExpiry (l : Nat)
  /-- A write of 0x01 to 0x5530 + l .1A retrains the lane through FAULT. (R319) -/
  | laneRetrain (l : Nat)
  /-- A held lane setting takes effect once every arm on the lane is BLOCKED, retraining the lane. (R319) -/
  | laneChangeEffect (l : Nat)
  /-- An upstream frame is checked for validity and held for the report latch or discarded. (R336) -/
  | upstreamFrame (l head : Nat) (stream : List Nat)
  /-- A dispute ends when no condition has held for 1,000 ticks. (R447) -/
  | disputeEnd
  /-- Pole command ENERGISE starts the energisation sequence. (R203) -/
  | energise (p : Nat)
  /-- Pole command DEBLOCK is judged and schedules a deblock tick. (R189) -/
  | deblock (p : Nat)
  /-- Pole command BLOCK blocks the pole at the next tick boundary or aborts energisation. (R188) -/
  | block (p : Nat)
  /-- Pole command RESET leaves TRIPPED once the trip cause is no longer present. (R712) -/
  | reset (p : Nat)
  /-- Pole command DE-ENERGISE returns a BLOCKED-READY pole to BLOCKED with a breaker-open request. (R188) -/
  | deEnergise (p : Nat)
  /-- Pole command RECONNECTED returns an ISLANDED pole to DEBLOCKED at the next slow run. (R186) -/
  | reconnected (p : Nat)
  /-- Pole command RUN-BACK ramps the P target to the run-back target. (R165) -/
  | runBack (p : Nat)
  /-- Pole command RUN-BACK END ramps back to the stored P order. (R165) -/
  | runBackEnd (p : Nat)
  /-- At the deblock tick the conditions are judged again and the pole deblocks or the deblock is cancelled. (R189) -/
  | deblockTick (p : Nat)
  /-- A fast-tier run starts at each multiple of T_f. (R158) -/
  | fastRun (p : Nat) (finish : Bool)
  /-- A slow-tier run starts at each multiple of T_s, applying setpoints and ramps. (R158) -/
  | slowRun (finish : Bool)
  /-- Angle valid clear for the angle-loss delay trips a grid-following deblocked pole. (R173) -/
  | angleLossTrip (p : Nat)
  /-- A time limit of the energisation sequence expires and aborts or advances it. (R203) -/
  | energisationTimeout (p : Nat)
  /-- A write of 0x01 to 0x5108 + p .12 aborts energisation with reason 9. (R203) -/
  | energisationAbort (p : Nat)
  /-- A setpoint frame from the station half takes effect at the first slow run at least 2 ticks later. (R162) -/
  | setpointFrame (vals : List (Nat × Nat))
  /-- No valid setpoint frame for the timeout puts the pole in setpoint loss. (R163) -/
  | setpointLoss (p : Nat)
  /-- DC current below the band for the hold time takes suppression to EXTINGUISHED. (R217) -/
  | extinctionHoldExpiry (p : Nat)
  /-- No extinction within the limit trips the pole. (R217) -/
  | extinctionLimitExpiry (p : Nat)
  /-- End of the deionisation time starts an automatic restart. (R217) -/
  | deionisationExpiry (p : Nat)
  /-- A write of 0x01 to 0x5104 + p .11 starts the DC restart ramp. (R217) -/
  | dcRestart (p : Nat)
  /-- End of the settle time opens a baseline or trial window. (R357) -/
  | lossSettleExpiry (p : Nat)
  /-- A whole-object write of an arm's exclusion map is judged and put in force at a tick boundary. (R235) -/
  | exclusionMapWrite (a map : Nat)
  /-- A complete-access write of an arm's force request is judged and takes effect at the next tick boundary. (R278) -/
  | forceRequest (a scope pattern lanes level offset : Nat)
  /-- 40 ms without an accepted crossing takes the window state to FIXED. (R371) -/
  | crossingTimeout (p : Nat)
  /-- After the save interval the metering state is saved to the older MRAM slot. (R384) -/
  | periodicSave
  /-- An output with backlog starts a pulse once 1/f_out has passed since its last. (R393) -/
  | pulseStart (o : Nat)
  /-- The pulse width elapses and the output stops conducting. (R393) -/
  | pulseEnd (o : Nat)
  /-- A write of 0x02 to 0x6000.12 in a safety session opens the metering lock. (R396) -/
  | lockOpen
  /-- A write of 0x01 to 0x6000.12 in a safety session closes the metering lock. (R396) -/
  | lockClose
  /-- A write of 0x01 to 0x6000.15 in a safety session ends METER-FAULT. (R391) -/
  | meterFaultAcknowledge
  /-- An arbiter GRANT makes or extends the unit's lease. (R410) -/
  | grantReceived (seq epoch : Nat) (isNew : Bool) (duration since : Nat) (crcOk : Bool)
  /-- An arbiter DENY updates the known epoch and may end bridging. (R418) -/
  | denyReceived (epoch holder age sinceT0 : Nat) (crcOk : Bool)
  /-- An arbiter NOTICE updates holder, epoch and AGE. (R418) -/
  | noticeReceived (epoch holder age sinceT0 : Nat) (crcOk : Bool)
  /-- Each renewal period the unit sends a REQUEST or STATUS to the arbiter. (R410) -/
  | leaseRenewal
  /-- The lease expires at its holder and single-actor actions stop. (R411) -/
  | flagFall
  /-- No valid arbiter message for 300 µs declares the arbiter link down. (R421) -/
  | arbiterLinkDown
  /-- An ACTIVE unit without a lease for EPWIN ticks trips its poles. (R415) -/
  | stalemate
  /-- After the cold-start wait with no holder a STANDBY-UNSYNC unit requests at priority 1. (R414) -/
  | coldStartRequest
  /-- When the Rolpor link trains the units exchange strap words and check them. (R578) -/
  | rolporLinkUp (straps lanes delay : Nat)
  /-- A received TICK record gives the standby its measurements, latch map and the peer's hash. (R425) -/
  | rolporTickRecord (r : TickRec) (rseq : Nat) (single crcOk : Bool) (margin : Int)
  /-- A forwarded shared write is put in force at the same T0 as on the holder. (R429) -/
  | writeRecord (rseq idx sub eff v : Nat) (single : Bool)
  /-- A forwarded command, setpoint or decision is applied at its stated tick. (R429) -/
  | decisionRecord (rseq eff : Nat) (x : Decision) (single : Bool)
  /-- A received peer HEALTH record updates the peer view. (R433) -/
  | healthRecord (rseq body : Nat) (single crcOk : Bool)
  /-- A peer record older than 8 ticks counts as none. (R498) -/
  | peerHealthStale
  /-- The active unit answers a resynchronisation request with RESYNC_ACK and a snapshot tick. (R443) -/
  | resyncRequest
  /-- The standby learns the snapshot tick at which it enters RESYNC. (R443) -/
  | resyncAck (c : Nat)
  /-- At the snapshot tick the standby enters RESYNC and the active unit streams its state. (R443) -/
  | snapshotTick
  /-- A STATE record carrying the active unit's state is buffered by the standby. (R443) -/
  | stateRecord (rseq : Nat) (part : StatePart) (single : Bool)
  /-- A REFBLK record carrying the tick's reference block is buffered by the standby. (R443) -/
  | refblkRecord (rseq n : Nat) (blocks : List RefBlock) (single : Bool)
  /-- An OUTER record starts the standby's own fast and slow runs. (R443) -/
  | outerRecord (rseq v : Nat) (poles : List PoleCtl) (finish single : Bool)
  /-- On receipt of the whole state the standby loads it and replays the buffered ticks. (R443) -/
  | resyncStateLoaded
  /-- Equal hashes for the verification length take the standby to STANDBY-SYNC. (R443) -/
  | resyncVerified
  /-- More than 1 s from the snapshot tick without STANDBY-SYNC fails the attempt. (R444) -/
  | resyncTimeout
  /-- EPWIN ticks bridged without a grant take the standby to STANDBY-UNSYNC. (R436) -/
  | bridgingTimeout
  /-- Twin command CASTLE is judged and proposes a castling tick. (R438) -/
  | castle
  /-- Twin command RESYNC re-enables resynchronisation requests after failures. (R442) -/
  | resync
  /-- Twin command OUT-OF-SERVICE takes a non-ACTIVE unit out of service. (R407) -/
  | outOfService
  /-- Twin command RETURN takes an OUT-OF-SERVICE unit to STANDBY-UNSYNC. (R407) -/
  | returnToService
  /-- Twin command 5 abandons a pending castling. (R439) -/
  | abandonCastling
  /-- The standby receives the proposal and answers CASTLE_ACK or CASTLE_ABANDON. (R439) -/
  | castlePropose (c : Nat)
  /-- The active unit receives the standby's agreement to castle. (R439) -/
  | castleAck (c : Nat)
  /-- Either unit receives CASTLE_ABANDON and both drop castling. (R439) -/
  | castleAbandon
  /-- A CONTROL ABDICATE schedules a role change two ticks ahead without RELEASE. (R441) -/
  | abdicate (c : Nat)
  /-- At the castling tick the roles swap and the lease is handed over. (R439) -/
  | castlingTick
  /-- No grant within the castling grant timeout records castling failed and proceeds as after flag fall. (R440) -/
  | castlingGrantTimeout
  /-- A fast comparator pair trip sets its latch, the arm mask bits and releases BLOCK_OUT. (R488) -/
  | comparatorTrip (k cycle : Nat) (sent : List Nat)
  /-- At the end of a blanking window qualification restarts for an outside comparator. (R484) -/
  | blankingWindowEnd (j w : Nat)
  /-- Once per test interval one comparator is taken out of service and tested. (R485) -/
  | comparatorSelfTest
  /-- A 4 µs test step ends and is judged, repeated or marks a comparator failed. (R486) -/
  | comparatorTestStep (pass : Bool)
  /-- A BLOCK_OUT drive and read-back difference of 100 ns is counted and recorded. (R491) -/
  | blockOutReadbackMismatch
  /-- A safety input channel's filtered level changes after its filter time. (R501) -/
  | safeInputFiltered (i : Nat) (b level : Bool) (sent : List Nat)
  /-- A and B levels differing for the discrepancy time latch a discrepancy fault. (R502) -/
  | discrepancyFault (i : Nat)
  /-- A falling SAFE_RESET edge after a valid high time is a valid reset. (R503) -/
  | safeResetEdge (highMs lowMs : Nat)
  /-- SAFE_RESET high for 5 s is declared stuck. (R503) -/
  | safeResetStuck
  /-- Channels disagreeing on NORMAL for more than 1 s record an event. (R497) -/
  | safeBlockDisagreement
  /-- A conducting output releases each channel for the test pulse width on its schedule. (R506) -/
  | outputTestPulse (o : Nat) (b released : Bool)
  /-- Every condition held for the hold time makes zero-energy monitoring PERMITTED. (R508) -/
  | zeroEnergyHoldExpiry
  /-- An FSoE frame from the master updates the received safe data. (R510) -/
  | fsoeFrame (conn data : Nat)
  /-- Watchdog expiry sets the received safe data to the fail-safe value 0. (R510) -/
  | fsoeWatchdogExpiry
  /-- A passphrase write to 0x7001.01 opens a safety session or counts a failure. (R515) -/
  | sessionOpen (pass : List Nat)
  /-- A write of 0x01 to 0x7001.02 ends the safety session. (R517) -/
  | sessionClose
  /-- A write of 0x7001.03 in a session sets a new passphrase. (R515) -/
  | newPassphrase (pass : List Nat)
  /-- A write of 0x01 to 0x7001.07 commits the pending safety configuration. (R516) -/
  | safetyCommit
  /-- A write of 0x02 to 0x7001.07 discards the pending set. (R516) -/
  | safetyDiscard
  /-- No rws write for the idle time ends the session. (R517) -/
  | sessionIdleExpiry
  /-- The opening lockout after failed passphrases expires. (R515) -/
  | sessionLockoutExpiry
  /-- A write of SEQ to 0x7002.03 frees change-log entries and appends an acknowledgement. (R519) -/
  | logAcknowledge (seq : Nat) (wasRead : Bool)
  /-- An SDO write to an entry with no row of its own is judged and takes effect by its change class. (R542) -/
  | sdoWrite (idx sub len v : Nat)
  /-- A write to a clear entry clears the named event counters with their sticky bits. (R8) -/
  | counterClear (idx sub v : Nat)
  /-- A write of 0x01 to 0x9000.02 clears every event counter at one tick boundary. (R682) -/
  | clearAll (v : Nat)
  /-- A write to 0x2002.02 takes an access level on a valid credential. (R539) -/
  | login (bytes : List Nat)
  /-- A write of 0x01 to 0x2002.03 returns the level to Observer. (R541) -/
  | logout
  /-- A write to 0x2002.0A sets the credential of a level. (R540) -/
  | setCredential (bytes : List Nat)
  /-- No mailbox access for the idle time returns the level to Observer. (R541) -/
  | accessIdleExpiry
  /-- Device command BLOCK ALL blocks every energising, deblocked or islanded pole. (R555) -/
  | blockAll
  /-- Device command ACKNOWLEDGE clears the EMCY-discarded status bit. (R555) -/
  | acknowledge
  /-- Device command RESET PLANT resets the plant half through S_REG_EN_DRV. (R555) -/
  | resetPlant (lost : Bool)
  /-- Device command RESET STATION resets the station half after its response. (R555) -/
  | resetStation
  /-- Device command RESET MODULE resets both halves. (R555) -/
  | resetModule (lost : Bool)
  /-- After 20 ms of conduction the station half releases S_REG_EN_DRV. (R656) -/
  | regEnToggleEnd
  /-- At each SYNC0 edge the newest SM2 buffer is sent as a setpoint frame and an image placed in SM3. (R562) -/
  | sync0Edge (deviationNs : Int)
  /-- SM2 watchdog expiry takes the slave to SAFEOP. (R530) -/
  | sm2WatchdogExpiry
  /-- A requested EtherCAT state change is judged and taken or refused with an AL status code. (R529) -/
  | alStateRequest (target : Nat) (dcEnabled : Bool) (sync0Ns : Nat)
  /-- A queued event is sent as a CoE emergency message when the mailbox can send. (R570) -/
  | emcySend
  /-- The first segment of an FoE image write erases the slot or image region. (R591) -/
  | foeWriteSegment (file password : Nat)
  /-- A complete FoE configuration write leaves the slot STAGED. (R589) -/
  | foeConfigComplete (slot : Nat) (im : List Nat)
  /-- A complete firmware write is checked for signature, product code and seal. (R604) -/
  | foeFirmwareComplete (version crc meter : Nat) (sigOk productOk : Bool)
  /-- An FoE read of tk_run exports the values in force as one image. (R545) -/
  | foeReadRun (password : Nat)
  /-- An FoE read of tk_rec_s exports a held record and marks it EXPORTED. (R680) -/
  | foeReadRecord (i password : Nat)
  /-- An FoE read of tk_evt exports the event log as it stood at the start. (R672) -/
  | foeReadEventLog (password : Nat)
  /-- Configuration command VALIDATE starts checking the target slot. (R592) -/
  | validate
  /-- The validation ends and the slot becomes VALIDATED or REJECTED. (R592) -/
  | validationComplete
  /-- Configuration command ACTIVATE is judged and proposes an activation tick. (R594) -/
  | activate
  /-- Configuration command ROLLBACK activates the PREVIOUS slot. (R602) -/
  | rollback
  /-- Configuration command ERASE empties the target slot. (R589) -/
  | erase
  /-- Configuration command ABANDON on the holder abandons a pending activation. (R598) -/
  | abandon
  /-- Configuration command ACTIVATE FIRMWARE activates the image not running. (R605) -/
  | activateFirmware
  /-- The peer receives an activation proposal and answers ACT_READY or ACT_REFUSE. (R595) -/
  | actPropose (kind version crc a : Nat)
  /-- The holder receives the peer's readiness for the activation. (R594) -/
  | actReady
  /-- A received ACT_REFUSE makes the unit abandon the activation. (R598) -/
  | actRefuse
  /-- A received ACT_COMMITTED records that the peer has reached its commit point. (R597) -/
  | actCommitted
  /-- A received ACT_ABANDON makes the unit abandon the activation. (R598) -/
  | actAbandon
  /-- At tick a − 256 each unit loads the new values into shadow storage and validates them. (R595) -/
  | shadowLoad
  /-- At tick a − 128 each unit writes its COMMIT record and sends ACT_COMMITTED. (R596) -/
  | commitRecord
  /-- At tick a − 32 a unit lacking the peer's ACT_COMMITTED abandons. (R598) -/
  | committedDeadline
  /-- At tick a the unit switches the configuration or resets for a RESTART or FIRMWARE kind. (R597) -/
  | activationSwitch
  /-- A non-ACTIVE unit differing from its ACTIVE peer for 1,000 ticks activates the peer's version alone. (R599) -/
  | configAdoption
  /-- After 365 days of powered time the station half rewrites every image and slot block. (R709) -/
  | flashRefresh (failed : Nat)
  /-- A write of 0x9010.40 enables or disables core access through JTAG. (R466) -/
  | debugEnable (v : Nat)
  /-- A debugger access is staged and replayed to both copies of a pair. (R467) -/
  | debugAccess (pair kind : Nat)
  /-- Task command SUSPEND stops a running task at the next T0. (R476) -/
  | suspend (t : Nat)
  /-- Task command RESUME returns a suspended task to RUNNING. (R476) -/
  | resume (t : Nat)
  /-- Task command RESTART reloads a task's data and empties its inbox. (R476) -/
  | restart (t : Nat)
  /-- A station message for a task enters its inbox or is discarded when full. (R475) -/
  | taskMessageReceived
  /-- A master sends a message on a barrier channel, judged against binding, class and credit. (R614) -/
  | messageSend (ident pair c cls typ : Nat) (payload : List Nat)
  /-- A barrier message arriving whole is CRC-checked, resent on failure, and queued in SEQ order. (R616) -/
  | messageReceived (c : Nat) (crcOk : Bool)
  /-- The receiver takes a message from its queue and a credit is returned. (R620) -/
  | messageTake (ident pair c : Nat)
  /-- The sender sets doorbell bits, asserting the receiver's interrupt if unmasked. (R621) -/
  | doorbellSet (ident pair c bits : Nat)
  /-- The receiver clears doorbell bits by writing 1. (R621) -/
  | doorbellClear (ident pair c bits : Nat)
  /-- A barrier lane fails on signal, alignment or CRC errors and retrains. (R617) -/
  | barrierLaneFailure (toStation : Bool) (lane : Nat)
  /-- Once both directions train with equal table CRCs the channels enter OPEN. (R623) -/
  | barrierLaneTrained (toStation : Bool) (lane : Nat) (crcEqual : Bool)
  /-- Every 1 ms the station interface sends its counters and lane state to the plant interface. (R618) -/
  | linkStatusBlock
  /-- A valid time-source edge makes the station half send a time message. (R666) -/
  | timeEdge (mode reading offUs delay : Nat)
  /-- The plant half places the time edge and stores its tick and UTC second. (R667) -/
  | timeMessage (sec delay sinceT0 : Nat)
  /-- Three missing or rejected expected edges take the time state to HOLDOVER. (R668) -/
  | timeHoldover
  /-- A trigger event freezes the armed slot around the trigger tick or lists a retrigger. (R678) -/
  | recorderTrigger (src t : Nat)
  /-- A write of 0x01 to 0xB000.08 raises a recorder trigger. (R676) -/
  | manualTrigger (v : Nat)
  /-- After tick t + N − 1 and the last snapshot the slot becomes HELD. (R678) -/
  | recordingEnd
  /-- No stream for 10 ms ends the recording as HELD with TRUNC. (R678) -/
  | recordingStreamTimeout
  /-- Each second the case temperature is estimated and equivalent hours are added. (R684) -/
  | lifeAccounting (mC : Int)
  /-- The station half loses S_12V and becomes unpowered, so the plant half sees partner reset on its channels. (R17) -/
  | stationSupplyLoss
  /-- An uncorrectable station DRAM word outside the recorder area resets the station half. (R683) -/
  | dramUncorrectableWord (recorder : Bool) (slot t w : Nat) (pair : Option Nat)
  /-- The Rolpor link goes down once no group in a direction stays trained, and 0x8002.01 shows it. (R422) -/
  | rolporLinkDown
  /-- A plant half that does not answer an SDO access within 50 ms causes an abort with 0x0504_0000. (R544) -/
  | sdoResponseTimeout (idx sub : Nat)
  /-- In free run, each completed SM2 buffer is sent to the plant half at once as a setpoint frame. (R562) -/
  | sm2BufferComplete (bytes : List Nat)
  /-- In free run, each SM3 read places the newest complete TxPDO image and station-side entries in SM3. (R564) -/
  | sm3BufferRead
  /-- The login lockout after failed credentials expires, shown in 0x2002.0B, and logins are accepted again. (R539) -/
  | accessLockoutExpiry
  /-- A holdup store voltage above 5.25 V fails its health, puts it in FAILED and stops the charger. (R661) -/
  | storeOvervoltage
  /-- A link change on S_ECAT1 opens or closes the EtherCAT loop at the slave. (R527) -/
  | ecatPortLink (up : Bool)
  /-- The JTAG port answers IEEE 1149.1 boundary-scan and identification instructions at all times. (R466) -/
  | jtagBoundaryScan
  deriving DecidableEq, Repr

end Sys2Proof
end

