-- ==== Sys2Proof/WellFormed.lean ====
section
/-! DEFINITION. Which commands name things the device has: lanes, poles, arms, channels, comparators, inputs, outputs, slots, tasks and
entries within their counts (Table 1.4 and the objects' own tables). The meanings are total, and a command that is not well-formed has
no effect or is refused as its rule says. -/
namespace Sys2Proof

/-- Every value is a byte. -/
def allBytes (bs : List Nat) : Bool := bs.all fun b => decide (b < 256)

/-- The operands of a command lie in their ranges. -/
def Instr.wellFormed (i : Instr) : Bool :=
  match i with
  | .stationResetRelease _ _ _ => true
  | .sResetNLow => true
  | .plantResetRelease _ _ => true
  | .bootLoadComplete _ _ _ => true
  | .selfTestComplete _ _ => true
  | .enterLinked => true
  | .linkWaitExpiry => true
  | .readyTimeout => true
  | .clockLoss _ => true
  | .lockStepFault pair _ _ => decide (pair < 4)
  | .uncorrectableWord _ => true
  | .memoryScrub _ _ => true
  | .supplyLoss _ => true
  | .endgameSaveEnd _ => true
  | .supplyReturn => true
  | .regEnLow => true
  | .regEnHigh _ _ => true
  | .powerGood => true
  | .softStartTimeout => true
  | .hiccupExpiry => true
  | .switchShortTrip _ _ => true
  | .coreRailFault _ => true
  | .shutdownExpiry => true
  | .bootstrapLockout h => decide (h < 6)
  | .vdrvLockout => true
  | .lockoutRecovery _ => true
  | .brakeStart => true
  | .brakeEnd => true
  | .loadStep => true
  | .phaseShed => true
  | .forcedRefresh h => decide (h < 6)
  | .comparatorTestPhase _ _ => true
  | .storeMeasurement => true
  | .measureNow _ => true
  | .storeMeasurementComplete _ _ => true
  | .storeChargeTimeout => true
  | .tickT0 _ => true
  | .measurementDeadline _ => true
  | .controlEngineDeadline _ => true
  | .rankEngineDeadline _ => true
  | .pair3SlotStart _ runs => runs.all (fun r => decide (r.task < 8))
  | .taskBudgetExpiry runs => runs.all (fun r => decide (r.task < 8))
  | .pair3SlotEnd => true
  | .tickRecordSend => true
  | .healthRecordSend => true
  | .tickRecordDeadline => true
  | .conversionComplete ch _ => decide (ch < 32)
  | .referenceWarmupExpiry _ => true
  | .referenceMonitorFault _ => true
  | .referenceMonitorRecovery _ => true
  | .bufferEnableWrite _ => true
  | .overlapCheck ch => decide (ch < 32)
  | .overlapCheckComplete => true
  | .syncInEdge _ _ _ _ => true
  | .syncEdgeMissing => true
  | .syncPhaseStep => true
  | .syncTracked => true
  | .tickPeriodRequest code => decide (code < 256)
  | .tickPeriodChange => true
  | .losAssert l => decide (l < 32)
  | .losClear l => decide (l < 32)
  | .lolAssert l => decide (l < 32)
  | .lolClear l => decide (l < 32)
  | .alignmentLost l => decide (l < 32)
  | .signalSettled l => decide (l < 32)
  | .alignmentAchieved l _ _ => decide (l < 32)
  | .alignmentSearchFail l => decide (l < 32)
  | .bitSlip l => decide (l < 32)
  | .trainReceived l _ _ => decide (l < 32)
  | .capabilityReceived l _ _ _ => decide (l < 32)
  | .identityReceived l _ _ _ => decide (l < 32)
  | .configAckReceived l _ _ => decide (l < 32)
  | .rangeEchoReceived l _ _ => decide (l < 32)
  | .rateAckReceived l _ => decide (l < 32)
  | .readyReceived l _ => decide (l < 32)
  | .nackReceived l _ _ => decide (l < 32)
  | .handshakeTimeout l => decide (l < 32)
  | .rangingTimeout l => decide (l < 32)
  | .stepTimeout l => decide (l < 32)
  | .trainingTimeout l => decide (l < 32)
  | .laneQuietExpiry l => decide (l < 32)
  | .laneRetrain l => decide (l < 32)
  | .laneChangeEffect l => decide (l < 32)
  | .upstreamFrame l _ stream => decide (l < 32) && allBytes stream
  | .disputeEnd => true
  | .energise p => decide (p < 2)
  | .deblock p => decide (p < 2)
  | .block p => decide (p < 2)
  | .reset p => decide (p < 2)
  | .deEnergise p => decide (p < 2)
  | .reconnected p => decide (p < 2)
  | .runBack p => decide (p < 2)
  | .runBackEnd p => decide (p < 2)
  | .deblockTick p => decide (p < 2)
  | .fastRun p _ => decide (p < 2)
  | .slowRun _ => true
  | .angleLossTrip p => decide (p < 2)
  | .energisationTimeout p => decide (p < 2)
  | .energisationAbort p => decide (p < 2)
  | .setpointFrame _ => true
  | .setpointLoss p => decide (p < 2)
  | .extinctionHoldExpiry p => decide (p < 2)
  | .extinctionLimitExpiry p => decide (p < 2)
  | .deionisationExpiry p => decide (p < 2)
  | .dcRestart p => decide (p < 2)
  | .lossSettleExpiry p => decide (p < 2)
  | .exclusionMapWrite a _ => decide (a < 12)
  | .forceRequest a _ _ _ _ _ => decide (a < 12)
  | .crossingTimeout p => decide (p < 2)
  | .periodicSave => true
  | .pulseStart o => decide (o < 8)
  | .pulseEnd o => decide (o < 8)
  | .lockOpen => true
  | .lockClose => true
  | .meterFaultAcknowledge => true
  | .grantReceived _ _ _ _ _ _ => true
  | .denyReceived _ _ _ _ _ => true
  | .noticeReceived _ _ _ _ _ => true
  | .leaseRenewal => true
  | .flagFall => true
  | .arbiterLinkDown => true
  | .stalemate => true
  | .coldStartRequest => true
  | .rolporLinkUp straps _ _ => decide (straps < 65536)
  | .rolporTickRecord _ _ _ _ _ => true
  | .writeRecord _ idx sub _ _ _ => decide (idx < 65536) && decide (sub < 256)
  | .decisionRecord _ _ _ _ => true
  | .healthRecord _ _ _ _ => true
  | .peerHealthStale => true
  | .resyncRequest => true
  | .resyncAck _ => true
  | .snapshotTick => true
  | .stateRecord _ _ _ => true
  | .refblkRecord _ _ _ _ => true
  | .outerRecord _ _ _ _ _ => true
  | .resyncStateLoaded => true
  | .resyncVerified => true
  | .resyncTimeout => true
  | .bridgingTimeout => true
  | .castle => true
  | .resync => true
  | .outOfService => true
  | .returnToService => true
  | .abandonCastling => true
  | .castlePropose _ => true
  | .castleAck _ => true
  | .castleAbandon => true
  | .abdicate _ => true
  | .castlingTick => true
  | .castlingGrantTimeout => true
  | .comparatorTrip k _ _ => decide (k < 24)
  | .blankingWindowEnd j _ => decide (j < 12)
  | .comparatorSelfTest => true
  | .comparatorTestStep _ => true
  | .blockOutReadbackMismatch => true
  | .safeInputFiltered i _ _ _ => decide (i < 8)
  | .discrepancyFault i => decide (i < 8)
  | .safeResetEdge _ _ => true
  | .safeResetStuck => true
  | .safeBlockDisagreement => true
  | .outputTestPulse o _ _ => decide (o < 4)
  | .zeroEnergyHoldExpiry => true
  | .fsoeFrame _ _ => true
  | .fsoeWatchdogExpiry => true
  | .sessionOpen pass => allBytes pass
  | .sessionClose => true
  | .newPassphrase pass => allBytes pass
  | .safetyCommit => true
  | .safetyDiscard => true
  | .sessionIdleExpiry => true
  | .sessionLockoutExpiry => true
  | .logAcknowledge _ _ => true
  | .sdoWrite idx sub _ _ => decide (idx < 65536) && decide (sub < 256)
  | .counterClear idx sub _ => decide (idx < 65536) && decide (sub < 256)
  | .clearAll _ => true
  | .login bytes => allBytes bytes
  | .logout => true
  | .setCredential bytes => allBytes bytes
  | .accessIdleExpiry => true
  | .blockAll => true
  | .acknowledge => true
  | .resetPlant _ => true
  | .resetStation => true
  | .resetModule _ => true
  | .regEnToggleEnd => true
  | .sync0Edge _ => true
  | .sm2WatchdogExpiry => true
  | .alStateRequest _ _ _ => true
  | .emcySend => true
  | .foeWriteSegment _ _ => true
  | .foeConfigComplete slot im => decide (slot < 8) && allBytes im
  | .foeFirmwareComplete _ _ _ _ _ => true
  | .foeReadRun _ => true
  | .foeReadRecord i _ => decide (i < 4)
  | .foeReadEventLog _ => true
  | .validate => true
  | .validationComplete => true
  | .activate => true
  | .rollback => true
  | .erase => true
  | .abandon => true
  | .activateFirmware => true
  | .actPropose _ _ _ _ => true
  | .actReady => true
  | .actRefuse => true
  | .actCommitted => true
  | .actAbandon => true
  | .shadowLoad => true
  | .commitRecord => true
  | .committedDeadline => true
  | .activationSwitch => true
  | .configAdoption => true
  | .flashRefresh _ => true
  | .debugEnable _ => true
  | .debugAccess pair _ => decide (pair < 4)
  | .suspend t => decide (t < 8)
  | .resume t => decide (t < 8)
  | .restart t => decide (t < 8)
  | .taskMessageReceived => true
  | .messageSend ident pair c _ _ payload => decide (ident < 5) && decide (pair < 4) && decide (c < 16) && allBytes payload
  | .messageReceived c _ => decide (c < 16)
  | .messageTake ident pair c => decide (ident < 5) && decide (pair < 4) && decide (c < 16)
  | .doorbellSet ident pair c _ => decide (ident < 5) && decide (pair < 4) && decide (c < 16)
  | .doorbellClear ident pair c _ => decide (ident < 5) && decide (pair < 4) && decide (c < 16)
  | .barrierLaneFailure _ lane => decide (lane < 2)
  | .barrierLaneTrained _ lane _ => decide (lane < 2)
  | .linkStatusBlock => true
  | .timeEdge _ _ _ _ => true
  | .timeMessage _ _ _ => true
  | .timeHoldover => true
  | .recorderTrigger src _ => decide (src < 16)
  | .manualTrigger _ => true
  | .recordingEnd => true
  | .recordingStreamTimeout => true
  | .lifeAccounting _ => true
  | .stationSupplyLoss => true
  | .dramUncorrectableWord _ _ _ _ _ => true
  | .rolporLinkDown => true
  | .sdoResponseTimeout idx sub => decide (idx < 65536) && decide (sub < 256)
  | .sm2BufferComplete bytes => allBytes bytes
  | .sm3BufferRead => true
  | .accessLockoutExpiry => true
  | .storeOvervoltage => true
  | .ecatPortLink _ => true
  | .jtagBoundaryScan => true

end Sys2Proof
end

