-- ==== Sys2Proof/Decode.lean ====
section
/-! DEFINITION. The opcode table gives its rows no bits (every row's fields are empty): the block is driven by commands and events, not
by words, so no word spells a command (assumption log 1). -/
namespace Sys2Proof

/-- The command a word of the table's bits spells: none, for the table gives no row any bits (assumption log 1). -/
def decodeTableWord (nbits w : Nat) : Option Instr :=
  let _ := nbits
  let _ := w
  none

end Sys2Proof
end

