-- ==== Sys2Proof/Config.lean ====
section
/-! DEFINITION. What the spec leaves open: opaque constants with no body. Nothing is known of their values, so a claim
that mentions one holds for every value of it. Each is named in the assumption log. -/
namespace Sys2Proof.Config

/-- The value of an entry fixed by the part or its image (serial number, factory trims, versions; Tables 3.6, 16.9) (assumption log 6). -/
opaque partValue : Nat → Nat

/-- Which of the two ordering codes of Table 0.1 the part is: true for the TK8192-ME, whose metering seal is set at manufacture (R1, R2)
(assumption log 86). -/
opaque sealedPart : Bool

/-- What an arm or a pole measures where its entry names no channel (255): no rule states a value (assumption log 40). -/
opaque unboundValue : Nat → Rat

/-- The real exponential, for the acceleration factor a(T) of R684 (assumption log 11). -/
opaque realExp : Rat → Rat

/-- The real square root (V̂_acr of R153, the limits of R170 and R212) (assumption log 11). -/
opaque realSqrt : Rat → Rat

/-- Sine of an angle in turns (assumption log 11). -/
opaque realSin : Rat → Rat

/-- Cosine of an angle in turns (assumption log 11). -/
opaque realCos : Rat → Rat

/-- The argument of a vector, in degrees (assumption log 11). -/
opaque realArg : Rat → Rat → Rat

/-- One step of the grid angle tracker's filters and PI controller (ch. 5, "The grid angle tracker"): settings, working values and
the samples of the fast period give its outputs and the next working values. The spec gives its structure and no equations
(assumption log 41). -/
opaque trackerStep : List Rat → List Rat → List (List Rat) → List Rat

/-- The state hash of the TICK record (Table 13.7, HASH): of the words that the engines hold at the end of a tick (assumption log 61). -/
opaque stateHash : List Int → Nat

/-- The content of a stored word that carries no data of the machine (a dump of code, of a file region left unwritten)
(assumption log 3, 69). -/
opaque freeWord : Nat → Nat

/-- The derived key of PBKDF2 with HMAC-SHA-256, 65,536 iterations, for a secret's bytes and a salt (R515, R539) (assumption log 16). -/
opaque pbkdf2 : List Nat → Nat → Nat

/-- The nth draw of an entropy source, 16 bytes (R515, R539) (assumption log 3, 16). -/
opaque entropy : Nat → Nat

/-- Whether an Ed25519 signature holds for a public key and a message (R471, R585) (assumption log 16). -/
opaque ed25519 : Nat → List Nat → Nat → Bool

/-- The control engine's fixed sine table by angle, one turn = 2^32; the content is not in the spec (R117) (assumption log 32). -/
opaque sineTable : Nat → Int

end Sys2Proof.Config
end

