-- ==== Sys2Proof/Machine/Numeric.lean ====
section
/-! DEFINITION. Number formats: two's complement fields, IEEE 754 binary32 (R534), rounding to nearest with ties away
from zero and saturation (R116), little-endian bytes, serial-number order (R10) and CRC-32C (R326). -/
namespace Sys2Proof.Machine

/-- The signed value of a two's complement word of `w` bits. -/
def toInt (w n : Nat) : Int :=
  if n % 2 ^ w < 2 ^ (w - 1) then (n % 2 ^ w : Nat) else ((n % 2 ^ w : Nat) : Int) - (2 ^ w : Nat)

/-- The two's complement word of `w` bits of an integer. -/
def ofInt (w : Nat) (i : Int) : Nat := (i % ((2 ^ w : Nat) : Int)).toNat

/-- Clamp to the signed range of `w` bits. -/
def satInt (w : Nat) (i : Int) : Int :=
  if i > (2 ^ (w - 1) : Nat) - 1 then (2 ^ (w - 1) : Nat) - 1
  else if i < -((2 ^ (w - 1) : Nat) : Int) then -((2 ^ (w - 1) : Nat) : Int) else i

/-- The nearest integer to `n / d` for `d > 0`, ties away from zero (R116). -/
def divRound (n : Int) (d : Nat) : Int :=
  if n ≥ 0 then (((2 * n.toNat + d) / (2 * d) : Nat) : Int)
  else -(((2 * (-n).toNat + d) / (2 * d) : Nat) : Int)

/-- The nearest integer to a rational, ties away from zero. -/
def ratRound (x : Rat) : Int := divRound x.num x.den

/-- The least integer not below a rational. -/
def ratCeil (x : Rat) : Int := -((-x.num) / (x.den : Int))

/-- The greatest integer not above a rational. -/
def ratFloor (x : Rat) : Int := x.num / (x.den : Int)

/-- Clamp a rational between two bounds. -/
def ratClamp (lo hi x : Rat) : Rat := if x > hi then hi else if x < lo then lo else x

/-- Magnitude of a rational. -/
def ratAbs (x : Rat) : Rat := if x < 0 then -x else x

/-- The smaller of two rationals. -/
def ratMin (x y : Rat) : Rat := if x ≤ y then x else y

/-- The larger of two rationals. -/
def ratMax (x y : Rat) : Rat := if x ≤ y then y else x

/-- Two to an integer power, as a rational. -/
def pow2 (e : Int) : Rat := if e ≥ 0 then ((2 ^ e.toNat : Nat) : Rat) else mkRat 1 (2 ^ (-e).toNat)

/-- NaN or infinity (R534 refuses both). -/
def f32Special (w : Nat) : Bool := field w 23 8 == 255

/-- The value of a finite binary32 pattern. -/
def f32Val (w : Nat) : Rat :=
  let e := field w 23 8
  let m := field w 0 23
  let a : Rat := if e = 0 then (m : Rat) * pow2 (-149) else ((m + 2 ^ 23 : Nat) : Rat) * pow2 ((e : Int) - 150)
  if bit w 31 then -a else a

/-- The nearest integer to a non-negative `n / d`, ties to even. -/
def divEven (n d : Nat) : Nat :=
  let q := n / d
  let r := n % d
  if 2 * r > d ∨ (2 * r = d ∧ q % 2 = 1) then q + 1 else q

/-- The binary32 pattern nearest a rational, ties to even; magnitudes too large give the largest finite number. -/
def f32Of (x : Rat) : Nat :=
  let n := x.num.natAbs
  let d := x.den
  if n = 0 then 0
  else
    let e0 : Int := (Nat.log2 n : Int) - (Nat.log2 d : Int)
    let e : Int := if (if e0 ≥ 0 then d * 2 ^ e0.toNat ≤ n else d ≤ n * 2 ^ (-e0).toNat) then e0 else e0 - 1
    let e' : Int := if e < -126 then -126 else e
    let sh : Int := 23 - e'
    let m := if sh ≥ 0 then divEven (n * 2 ^ sh.toNat) d else divEven n (d * 2 ^ (-sh).toNat)
    let pat : Nat := if m < 2 ^ 23 then m else (e' + 126).toNat * 2 ^ 23 + m
    let pat := if pat ≥ 0x7F800000 then 0x7F7FFFFF else pat
    if x.num < 0 then pat + 2 ^ 31 else pat

/-- The little-endian number of a list of bytes. -/
def leNat : List Nat → Nat
  | [] => 0
  | b :: bs => b % 256 + 256 * leNat bs

/-- The `n` little-endian bytes of a number. -/
def leBytes : Nat → Nat → List Nat
  | 0, _ => []
  | n + 1, v => v % 256 :: leBytes n (v / 256)

/-- The `n` bytes of a number, most significant first. -/
def beBytes (n v : Nat) : List Nat := (leBytes n v).reverse

/-- The number of a list of bytes, most significant first. -/
def beNat (bs : List Nat) : Nat := leNat bs.reverse

/-- R10: `b` is newer than `a` among sequence numbers of `w` bits. -/
def newer (w a b : Nat) : Bool :=
  let d := (b % 2 ^ w + 2 ^ w - a % 2 ^ w) % 2 ^ w
  decide (1 ≤ d ∧ d ≤ 2 ^ (w - 1) - 1)

/-- One bit step of the reflected CRC-32C register. -/
def crcBit (c : Nat) : Nat := if c % 2 = 1 then Nat.xor (c / 2) 0x82F63B78 else c / 2

/-- One byte step of the reflected CRC-32C register. -/
def crcByte (c b : Nat) : Nat :=
  crcBit (crcBit (crcBit (crcBit (crcBit (crcBit (crcBit (crcBit (Nat.xor c (b % 256)))))))))

/-- CRC-32C of a list of bytes: polynomial 0x1EDC6F41, reflected, initial value and final complement all ones (R326). -/
def crc32c (bs : List Nat) : Nat := Nat.xor (bs.foldl crcByte 0xFFFFFFFF) 0xFFFFFFFF

end Sys2Proof.Machine
end

