-- ==== Sys2Proof/Machine/OdTypes.lean ====
section
/-! DEFINITION. The vocabulary of the object dictionary's tables (spec/16_object_dictionary.md, R534 to R536, R542):
entry types, access codes, change classes, defaults and accepted ranges. -/
namespace Sys2Proof.Machine

/-- Table 16.3, the data types. -/
inductive OdTy where
  | bool | u8 | u16 | u32 | u64 | i8 | i16 | i32 | f32 | str
  | octets (n : Nat)
  | domain (n : Nat)
  deriving DecidableEq, Repr

/-- Table 16.4, the access codes. -/
inductive OdAccess where
  | ro | rw | wo | rws | const
  deriving DecidableEq, Repr

/-- R542, the change classes; `none` for an entry that is not written. -/
inductive OdClass where
  | none | live | blocked | restart
  deriving DecidableEq, Repr

/-- The default column: one value, one value per subindex, one per instance, or fixed by the part or its image. -/
inductive OdDefault where
  | same (v : Nat)
  | each (vs : List Nat)
  | inst (vs : List Nat)
  | part
  deriving DecidableEq, Repr

/-- The range an entry's definition states. The limits of a real are the binary32 numbers nearest the printed ones. -/
inductive OdRange where
  | any
  | finite
  | positive
  | nats (ivs : List (Nat × Nat))
  | ints (lo hi : Int)
  | reals (lo hi : Nat)
  deriving DecidableEq, Repr

/-- One row of an object table, for subindices `lo` to `hi`. -/
structure OdEntry where
  lo    : Nat
  hi    : Nat
  ty    : OdTy
  acc   : OdAccess
  cls   : OdClass
  dflt  : OdDefault
  range : OdRange
  deriving DecidableEq, Repr

/-- An object: its base index, then `outer` instances `stride` apart, each of `inner` instances one apart. -/
structure OdObject where
  base    : Nat
  stride  : Nat
  outer   : Nat
  inner   : Nat
  entries : List OdEntry
  deriving DecidableEq, Repr

/-- What one bit (or value) of a clear entry clears: the object's base index, the clear entry's subindex, the value bit,
and the subindices of the counter and of its sticky bit (R8). -/
structure ClearRow where
  base   : Nat
  entry  : Nat
  mask   : Nat
  ctr    : Nat
  sticky : Nat
  deriving DecidableEq, Repr

end Sys2Proof.Machine
end

