-- ==== Sys2Proof/Machine/OdTable.lean ====
section
/-! DEFINITION. The object dictionary of the TK8192, object by object, as the tables of spec/ chapters 2 to 20 list it
(type, access code, change class, default and accepted range of every entry); the defaults are the reset values.
Choices of the model: assumption log 10. -/
namespace Sys2Proof.Machine
open OdTy OdAccess OdClass OdDefault OdRange

/-- Object 0x1000: spec/16_object_dictionary.md, Table 16.9 - Communication objects 0x1000–0x1C33. -/
def obj1000 : OdObject := ⟨0x1000, 1, 1, 1, [
  ⟨0x00, 0x00, .u32, .const, .none, .same 0, .any⟩ -- device type
  ]⟩

/-- Object 0x1001: spec/16_object_dictionary.md, Table 16.9 - Communication objects 0x1000–0x1C33. -/
def obj1001 : OdObject := ⟨0x1001, 1, 1, 1, [
  ⟨0x00, 0x00, .u8, .ro, .none, .same 0, .any⟩ -- error register
  ]⟩

/-- Object 0x1008: spec/16_object_dictionary.md, Table 16.9 - Communication objects 0x1000–0x1C33. -/
def obj1008 : OdObject := ⟨0x1008, 1, 1, 1, [
  ⟨0x00, 0x00, .str, .const, .none, .part, .any⟩ -- device name
  ]⟩

/-- Object 0x1009: spec/16_object_dictionary.md, Table 16.9 - Communication objects 0x1000–0x1C33. -/
def obj1009 : OdObject := ⟨0x1009, 1, 1, 1, [
  ⟨0x00, 0x00, .str, .const, .none, .part, .any⟩ -- hardware version
  ]⟩

/-- Object 0x100A: spec/16_object_dictionary.md, Table 16.9 - Communication objects 0x1000–0x1C33. -/
def obj100A : OdObject := ⟨0x100A, 1, 1, 1, [
  ⟨0x00, 0x00, .str, .const, .none, .part, .any⟩ -- software version
  ]⟩

/-- Object 0x1018: spec/16_object_dictionary.md, Table 16.9 - Communication objects 0x1000–0x1C33. -/
def obj1018 : OdObject := ⟨0x1018, 1, 1, 1, [
  ⟨0x01, 0x01, .u32, .const, .none, .same 3450, .any⟩, -- vendor ID
  ⟨0x02, 0x02, .u32, .const, .none, .part, .any⟩, -- product code
  ⟨0x03, 0x03, .u32, .const, .none, .part, .any⟩, -- revision number
  ⟨0x04, 0x04, .u32, .const, .none, .part, .any⟩ -- serial number
  ]⟩

/-- Object 0x10F1: spec/16_object_dictionary.md, Table 16.9 - Communication objects 0x1000–0x1C33. -/
def obj10F1 : OdObject := ⟨0x10F1, 1, 1, 1, [
  ⟨0x01, 0x01, .u32, .const, .none, .same 0, .any⟩, -- local error reaction
  ⟨0x02, 0x02, .u32, .rw, .live, .same 4, .nats [(1, 15)]⟩ -- sync error limit
  ]⟩

/-- Object 0x1600: spec/16_object_dictionary.md, Table 16.9 - Communication objects 0x1000–0x1C33. -/
def obj1600 : OdObject := ⟨0x1600, 1, 1, 1, [
  ⟨0x01, 0x40, .u32, .rw, .live, .each [0x30020120, 0x30020220, 0x30020320, 0x30020420, 0x0, 0x0, 0x0, 0x0, 0x0, 0x0, 0x0, 0x0, 0x0, 0x0, 0x0, 0x0, 0x0, 0x0, 0x0, 0x0, 0x0, 0x0, 0x0, 0x0, 0x0, 0x0, 0x0, 0x0, 0x0, 0x0, 0x0, 0x0, 0x0, 0x0, 0x0, 0x0, 0x0, 0x0, 0x0, 0x0, 0x0, 0x0, 0x0, 0x0, 0x0, 0x0, 0x0, 0x0, 0x0, 0x0, 0x0, 0x0, 0x0, 0x0, 0x0, 0x0, 0x0, 0x0, 0x0, 0x0, 0x0, 0x0, 0x0, 0x0], .any⟩ -- RxPDO mapping
  ]⟩

/-- Object 0x1601: spec/16_object_dictionary.md, Table 16.9 - Communication objects 0x1000–0x1C33. -/
def obj1601 : OdObject := ⟨0x1601, 1, 1, 1, [
  ⟨0x01, 0x40, .u32, .rw, .live, .each [0x38020120, 0x38020220, 0x38020320, 0x38020420, 0x0, 0x0, 0x0, 0x0, 0x0, 0x0, 0x0, 0x0, 0x0, 0x0, 0x0, 0x0, 0x0, 0x0, 0x0, 0x0, 0x0, 0x0, 0x0, 0x0, 0x0, 0x0, 0x0, 0x0, 0x0, 0x0, 0x0, 0x0, 0x0, 0x0, 0x0, 0x0, 0x0, 0x0, 0x0, 0x0, 0x0, 0x0, 0x0, 0x0, 0x0, 0x0, 0x0, 0x0, 0x0, 0x0, 0x0, 0x0, 0x0, 0x0, 0x0, 0x0, 0x0, 0x0, 0x0, 0x0, 0x0, 0x0, 0x0, 0x0], .any⟩ -- RxPDO mapping
  ]⟩

/-- Object 0x1602: spec/16_object_dictionary.md, Table 16.9 - Communication objects 0x1000–0x1C33. -/
def obj1602 : OdObject := ⟨0x1602, 1, 1, 1, [
  ⟨0x01, 0x40, .u32, .rw, .live, .each [0x20400138, 0x0, 0x0, 0x0, 0x0, 0x0, 0x0, 0x0, 0x0, 0x0, 0x0, 0x0, 0x0, 0x0, 0x0, 0x0, 0x0, 0x0, 0x0, 0x0, 0x0, 0x0, 0x0, 0x0, 0x0, 0x0, 0x0, 0x0, 0x0, 0x0, 0x0, 0x0, 0x0, 0x0, 0x0, 0x0, 0x0, 0x0, 0x0, 0x0, 0x0, 0x0, 0x0, 0x0, 0x0, 0x0, 0x0, 0x0, 0x0, 0x0, 0x0, 0x0, 0x0, 0x0, 0x0, 0x0, 0x0, 0x0, 0x0, 0x0, 0x0, 0x0, 0x0, 0x0], .any⟩ -- RxPDO mapping
  ]⟩

/-- Object 0x1603: spec/16_object_dictionary.md, Table 16.9 - Communication objects 0x1000–0x1C33. -/
def obj1603 : OdObject := ⟨0x1603, 1, 1, 1, [
  ⟨0x01, 0x40, .u32, .rw, .live, .each [0x0, 0x0, 0x0, 0x0, 0x0, 0x0, 0x0, 0x0, 0x0, 0x0, 0x0, 0x0, 0x0, 0x0, 0x0, 0x0, 0x0, 0x0, 0x0, 0x0, 0x0, 0x0, 0x0, 0x0, 0x0, 0x0, 0x0, 0x0, 0x0, 0x0, 0x0, 0x0, 0x0, 0x0, 0x0, 0x0, 0x0, 0x0, 0x0, 0x0, 0x0, 0x0, 0x0, 0x0, 0x0, 0x0, 0x0, 0x0, 0x0, 0x0, 0x0, 0x0, 0x0, 0x0, 0x0, 0x0, 0x0, 0x0, 0x0, 0x0, 0x0, 0x0, 0x0, 0x0], .any⟩ -- RxPDO mapping
  ]⟩

/-- Object 0x1A00: spec/16_object_dictionary.md, Table 16.9 - Communication objects 0x1000–0x1C33. -/
def obj1A00 : OdObject := ⟨0x1A00, 1, 1, 1, [
  ⟨0x01, 0x40, .u32, .rw, .live, .each [0x20000108, 0x20200308, 0x20300110, 0x20100140, 0x0, 0x0, 0x0, 0x0, 0x0, 0x0, 0x0, 0x0, 0x0, 0x0, 0x0, 0x0, 0x0, 0x0, 0x0, 0x0, 0x0, 0x0, 0x0, 0x0, 0x0, 0x0, 0x0, 0x0, 0x0, 0x0, 0x0, 0x0, 0x0, 0x0, 0x0, 0x0, 0x0, 0x0, 0x0, 0x0, 0x0, 0x0, 0x0, 0x0, 0x0, 0x0, 0x0, 0x0, 0x0, 0x0, 0x0, 0x0, 0x0, 0x0, 0x0, 0x0, 0x0, 0x0, 0x0, 0x0, 0x0, 0x0, 0x0, 0x0], .any⟩ -- TxPDO mapping
  ]⟩

/-- Object 0x1A01: spec/16_object_dictionary.md, Table 16.9 - Communication objects 0x1000–0x1C33. -/
def obj1A01 : OdObject := ⟨0x1A01, 1, 1, 1, [
  ⟨0x01, 0x40, .u32, .rw, .live, .each [0x30000108, 0x30000408, 0x30000210, 0x30000520, 0x30000620, 0x30000920, 0x30000A20, 0x510C0108, 0x0, 0x0, 0x0, 0x0, 0x0, 0x0, 0x0, 0x0, 0x0, 0x0, 0x0, 0x0, 0x0, 0x0, 0x0, 0x0, 0x0, 0x0, 0x0, 0x0, 0x0, 0x0, 0x0, 0x0, 0x0, 0x0, 0x0, 0x0, 0x0, 0x0, 0x0, 0x0, 0x0, 0x0, 0x0, 0x0, 0x0, 0x0, 0x0, 0x0, 0x0, 0x0, 0x0, 0x0, 0x0, 0x0, 0x0, 0x0, 0x0, 0x0, 0x0, 0x0, 0x0, 0x0, 0x0, 0x0], .any⟩ -- TxPDO mapping
  ]⟩

/-- Object 0x1A02: spec/16_object_dictionary.md, Table 16.9 - Communication objects 0x1000–0x1C33. -/
def obj1A02 : OdObject := ⟨0x1A02, 1, 1, 1, [
  ⟨0x01, 0x40, .u32, .rw, .live, .each [0x38000108, 0x38000408, 0x38000210, 0x38000520, 0x38000620, 0x38000920, 0x38000A20, 0x510D0108, 0x0, 0x0, 0x0, 0x0, 0x0, 0x0, 0x0, 0x0, 0x0, 0x0, 0x0, 0x0, 0x0, 0x0, 0x0, 0x0, 0x0, 0x0, 0x0, 0x0, 0x0, 0x0, 0x0, 0x0, 0x0, 0x0, 0x0, 0x0, 0x0, 0x0, 0x0, 0x0, 0x0, 0x0, 0x0, 0x0, 0x0, 0x0, 0x0, 0x0, 0x0, 0x0, 0x0, 0x0, 0x0, 0x0, 0x0, 0x0, 0x0, 0x0, 0x0, 0x0, 0x0, 0x0, 0x0, 0x0], .any⟩ -- TxPDO mapping
  ]⟩

/-- Object 0x1A03: spec/16_object_dictionary.md, Table 16.9 - Communication objects 0x1000–0x1C33. -/
def obj1A03 : OdObject := ⟨0x1A03, 1, 1, 1, [
  ⟨0x01, 0x40, .u32, .rw, .live, .each [0x20410158, 0x0, 0x0, 0x0, 0x0, 0x0, 0x0, 0x0, 0x0, 0x0, 0x0, 0x0, 0x0, 0x0, 0x0, 0x0, 0x0, 0x0, 0x0, 0x0, 0x0, 0x0, 0x0, 0x0, 0x0, 0x0, 0x0, 0x0, 0x0, 0x0, 0x0, 0x0, 0x0, 0x0, 0x0, 0x0, 0x0, 0x0, 0x0, 0x0, 0x0, 0x0, 0x0, 0x0, 0x0, 0x0, 0x0, 0x0, 0x0, 0x0, 0x0, 0x0, 0x0, 0x0, 0x0, 0x0, 0x0, 0x0, 0x0, 0x0, 0x0, 0x0, 0x0, 0x0], .any⟩ -- TxPDO mapping
  ]⟩

/-- Object 0x1C00: spec/16_object_dictionary.md, Table 16.9 - Communication objects 0x1000–0x1C33. -/
def obj1C00 : OdObject := ⟨0x1C00, 1, 1, 1, [
  ⟨0x01, 0x04, .u8, .const, .none, .each [1, 2, 3, 4], .any⟩ -- sync manager types
  ]⟩

/-- Object 0x1C12: spec/16_object_dictionary.md, Table 16.9 - Communication objects 0x1000–0x1C33. -/
def obj1C12 : OdObject := ⟨0x1C12, 1, 1, 1, [
  ⟨0x01, 0x04, .u16, .rw, .live, .each [0x1600, 0x1601, 0, 0], .any⟩ -- RxPDO assign
  ]⟩

/-- Object 0x1C13: spec/16_object_dictionary.md, Table 16.9 - Communication objects 0x1000–0x1C33. -/
def obj1C13 : OdObject := ⟨0x1C13, 1, 1, 1, [
  ⟨0x01, 0x04, .u16, .rw, .live, .each [0x1A00, 0x1A01, 0x1A02, 0], .any⟩ -- TxPDO assign
  ]⟩

/-- Object 0x1C32: spec/16_object_dictionary.md, Table 16.9 - Communication objects 0x1000–0x1C33. -/
def obj1C32 : OdObject := ⟨0x1C32, 1, 1, 1, [
  ⟨0x01, 0x01, .u16, .rw, .live, .same 2, .nats [(0, 0), (2, 2)]⟩, -- sync mode
  ⟨0x02, 0x02, .u32, .ro, .none, .same 0, .any⟩, -- cycle time
  ⟨0x03, 0x03, .u32, .ro, .none, .same 0x1388, .any⟩, -- shift time
  ⟨0x04, 0x04, .u16, .const, .none, .same 5, .any⟩, -- supported modes
  ⟨0x05, 0x05, .u32, .const, .none, .same 0xC350, .any⟩, -- minimum cycle time
  ⟨0x0B, 0x0B, .u16, .ro, .none, .same 0, .any⟩, -- SM event missed
  ⟨0x20, 0x20, .u16, .ro, .none, .same 0, .any⟩, -- sync error
  ⟨0x21, 0x21, .bool, .ro, .none, .same 0, .any⟩, -- sync-error sticky
  ⟨0x22, 0x22, .bool, .ro, .none, .same 0, .any⟩, -- SM-event sticky
  ⟨0x23, 0x23, .u8, .wo, .live, .same 0, .nats [(0, 3)]⟩ -- clear
  ]⟩

/-- Object 0x1C33: spec/16_object_dictionary.md, Table 16.9 - Communication objects 0x1000–0x1C33. -/
def obj1C33 : OdObject := ⟨0x1C33, 1, 1, 1, [
  ⟨0x01, 0x01, .u16, .rw, .live, .same 2, .nats [(0, 0), (2, 2)]⟩, -- sync mode
  ⟨0x02, 0x02, .u32, .ro, .none, .same 0, .any⟩, -- cycle time
  ⟨0x03, 0x03, .u32, .ro, .none, .same 0x1388, .any⟩, -- shift time
  ⟨0x04, 0x04, .u16, .const, .none, .same 5, .any⟩, -- supported modes
  ⟨0x05, 0x05, .u32, .const, .none, .same 0xC350, .any⟩, -- minimum cycle time
  ⟨0x0B, 0x0B, .u16, .ro, .none, .same 0, .any⟩, -- SM event missed
  ⟨0x20, 0x20, .u16, .ro, .none, .same 0, .any⟩, -- sync error
  ⟨0x21, 0x21, .bool, .ro, .none, .same 0, .any⟩, -- sync-error sticky
  ⟨0x22, 0x22, .bool, .ro, .none, .same 0, .any⟩, -- SM-event sticky
  ⟨0x23, 0x23, .u8, .wo, .live, .same 0, .nats [(0, 3)]⟩ -- clear
  ]⟩

/-- Object 0x2000: spec/16_object_dictionary.md, Table 16.10 - Device state 0x2000 and device command 0x2001. -/
def obj2000 : OdObject := ⟨0x2000, 1, 1, 1, [
  ⟨0x01, 0x01, .u8, .ro, .none, .same 0, .any⟩, -- device state
  ⟨0x02, 0x02, .u64, .ro, .none, .same 0, .any⟩, -- state since
  ⟨0x03, 0x03, .bool, .ro, .none, .same 0, .any⟩, -- plant half reachable
  ⟨0x04, 0x04, .u32, .ro, .none, .same 0, .any⟩, -- station half uptime
  ⟨0x05, 0x05, .u32, .ro, .none, .same 0, .any⟩ -- UTC time
  ]⟩

/-- Object 0x2001: spec/16_object_dictionary.md, Table 16.10 - Device state 0x2000 and device command 0x2001. -/
def obj2001 : OdObject := ⟨0x2001, 1, 1, 1, [
  ⟨0x01, 0x01, .u8, .wo, .live, .same 0, .nats [(1, 5)]⟩, -- device command
  ⟨0x02, 0x02, .u8, .ro, .none, .same 0, .any⟩ -- command result
  ]⟩

/-- Object 0x2002: spec/16_object_dictionary.md, Table 16.12 - Access object 0x2002. -/
def obj2002 : OdObject := ⟨0x2002, 1, 1, 1, [
  ⟨0x01, 0x01, .u8, .ro, .none, .same 0, .any⟩, -- level in force
  ⟨0x02, 0x02, (.octets 65), .wo, .live, .same 0, .any⟩, -- login
  ⟨0x03, 0x03, .u8, .wo, .live, .same 0, .nats [(1, 1)]⟩, -- logout
  ⟨0x04, 0x04, .u16, .rw, .live, .same 900, .nats [(60, 7200)]⟩, -- idle time
  ⟨0x05, 0x05, .u32, .ro, .none, .same 0, .any⟩, -- failed logins
  ⟨0x06, 0x06, .bool, .ro, .none, .same 0, .any⟩, -- failed-login sticky
  ⟨0x07, 0x07, .u8, .wo, .live, .same 0, .nats [(1, 1)]⟩, -- clear
  ⟨0x08, 0x08, .u32, .ro, .none, .same 0, .any⟩, -- last abort code
  ⟨0x09, 0x09, .u32, .ro, .none, .same 0, .any⟩, -- last abort address
  ⟨0x0A, 0x0A, (.octets 65), .wo, .live, .same 0, .any⟩, -- set credential
  ⟨0x0B, 0x0B, .u16, .ro, .none, .same 0, .any⟩, -- lockout remaining
  ⟨0x40, 0x40, .u8, .ro, .none, .same 0, .any⟩ -- credentials set
  ]⟩

/-- Object 0x2010: spec/02_control_tick.md, Table 2.6 - Tick object 0x2010. -/
def obj2010 : OdObject := ⟨0x2010, 1, 1, 1, [
  ⟨0x01, 0x01, .u64, .ro, .none, .same 0, .any⟩, -- tick number
  ⟨0x02, 0x02, .u8, .ro, .none, .same 0, .any⟩, -- tick period in force
  ⟨0x03, 0x03, .u8, .rw, .blocked, .same 0, .nats [(0, 3)]⟩, -- tick period requested
  ⟨0x04, 0x04, .u64, .ro, .none, .same 0, .any⟩, -- change tick
  ⟨0x05, 0x05, .u8, .rw, .blocked, .same 1, .nats [(0, 3)]⟩, -- SYNC_IN mode
  ⟨0x06, 0x06, .i32, .rw, .live, .same 0, .ints (-1000000) 1000000⟩, -- SYNC_IN offset
  ⟨0x07, 0x07, .u8, .ro, .none, .same 0, .any⟩, -- tracker state
  ⟨0x08, 0x08, .i32, .ro, .none, .same 0, .any⟩, -- phase error
  ⟨0x09, 0x09, .bool, .rw, .live, .same 1, .nats [(0, 1)]⟩, -- SYNC_OUT enable
  ⟨0x0A, 0x0A, .u32, .ro, .none, .same 0, .any⟩, -- reference holds
  ⟨0x0B, 0x0B, .bool, .ro, .none, .same 0, .any⟩, -- reference-hold sticky
  ⟨0x0C, 0x0C, .u32, .ro, .none, .same 0, .any⟩, -- SYNC_IN rejects
  ⟨0x0D, 0x0D, .bool, .ro, .none, .same 0, .any⟩, -- SYNC_IN-reject sticky
  ⟨0x0E, 0x0E, .u16, .ro, .none, .same 0, .any⟩, -- marker offset
  ⟨0x0F, 0x0F, .u8, .wo, .live, .same 0, .nats [(1, 2)]⟩ -- clear
  ]⟩

/-- Object 0x2020: spec/13_twin_and_lease.md, Table 13.15 - Role object 0x2020. -/
def obj2020 : OdObject := ⟨0x2020, 1, 1, 1, [
  ⟨0x01, 0x01, .u8, .ro, .none, .same 0, .any⟩, -- unit identity
  ⟨0x02, 0x02, .u8, .ro, .none, .same 0, .any⟩, -- safety profile
  ⟨0x03, 0x03, .u8, .ro, .none, .same 4, .any⟩, -- unit state
  ⟨0x04, 0x04, .bool, .ro, .none, .same 0, .any⟩, -- lease held
  ⟨0x05, 0x05, .u8, .ro, .none, .same 0, .any⟩, -- epoch
  ⟨0x06, 0x06, .u8, .ro, .none, .same 0, .any⟩, -- role qualifier
  ⟨0x07, 0x07, .u8, .ro, .none, .same 0, .any⟩, -- dispute conditions
  ⟨0x08, 0x08, .u64, .ro, .none, .same 0, .any⟩, -- state since
  ⟨0x09, 0x09, .u8, .ro, .none, .same 255, .any⟩ -- peer unit state
  ]⟩

/-- Object 0x2030: spec/16_object_dictionary.md, Table 16.13 - Process data status 0x2030. -/
def obj2030 : OdObject := ⟨0x2030, 1, 1, 1, [
  ⟨0x01, 0x01, .u16, .ro, .none, .same 1, .any⟩, -- status
  ⟨0x02, 0x02, .u64, .ro, .none, .same 0, .any⟩, -- image tick
  ⟨0x03, 0x03, .u32, .ro, .none, .same 0, .any⟩, -- frames without update
  ⟨0x04, 0x04, .bool, .ro, .none, .same 0, .any⟩, -- no-update sticky
  ⟨0x05, 0x05, .u32, .ro, .none, .same 0, .any⟩, -- frames not applied
  ⟨0x06, 0x06, .bool, .ro, .none, .same 0, .any⟩, -- not-applied sticky
  ⟨0x07, 0x07, .u32, .ro, .none, .same 0, .any⟩, -- EMCY discarded
  ⟨0x08, 0x08, .bool, .ro, .none, .same 0, .any⟩, -- EMCY-discard sticky
  ⟨0x09, 0x09, .u8, .wo, .live, .same 0, .nats [(0, 7)]⟩ -- clear
  ]⟩

/-- Object 0x2040: spec/16_object_dictionary.md, Table 16.14 - FSoE containers 0x2040 and 0x2041. -/
def obj2040 : OdObject := ⟨0x2040, 1, 1, 1, [
  ⟨0x01, 0x01, (.octets 7), .rw, .live, .same 0, .any⟩ -- FSoE frame from master
  ]⟩

/-- Object 0x2041: spec/16_object_dictionary.md, Table 16.14 - FSoE containers 0x2040 and 0x2041. -/
def obj2041 : OdObject := ⟨0x2041, 1, 1, 1, [
  ⟨0x01, 0x01, (.octets 11), .ro, .none, .same 0, .any⟩ -- FSoE frame to master
  ]⟩

/-- Object 0x3000: spec/05_pole_control.md, Table 5.5 - Pole status object 0x3000 + p x 0x800. -/
def obj3000 : OdObject := ⟨0x3000, 2048, 2, 1, [
  ⟨0x01, 0x01, .u8, .ro, .none, .same 0, .any⟩, -- pole state
  ⟨0x02, 0x02, .u16, .ro, .none, .same 0, .any⟩, -- substate
  ⟨0x03, 0x03, .u64, .ro, .none, .same 0, .any⟩, -- state since
  ⟨0x04, 0x04, .u8, .ro, .none, .same 0, .any⟩, -- trip cause
  ⟨0x05, 0x05, .f32, .ro, .none, .same 0, .any⟩, -- active power
  ⟨0x06, 0x06, .f32, .ro, .none, .same 0, .any⟩, -- reactive power
  ⟨0x07, 0x07, .f32, .ro, .none, .same 0, .any⟩, -- AC voltage, positive sequence
  ⟨0x08, 0x08, .f32, .ro, .none, .same 0, .any⟩, -- AC voltage, negative sequence
  ⟨0x09, 0x09, .f32, .ro, .none, .same 0, .any⟩, -- DC voltage
  ⟨0x0A, 0x0A, .f32, .ro, .none, .same 0, .any⟩, -- DC current
  ⟨0x0B, 0x0B, .f32, .ro, .none, .same 0, .any⟩, -- frequency
  ⟨0x0C, 0x0C, .f32, .ro, .none, .same 0, .any⟩, -- ROCOF
  ⟨0x0D, 0x0D, .u32, .ro, .none, .same 0, .any⟩, -- fast missed runs
  ⟨0x0E, 0x0E, .bool, .ro, .none, .same 0, .any⟩, -- fast-miss sticky
  ⟨0x0F, 0x0F, .u32, .ro, .none, .same 0, .any⟩, -- slow missed runs
  ⟨0x10, 0x10, .bool, .ro, .none, .same 0, .any⟩, -- slow-miss sticky
  ⟨0x11, 0x11, .u32, .ro, .none, .same 0, .any⟩, -- setpoint losses
  ⟨0x12, 0x12, .bool, .ro, .none, .same 0, .any⟩, -- setpoint-loss sticky
  ⟨0x13, 0x13, .u8, .wo, .live, .same 0, .nats [(0, 7)]⟩ -- clear
  ]⟩

/-- Object 0x3001: spec/05_pole_control.md, Table 5.6 - Command 0x3001, orders 0x3002 and limits 0x3003 + p x 0x800. -/
def obj3001 : OdObject := ⟨0x3001, 2048, 2, 1, [
  ⟨0x01, 0x01, .u8, .wo, .live, .same 0, .nats [(1, 8)]⟩, -- command
  ⟨0x02, 0x02, .f32, .rw, .live, .same 0, .finite⟩, -- run-back target
  ⟨0x03, 0x03, .u8, .ro, .none, .same 0, .any⟩, -- command result
  ⟨0x04, 0x04, .u64, .ro, .none, .same 0, .any⟩, -- deblock tick
  ⟨0x05, 0x05, .u16, .ro, .none, .same 0, .any⟩ -- refusal reason
  ]⟩

/-- Object 0x3002: spec/05_pole_control.md, Table 5.6 - Command 0x3001, orders 0x3002 and limits 0x3003 + p x 0x800. -/
def obj3002 : OdObject := ⟨0x3002, 2048, 2, 1, [
  ⟨0x01, 0x01, .f32, .rw, .live, .same 0, .finite⟩, -- active power order
  ⟨0x02, 0x02, .f32, .rw, .live, .same 0, .finite⟩, -- reactive power order
  ⟨0x03, 0x03, .f32, .rw, .live, .same 1133903872, .finite⟩, -- AC voltage order
  ⟨0x04, 0x04, .f32, .rw, .live, .same 1140457472, .finite⟩, -- DC voltage order
  ⟨0x05, 0x05, .f32, .rw, .live, .same 1112014848, .finite⟩, -- frequency order
  ⟨0x06, 0x06, .f32, .rw, .live, .same 0, .reals 0xBDCCCCCD 0x3DCCCCCD⟩ -- energy offset
  ]⟩

/-- Object 0x3003: spec/05_pole_control.md, Table 5.6 - Command 0x3001, orders 0x3002 and limits 0x3003 + p x 0x800. -/
def obj3003 : OdObject := ⟨0x3003, 2048, 2, 1, [
  ⟨0x01, 0x05, .f32, .rw, .live, .each [1120403456, 1128792064, 1092616192, 1112014848, 1157234688], .positive⟩, -- ramp rates
  ⟨0x06, 0x06, .f32, .rw, .live, .same 1148846080, .finite⟩, -- P max
  ⟨0x07, 0x07, .f32, .rw, .live, .same 3296329728, .finite⟩, -- P min
  ⟨0x08, 0x08, .f32, .rw, .live, .same 1140457472, .finite⟩, -- Q max
  ⟨0x09, 0x09, .f32, .rw, .live, .same 3287941120, .finite⟩, -- Q min
  ⟨0x0A, 0x0A, .f32, .rw, .live, .same 1066192077, .reals 0x3DCCCCCD 0x3FC00000⟩, -- current limit
  ⟨0x0B, 0x0B, .u8, .rw, .live, .same 0, .nats [(0, 1)]⟩, -- current priority
  ⟨0x0C, 0x0C, .u16, .rw, .live, .same 20, .nats [(1, 1000)]⟩, -- setpoint timeout
  ⟨0x0D, 0x0D, .u8, .rw, .live, .same 1, .nats [(0, 2)]⟩, -- setpoint-loss action
  ⟨0x0E, 0x0E, .f32, .rw, .live, .same 0, .finite⟩, -- fallback P
  ⟨0x0F, 0x0F, .f32, .rw, .live, .same 0, .finite⟩, -- fallback Q
  ⟨0x10, 0x10, .f32, .rw, .live, .same 1028443341, .reals 0x0 0x3E4CCCCD⟩ -- balancing limit
  ]⟩

/-- Object 0x3004: spec/05_pole_control.md, Table 5.7 - Modes and ratings 0x3004, loop gains 0x3005 + p x 0x800. -/
def obj3004 : OdObject := ⟨0x3004, 2048, 2, 1, [
  ⟨0x01, 0x01, .u8, .rw, .live, .same 0, .nats [(0, 1)]⟩, -- DC mode
  ⟨0x02, 0x02, .u8, .rw, .live, .same 0, .nats [(0, 1)]⟩, -- AC mode
  ⟨0x03, 0x03, .u8, .rw, .live, .same 0, .nats [(0, 1)]⟩, -- grid mode
  ⟨0x04, 0x04, .f32, .rw, .blocked, .same 1148846080, .finite⟩, -- rated power
  ⟨0x05, 0x05, .f32, .rw, .blocked, .same 1133903872, .finite⟩, -- rated AC voltage
  ⟨0x06, 0x06, .f32, .rw, .blocked, .same 1140457472, .finite⟩, -- rated DC voltage
  ⟨0x07, 0x07, .u8, .rw, .blocked, .same 50, .nats [(50, 50), (60, 60)]⟩, -- nominal frequency
  ⟨0x08, 0x08, .u32, .rw, .blocked, .same 0xFFFFFFFF, .any⟩, -- AC voltage channels
  ⟨0x09, 0x09, .u8, .rw, .blocked, .same 255, .nats [(0, 31), (255, 255)]⟩, -- DC voltage channel
  ⟨0x0A, 0x0A, .u8, .rw, .blocked, .same 255, .nats [(0, 31), (255, 255)]⟩, -- DC current channel
  ⟨0x0B, 0x0B, .u8, .rw, .blocked, .same 255, .nats [(0, 31), (255, 255)]⟩, -- neutral current channel
  ⟨0x0C, 0x0C, .u16, .rw, .blocked, .same 100, .nats [(100, 1000)]⟩, -- fast period
  ⟨0x0D, 0x0D, .u16, .rw, .blocked, .same 1000, .nats [(100, 10000)]⟩, -- slow period
  ⟨0x0E, 0x0E, .bool, .rw, .live, .same 1, .nats [(0, 1)]⟩, -- learning enable
  ⟨0x0F, 0x0F, .u8, .rw, .blocked, .same 0, .nats [(0, 1)]⟩ -- balancing mode
  ]⟩

/-- Object 0x3005: spec/05_pole_control.md, Table 5.7 - Modes and ratings 0x3004, loop gains 0x3005 + p x 0x800. -/
def obj3005 : OdObject := ⟨0x3005, 2048, 2, 1, [
  ⟨0x01, 0x01, .f32, .rw, .live, .same 1045220557, .finite⟩, -- Kp_P
  ⟨0x02, 0x02, .f32, .rw, .live, .same 1101004800, .finite⟩, -- Ki_P
  ⟨0x03, 0x03, .f32, .rw, .live, .same 1073741824, .finite⟩, -- Kp_V
  ⟨0x04, 0x04, .f32, .rw, .live, .same 1112014848, .finite⟩, -- Ki_V
  ⟨0x05, 0x05, .f32, .rw, .live, .same 1045220557, .finite⟩, -- Kp_Q
  ⟨0x06, 0x06, .f32, .rw, .live, .same 1101004800, .finite⟩, -- Ki_Q
  ⟨0x07, 0x07, .f32, .rw, .live, .same 1065353216, .finite⟩, -- Kp_U
  ⟨0x08, 0x08, .f32, .rw, .live, .same 1106247680, .finite⟩, -- Ki_U
  ⟨0x09, 0x09, .f32, .rw, .live, .same 0, .finite⟩, -- voltage droop
  ⟨0x40, 0x40, .f32, .rw, .live, .same 1036831949, .reals 0x3C23D70A 0x3F800000⟩, -- AC voltage floor
  ⟨0x41, 0x41, .f32, .rw, .live, .same 1028443341, .reals 0x3C23D70A 0x3F800000⟩, -- DC share floor
  ⟨0x42, 0x42, .f32, .rw, .live, .same 1069547520, .finite⟩ -- integrator limit
  ]⟩

/-- Object 0x3006: spec/05_pole_control.md, Table 5.8 - Tracker 0x3006, virtual synchronous machine 0x3007 + p x 0x800. -/
def obj3006 : OdObject := ⟨0x3006, 2048, 2, 1, [
  ⟨0x01, 0x01, .u8, .ro, .none, .same 0, .any⟩, -- tracker state
  ⟨0x02, 0x02, .u32, .ro, .none, .same 0, .any⟩, -- angle
  ⟨0x03, 0x03, .f32, .rw, .live, .same 1101004800, .reals 0x40A00000 0x42C80000⟩, -- bandwidth
  ⟨0x04, 0x04, .f32, .rw, .blocked, .same 1084227584, .reals 0x3F800000 0x41200000⟩, -- frequency range
  ⟨0x05, 0x05, .u16, .rw, .live, .same 500, .nats [(20, 2000)]⟩, -- freeze limit
  ⟨0x06, 0x06, .u16, .rw, .live, .same 20, .nats [(5, 500)]⟩, -- angle-loss delay
  ⟨0x40, 0x40, .f32, .rw, .live, .same 1112014848, .reals 0x41200000 0x43480000⟩, -- sequence filter bandwidth
  ⟨0x41, 0x41, .f32, .rw, .live, .same 1017370378, .reals 0x3BA3D70A 0x3DCCCCCD⟩ -- lock ratio
  ]⟩

/-- Object 0x3007: spec/05_pole_control.md, Table 5.8 - Tracker 0x3006, virtual synchronous machine 0x3007 + p x 0x800. -/
def obj3007 : OdObject := ⟨0x3007, 2048, 2, 1, [
  ⟨0x01, 0x01, .f32, .rw, .live, .same 1073741824, .reals 0x3DCCCCCD 0x41200000⟩, -- inertia constant
  ⟨0x02, 0x02, .f32, .rw, .live, .same 1101004800, .reals 0x0 0x42C80000⟩, -- damping
  ⟨0x03, 0x03, .f32, .rw, .live, .same 1041865114, .reals 0x3CA3D70A 0x3F000000⟩, -- virtual reactance
  ⟨0x04, 0x04, .f32, .rw, .live, .same 1017370378, .reals 0x0 0x3E4CCCCD⟩, -- virtual resistance
  ⟨0x05, 0x05, .f32, .rw, .live, .same 1028443341, .reals 0x3C23D70A 0x3E4CCCCD⟩, -- frequency droop
  ⟨0x06, 0x06, .f32, .rw, .live, .same 1028443341, .reals 0x0 0x3E4CCCCD⟩, -- reactive droop
  ⟨0x07, 0x07, .f32, .ro, .none, .same 0, .any⟩, -- machine frequency
  ⟨0x08, 0x08, .f32, .ro, .none, .same 0, .any⟩, -- internal voltage
  ⟨0x09, 0x09, .f32, .ro, .none, .same 0, .any⟩ -- load angle
  ]⟩

/-- Object 0x3008: spec/06_fault_ride_through.md, Table 6.4 - Ride-through profile object 0x3008 + p x 0x800. -/
def obj3008 : OdObject := ⟨0x3008, 2048, 2, 1, [
  ⟨0x01, 0x01, .u8, .rw, .blocked, .same 8, .nats [(2, 16)]⟩, -- points in use
  ⟨0x10, 0x1F, .u16, .rw, .blocked, .each [0, 150, 300, 500, 750, 1000, 1500, 3000, 65535, 65535, 65535, 65535, 65535, 65535, 65535, 65535], .any⟩, -- point time
  ⟨0x20, 0x2F, .f32, .rw, .blocked, .each [0, 1041865114, 1050253722, 1055286886, 1058642330, 1060320051, 1061997773, 1062836634, 1062836634, 1062836634, 1062836634, 1062836634, 1062836634, 1062836634, 1062836634, 1062836634], .finite⟩, -- low limit
  ⟨0x30, 0x3F, .f32, .rw, .blocked, .each [1067869798, 1067869798, 1067450368, 1067030938, 1067030938, 1066611507, 1066611507, 1066192077, 1066192077, 1066192077, 1066192077, 1066192077, 1066192077, 1066192077, 1066192077, 1066192077], .finite⟩ -- high limit
  ]⟩

/-- Object 0x4000: spec/07_rank_engine.md, Table 7.7 - Arm object 0x4000 + a x 0x100. -/
def obj4000 : OdObject := ⟨0x4000, 256, 12, 1, [
  ⟨0x01, 0x01, .u8, .ro, .none, .same 0, .any⟩, -- arm state
  ⟨0x02, 0x02, .u16, .rw, .blocked, .same 0, .nats [(0, 1024)]⟩, -- cell count
  ⟨0x03, 0x03, (.domain 2048), .rw, .blocked, .same (2 ^ 16384 - 1), .any⟩, -- cell map
  ⟨0x04, 0x04, .u32, .ro, .none, .same 0xF6465BCC, .any⟩, -- cell-map CRC
  ⟨0x05, 0x05, .u8, .ro, .none, .same 0, .any⟩, -- arm fault cause
  ⟨0x06, 0x06, .u64, .ro, .none, .same 0, .any⟩ -- state since
  ]⟩

/-- Object 0x4001: spec/02_control_tick.md, Table 2.4 - Arm timing object 0x4001 + a x 0x100. -/
def obj4001 : OdObject := ⟨0x4001, 256, 12, 1, [
  ⟨0x01, 0x01, .u32, .ro, .none, .same 0, .any⟩, -- slip count
  ⟨0x02, 0x02, .bool, .ro, .none, .same 0, .any⟩, -- slip sticky
  ⟨0x03, 0x03, .u8, .ro, .none, .same 0, .any⟩, -- consecutive slips
  ⟨0x04, 0x04, .u64, .ro, .none, .same 0, .any⟩, -- last slip tick
  ⟨0x05, 0x05, .u8, .ro, .none, .same 0, .any⟩, -- last slip stage
  ⟨0x06, 0x06, .u8, .wo, .live, .same 0, .nats [(1, 1)]⟩ -- clear
  ]⟩

/-- Object 0x4002: spec/07_rank_engine.md, Table 7.8 - Exclusion-map object 0x4002 + a x 0x100. -/
def obj4002 : OdObject := ⟨0x4002, 256, 12, 1, [
  ⟨0x01, 0x01, (.domain 128), .rw, .live, .same 0, .any⟩, -- exclusion map
  ⟨0x02, 0x02, .u32, .ro, .none, .same 0x82764DB, .any⟩, -- map CRC
  ⟨0x03, 0x03, .u16, .ro, .none, .same 0, .any⟩, -- excluded cells
  ⟨0x04, 0x04, .u64, .ro, .none, .same 0, .any⟩ -- effective tick
  ]⟩

/-- Object 0x4003: spec/08_firing_and_forcing.md, Table 8.6 - Force object 0x4003 + a x 0x100. -/
def obj4003 : OdObject := ⟨0x4003, 256, 12, 1, [
  ⟨0x01, 0x01, .u8, .rw, .live, .same 0, .nats [(0, 2)]⟩, -- scope
  ⟨0x02, 0x02, .u8, .rw, .live, .same 0, .nats [(0, 3)]⟩, -- pattern
  ⟨0x03, 0x03, .u32, .rw, .live, .same 0, .any⟩, -- lane mask
  ⟨0x04, 0x04, .i16, .rw, .live, .same 0, .any⟩, -- forced level
  ⟨0x05, 0x05, .u8, .rw, .live, .same 0, .nats [(0, 255)]⟩, -- forced offset
  ⟨0x06, 0x06, .u8, .ro, .none, .same 0, .any⟩, -- force state
  ⟨0x07, 0x07, .u64, .ro, .none, .same 0, .any⟩, -- effective tick
  ⟨0x08, 0x08, .u16, .ro, .none, .same 0, .any⟩, -- waiting cells
  ⟨0x09, 0x09, .u16, .ro, .none, .same 0, .any⟩ -- held cells
  ]⟩

/-- Object 0x4004: spec/07_rank_engine.md, Table 7.9 - Arm statistics object 0x4004 + a x 0x100. -/
def obj4004 : OdObject := ⟨0x4004, 256, 12, 1, [
  ⟨0x01, 0x01, .u16, .ro, .none, .same 0, .any⟩, -- configured cells
  ⟨0x02, 0x02, .u16, .ro, .none, .same 0, .any⟩, -- bypassed cells
  ⟨0x03, 0x03, .u16, .ro, .none, .same 0, .any⟩, -- excluded cells
  ⟨0x04, 0x04, .u16, .ro, .none, .same 0, .any⟩, -- pinned cells
  ⟨0x05, 0x05, .i16, .ro, .none, .same 0, .any⟩, -- level
  ⟨0x06, 0x06, .i16, .ro, .none, .same 0, .any⟩, -- level debt
  ⟨0x07, 0x07, .f32, .ro, .none, .same 0, .any⟩, -- highest cell voltage
  ⟨0x08, 0x08, .f32, .ro, .none, .same 0, .any⟩, -- lowest cell voltage
  ⟨0x09, 0x09, .f32, .ro, .none, .same 0, .any⟩, -- mean cell voltage
  ⟨0x0A, 0x0A, .u16, .ro, .none, .same 0xFFFF, .any⟩, -- cell of highest voltage
  ⟨0x0B, 0x0B, .u16, .ro, .none, .same 0xFFFF, .any⟩, -- cell of lowest voltage
  ⟨0x0C, 0x0C, .f32, .ro, .none, .same 0, .any⟩, -- voltage spread
  ⟨0x0D, 0x0D, .u16, .ro, .none, .same 0, .any⟩, -- stale cells
  ⟨0x0E, 0x0E, .u16, .ro, .none, .same 0, .any⟩, -- switchings in tick
  ⟨0x0F, 0x0F, .u64, .ro, .none, .same 0, .any⟩, -- switchings
  ⟨0x10, 0x10, .u32, .ro, .none, .same 0, .any⟩, -- switchings wrap count
  ⟨0x11, 0x11, .u32, .ro, .none, .same 0, .any⟩, -- swaps
  ⟨0x12, 0x12, .bool, .ro, .none, .same 0, .any⟩, -- swap sticky
  ⟨0x13, 0x13, .u32, .ro, .none, .same 0, .any⟩, -- debt ticks
  ⟨0x14, 0x14, .bool, .ro, .none, .same 0, .any⟩, -- debt-tick sticky
  ⟨0x15, 0x15, .u16, .ro, .none, .same 0, .any⟩, -- peak debt
  ⟨0x16, 0x16, .u32, .ro, .none, .same 0, .any⟩, -- debt discarded
  ⟨0x17, 0x17, .bool, .ro, .none, .same 0, .any⟩, -- discard sticky
  ⟨0x18, 0x18, .u32, .ro, .none, .same 0, .any⟩, -- bypass events
  ⟨0x19, 0x19, .bool, .ro, .none, .same 0, .any⟩, -- bypass sticky
  ⟨0x1A, 0x1A, .u32, .ro, .none, .same 0, .any⟩, -- arm faults
  ⟨0x1B, 0x1B, .bool, .ro, .none, .same 0, .any⟩, -- arm-fault sticky
  ⟨0x1C, 0x1C, .u8, .wo, .live, .same 0, .nats [(0, 31)]⟩ -- clear
  ]⟩

/-- Object 0x4010: spec/04_current_engine.md, Table 4.3 - Current-loop object 0x4010 + a x 0x100. -/
def obj4010 : OdObject := ⟨0x4010, 256, 12, 1, [
  ⟨0x01, 0x01, .u8, .rw, .blocked, .same 255, .nats [(0, 31), (255, 255)]⟩, -- arm-current channel
  ⟨0x02, 0x02, .f32, .rw, .blocked, .same 1148846080, .finite⟩, -- current base
  ⟨0x03, 0x03, .f32, .rw, .blocked, .same 1203982336, .finite⟩, -- voltage base
  ⟨0x04, 0x04, .f32, .rw, .blocked, .same 1157234688, .finite⟩, -- nominal cell voltage
  ⟨0x05, 0x05, .u8, .rw, .blocked, .same 0, .nats [(0, 1)]⟩, -- cell type
  ⟨0x06, 0x06, .f32, .rw, .live, .same 0, .finite⟩, -- proportional gain
  ⟨0x07, 0x07, .f32, .rw, .live, .same 0, .finite⟩, -- integral gain
  ⟨0x08, 0x08, .f32, .rw, .live, .same 1056964608, .finite⟩, -- integrator limit
  ⟨0x09, 0x09, .f32, .rw, .live, .same 1067030938, .finite⟩, -- arm voltage limit high
  ⟨0x0A, 0x0A, .f32, .rw, .live, .same 3214514586, .finite⟩, -- arm voltage limit low
  ⟨0x0B, 0x0B, .f32, .rw, .live, .same 1073741824, .finite⟩, -- current order limit
  ⟨0x0C, 0x0C, .f32, .rw, .live, .same 1008981770, .finite⟩, -- current sign band
  ⟨0x0D, 0x0D, .u16, .rw, .live, .same 384, .nats [(0, 1024)]⟩, -- output lead
  ⟨0x0E, 0x0E, .bool, .rw, .live, .same 0, .nats [(0, 1)]⟩ -- gain table in use
  ]⟩

/-- Object 0x4011: spec/04_current_engine.md, Table 4.4 - Energy-loop object 0x4011 + a x 0x100. -/
def obj4011 : OdObject := ⟨0x4011, 256, 12, 1, [
  ⟨0x01, 0x01, .bool, .rw, .blocked, .same 1, .nats [(0, 1)]⟩, -- enable
  ⟨0x02, 0x02, .f32, .rw, .live, .same 0, .finite⟩, -- proportional gain
  ⟨0x03, 0x03, .f32, .rw, .live, .same 0, .finite⟩, -- integral gain
  ⟨0x04, 0x04, .f32, .rw, .live, .same 1036831949, .finite⟩, -- power limit
  ⟨0x05, 0x05, .f32, .rw, .live, .same 1036831949, .finite⟩, -- integrator limit
  ⟨0x06, 0x06, .bool, .rw, .live, .same 0, .nats [(0, 1)]⟩, -- gain table in use
  ⟨0x40, 0x40, .f32, .rw, .live, .same 1036831949, .reals 0x3C23D70A 0x3F800000⟩, -- AC voltage floor
  ⟨0x41, 0x41, .f32, .rw, .live, .same 1028443341, .reals 0x3C23D70A 0x3F800000⟩ -- DC share floor
  ]⟩

/-- Object 0x4012: spec/04_current_engine.md, Table 4.5 - Gain-table objects 0x4012 and 0x4013 + a x 0x100. -/
def obj4012 : OdObject := ⟨0x4012, 256, 12, 1, [
  ⟨0x01, 0x01, .u8, .rw, .live, .same 0, .nats [(0, 1)]⟩, -- mode
  ⟨0x02, 0x02, .f32, .rw, .live, .same 1050924810, .reals 0x33800000 0x42800000⟩, -- error span
  ⟨0x03, 0x03, (.octets 130), .rw, .live, .same 0x10001000100010001000100010001000100010001000100010001000100010001000100010001000100010001000100010001000100010001000100010001000100010001000100010001000100010001000100010001000100010001000100010001000100010001000100010001000100010001000100010001000100010001000, .any⟩, -- points
  ⟨0x04, 0x04, .u32, .ro, .none, .same 0x554CACD1, .any⟩ -- points CRC
  ]⟩

/-- Object 0x4013: spec/04_current_engine.md, Table 4.5 - Gain-table objects 0x4012 and 0x4013 + a x 0x100. -/
def obj4013 : OdObject := ⟨0x4013, 256, 12, 1, [
  ⟨0x01, 0x01, .u8, .rw, .live, .same 0, .nats [(0, 1)]⟩, -- mode
  ⟨0x02, 0x02, .f32, .rw, .live, .same 1050924810, .reals 0x33800000 0x42800000⟩, -- error span
  ⟨0x03, 0x03, (.octets 130), .rw, .live, .same 0x10001000100010001000100010001000100010001000100010001000100010001000100010001000100010001000100010001000100010001000100010001000100010001000100010001000100010001000100010001000100010001000100010001000100010001000100010001000100010001000100010001000100010001000, .any⟩, -- points
  ⟨0x04, 0x04, .u32, .ro, .none, .same 0x554CACD1, .any⟩ -- points CRC
  ]⟩

/-- Object 0x4014: spec/04_current_engine.md, Table 4.6 - Second-harmonic object 0x4014 + a x 0x100. -/
def obj4014 : OdObject := ⟨0x4014, 256, 12, 1, [
  ⟨0x01, 0x01, .bool, .rw, .live, .same 0, .nats [(0, 1)]⟩, -- enable
  ⟨0x02, 0x02, .f32, .rw, .live, .same 0, .finite⟩, -- neutral amplitude
  ⟨0x03, 0x03, .f32, .rw, .live, .same 1036831949, .reals 0x0 0x3E800000⟩, -- amplitude ceiling
  ⟨0x04, 0x04, .f32, .rw, .live, .same 0, .reals 0x0 0x43B40000⟩, -- neutral phase
  ⟨0x05, 0x05, .f32, .rw, .live, .same 1008981770, .positive⟩, -- amplitude slew
  ⟨0x06, 0x06, .f32, .rw, .live, .same 1092616192, .positive⟩, -- phase slew
  ⟨0x07, 0x07, .f32, .ro, .none, .same 0, .any⟩, -- amplitude in force
  ⟨0x08, 0x08, .f32, .ro, .none, .same 0, .any⟩ -- phase in force
  ]⟩

/-- Object 0x4015: spec/04_current_engine.md, Table 4.7 - Engine status object 0x4015 + a x 0x100. -/
def obj4015 : OdObject := ⟨0x4015, 256, 12, 1, [
  ⟨0x01, 0x01, .i16, .ro, .none, .same 0, .any⟩, -- insertion count
  ⟨0x02, 0x02, .i8, .ro, .none, .same 1, .any⟩, -- current sign
  ⟨0x03, 0x03, .f32, .ro, .none, .same 0, .any⟩, -- arm voltage order
  ⟨0x04, 0x04, .f32, .ro, .none, .same 0, .any⟩, -- current order
  ⟨0x05, 0x05, .f32, .ro, .none, .same 0, .any⟩, -- arm current
  ⟨0x06, 0x06, .f32, .ro, .none, .same 0, .any⟩, -- energy measure
  ⟨0x07, 0x07, .f32, .ro, .none, .same 0, .any⟩, -- energy order
  ⟨0x08, 0x08, .u16, .ro, .none, .same 0, .any⟩, -- available cells
  ⟨0x09, 0x09, .u8, .ro, .none, .same 0, .any⟩, -- saturation flags
  ⟨0x0A, 0x0A, .u32, .ro, .none, .same 0, .any⟩, -- saturated ticks
  ⟨0x0B, 0x0B, .bool, .ro, .none, .same 0, .any⟩, -- saturated-tick sticky
  ⟨0x0C, 0x0C, .u8, .wo, .live, .same 0, .nats [(1, 1)]⟩, -- clear
  ⟨0x40, 0x40, .f32, .ro, .none, .same 0, .any⟩, -- current integrator
  ⟨0x41, 0x41, .f32, .ro, .none, .same 0, .any⟩, -- energy integrator
  ⟨0x42, 0x42, .f32, .ro, .none, .same 0, .any⟩, -- voltage table sum
  ⟨0x43, 0x43, .f32, .ro, .none, .same 0, .any⟩ -- current table sum
  ]⟩

/-- Object 0x4020: spec/04_current_engine.md, Table 4.8 - Compensation-table object 0x4020 + t + a x 0x100. -/
def obj4020 : OdObject := ⟨0x4020, 256, 12, 8, [
  ⟨0x01, 0x01, .u8, .rw, .live, .same 0, .nats [(0, 2)]⟩, -- mode
  ⟨0x02, 0x02, .u8, .rw, .blocked, .same 0, .nats [(0, 1)]⟩, -- target
  ⟨0x03, 0x03, .u8, .rw, .blocked, .same 1, .nats [(1, 16)]⟩, -- harmonic multiplier
  ⟨0x04, 0x04, .f32, .rw, .live, .same 0, .reals 0xC3B40000 0x43B40000⟩, -- angle offset
  ⟨0x05, 0x05, .f32, .rw, .live, .same 1036831949, .reals 0x33800000 0x3F800000⟩, -- full scale
  ⟨0x06, 0x06, .f32, .rw, .live, .same 1028443341, .reals 0x0 0x3F800000⟩, -- learning gain
  ⟨0x07, 0x07, .u16, .rw, .live, .same 4, .nats [(1, 256)]⟩, -- step bound
  ⟨0x08, 0x08, .u16, .rw, .live, .same 0x4000, .nats [(1, 32767)]⟩, -- magnitude bound
  ⟨0x09, 0x09, .f32, .rw, .live, .same 0, .reals 0xC3340000 0x43340000⟩, -- learning phase advance
  ⟨0x0A, 0x0A, .f32, .rw, .live, .same 1028443341, .finite⟩, -- learning error limit
  ⟨0x0B, 0x0B, (.domain 2048), .rw, .live, .same 0, .any⟩, -- table data
  ⟨0x0C, 0x0C, .u32, .ro, .none, .same 0xA489834F, .any⟩, -- table CRC
  ⟨0x0D, 0x0D, .u32, .ro, .none, .same 0, .any⟩, -- updates
  ⟨0x0E, 0x0E, .bool, .ro, .none, .same 0, .any⟩, -- update sticky
  ⟨0x0F, 0x0F, .u32, .ro, .none, .same 0, .any⟩, -- learning pauses
  ⟨0x10, 0x10, .bool, .ro, .none, .same 0, .any⟩, -- pause sticky
  ⟨0x11, 0x11, .u8, .wo, .live, .same 0, .nats [(1, 2)]⟩ -- clear
  ]⟩

/-- Object 0x5000: spec/11_loss_tracking.md, Table 11.4 - Loss-tracker object 0x5000. -/
def obj5000 : OdObject := ⟨0x5000, 1, 1, 1, [
  ⟨0x01, 0x01, .bool, .rw, .live, .same 0, .nats [(0, 1)]⟩, -- enable
  ⟨0x02, 0x02, .u8, .rw, .live, .same 15, .any⟩, -- coordinate mask
  ⟨0x03, 0x03, .u16, .rw, .live, .same 0x1F40, .nats [(1000, 60000)]⟩, -- observation time
  ⟨0x04, 0x04, .u16, .rw, .live, .same 2000, .nats [(200, 20000)]⟩, -- settle time
  ⟨0x05, 0x05, .f32, .rw, .live, .same 944879383, .reals 0x3727C5AC 0x3C23D70A⟩, -- decision deadband
  ⟨0x06, 0x06, .f32, .rw, .live, .same 981668463, .reals 0x38D1B717 0x3C23D70A⟩, -- band step
  ⟨0x07, 0x07, .f32, .rw, .live, .same 3148076810, .reals 0xBE4CCCCD 0x0⟩, -- band offset low
  ⟨0x08, 0x08, .f32, .rw, .live, .same 1017370378, .reals 0x0 0x3E4CCCCD⟩, -- band offset high
  ⟨0x09, 0x09, .f32, .rw, .live, .same 1000593162, .reals 0x3A83126F 0x3D4CCCCD⟩, -- amplitude step
  ⟨0x0A, 0x0A, .f32, .rw, .live, .same 3175926989, .reals 0xBE800000 0x0⟩, -- amplitude offset low
  ⟨0x0B, 0x0B, .f32, .rw, .live, .same 1028443341, .reals 0x0 0x3E800000⟩, -- amplitude offset high
  ⟨0x0C, 0x0C, .f32, .rw, .live, .same 1092616192, .reals 0x3F800000 0x42340000⟩, -- phase step
  ⟨0x0D, 0x0D, .f32, .rw, .live, .same 1119092736, .reals 0x0 0x43340000⟩, -- phase offset bound
  ⟨0x0E, 0x0E, .f32, .rw, .live, .same 990057071, .reals 0x3A03126F 0x3C23D70A⟩, -- voltage step
  ⟨0x0F, 0x0F, .f32, .rw, .live, .same 1065017672, .reals 0x3F7851EC 0x3F800000⟩, -- voltage target low
  ⟨0x10, 0x10, .f32, .rw, .live, .same 1065520988, .reals 0x3F800000 0x3F83D70A⟩, -- voltage target high
  ⟨0x11, 0x11, .f32, .rw, .live, .same 1008981770, .reals 0x3A83126F 0x3F800000⟩, -- ramp freeze rate
  ⟨0x12, 0x12, .u16, .rw, .live, .same 60, .nats [(10, 600)]⟩, -- trip holdoff
  ⟨0x13, 0x13, .f32, .rw, .live, .same 1008981770, .reals 0x3A83126F 0x3DCCCCCD⟩, -- operating-point band
  ⟨0x40, 0x40, .f32, .rw, .live, .same 1036831949, .reals 0x3CA3D70A 0x3F000000⟩, -- minimum power
  ⟨0x41, 0x41, .f32, .rw, .live, .same 1000593162, .reals 0x3A83126F 0x3D4CCCCD⟩ -- phase trial amplitude
  ]⟩

/-- Object 0x5001: spec/11_loss_tracking.md, Table 11.5 - Pole loss-tracker object 0x5001 + p. -/
def obj5001 : OdObject := ⟨0x5001, 1, 2, 1, [
  ⟨0x01, 0x01, .u8, .ro, .none, .same 0, .any⟩, -- tracker state
  ⟨0x02, 0x02, .u16, .ro, .none, .same 0, .any⟩, -- freeze reasons
  ⟨0x03, 0x03, .u8, .ro, .none, .same 0, .any⟩, -- coordinate under trial
  ⟨0x04, 0x04, .f32, .ro, .none, .same 0, .any⟩, -- band offset in force
  ⟨0x05, 0x05, .f32, .ro, .none, .same 0, .any⟩, -- amplitude offset in force
  ⟨0x06, 0x06, .f32, .ro, .none, .same 0, .any⟩, -- phase offset in force
  ⟨0x07, 0x07, .f32, .ro, .none, .same 1065353216, .any⟩, -- voltage target in force
  ⟨0x08, 0x08, .f32, .ro, .none, .same 0, .any⟩, -- last baseline loss
  ⟨0x09, 0x09, .f32, .ro, .none, .same 0, .any⟩, -- last trial loss
  ⟨0x0A, 0x0A, .f32, .ro, .none, .same 0, .any⟩, -- last window mean power
  ⟨0x0B, 0x0B, .u8, .ro, .none, .same 0, .any⟩, -- directions
  ⟨0x0C, 0x0C, .u32, .ro, .none, .same 0, .any⟩, -- trials
  ⟨0x0D, 0x0D, .bool, .ro, .none, .same 0, .any⟩, -- trial sticky
  ⟨0x0E, 0x0E, .u32, .ro, .none, .same 0, .any⟩, -- accepted steps
  ⟨0x0F, 0x0F, .bool, .ro, .none, .same 0, .any⟩, -- accepted sticky
  ⟨0x10, 0x10, .u32, .ro, .none, .same 0, .any⟩, -- invalid windows
  ⟨0x11, 0x11, .bool, .ro, .none, .same 0, .any⟩, -- invalid sticky
  ⟨0x12, 0x12, .u8, .wo, .live, .same 0, .nats [(0, 15)]⟩, -- clear
  ⟨0x13, 0x13, .f32, .rw, .blocked, .same 0, .finite⟩, -- arm stored energy
  ⟨0x14, 0x14, .f32, .ro, .none, .same 0, .any⟩ -- accumulated gain
  ]⟩

/-- Object 0x5100: spec/06_fault_ride_through.md, Table 6.6 - AC ride-through object 0x5100 + p. -/
def obj5100 : OdObject := ⟨0x5100, 1, 2, 1, [
  ⟨0x01, 0x01, .bool, .rw, .blocked, .same 1, .nats [(0, 1)]⟩, -- enable
  ⟨0x02, 0x02, .f32, .rw, .live, .same 1063675494, .reals 0x3F000000 0x3F733333⟩, -- dip entry
  ⟨0x03, 0x03, .f32, .rw, .live, .same 1066192077, .reals 0x3F866666 0x3FA66666⟩, -- swell entry
  ⟨0x04, 0x04, .f32, .rw, .live, .same 1017370378, .reals 0x0 0x3D4CCCCD⟩, -- exit hysteresis
  ⟨0x05, 0x05, .u16, .rw, .live, .same 20, .nats [(5, 500)]⟩, -- recovery time
  ⟨0x06, 0x06, .u16, .rw, .live, .same 0x2710, .nats [(100, 60000)]⟩, -- maximum duration
  ⟨0x07, 0x07, .f32, .rw, .live, .same 1073741824, .reals 0x0 0x40C00000⟩, -- k⁺
  ⟨0x08, 0x08, .f32, .rw, .live, .same 1073741824, .reals 0x0 0x40C00000⟩, -- k⁻
  ⟨0x09, 0x09, .u16, .rw, .live, .same 50, .nats [(10, 200)]⟩, -- pre-fault window
  ⟨0x0A, 0x0A, .f32, .rw, .live, .same 1073741824, .reals 0x3DCCCCCD 0x41A00000⟩, -- active recovery rate
  ⟨0x0B, 0x0B, .bool, .rw, .live, .same 1, .nats [(0, 1)]⟩, -- open on abort
  ⟨0x0C, 0x0C, .u8, .ro, .none, .same 0, .any⟩, -- state
  ⟨0x0D, 0x0D, .u32, .ro, .none, .same 0, .any⟩, -- elapsed time
  ⟨0x0E, 0x0E, .f32, .ro, .none, .same 0, .any⟩, -- pre-fault voltage
  ⟨0x0F, 0x0F, .u32, .ro, .none, .same 0, .any⟩, -- ride-throughs
  ⟨0x10, 0x10, .bool, .ro, .none, .same 0, .any⟩, -- ride-through sticky
  ⟨0x11, 0x11, .u32, .ro, .none, .same 0, .any⟩, -- aborts
  ⟨0x12, 0x12, .bool, .ro, .none, .same 0, .any⟩, -- abort sticky
  ⟨0x13, 0x13, .u8, .wo, .live, .same 0, .nats [(0, 3)]⟩ -- clear
  ]⟩

/-- Object 0x5104: spec/06_fault_ride_through.md, Table 6.7 - DC fault object 0x5104 + p. -/
def obj5104 : OdObject := ⟨0x5104, 1, 2, 1, [
  ⟨0x01, 0x01, .bool, .rw, .blocked, .same 1, .nats [(0, 1)]⟩, -- detection enable
  ⟨0x02, 0x02, .f32, .rw, .live, .same 1056964608, .reals 0x3DCCCCCD 0x3F666666⟩, -- undervoltage threshold
  ⟨0x03, 0x03, .f32, .rw, .live, .same 1069547520, .reals 0x3F8CCCCD 0x40800000⟩, -- overcurrent threshold
  ⟨0x04, 0x04, .u8, .rw, .live, .same 4, .nats [(1, 32)]⟩, -- detection count
  ⟨0x05, 0x05, .f32, .rw, .live, .same 1056964608, .reals 0x3D4CCCCD 0x40A00000⟩, -- extinction ramp
  ⟨0x06, 0x06, .u16, .rw, .live, .same 2000, .nats [(500, 10000)]⟩, -- extinction limit
  ⟨0x07, 0x07, .f32, .rw, .live, .same 1017370378, .reals 0x3BA3D70A 0x3DCCCCCD⟩, -- extinction band
  ⟨0x08, 0x08, .u16, .rw, .live, .same 100, .nats [(20, 1000)]⟩, -- extinction hold
  ⟨0x09, 0x09, .f32, .rw, .live, .same 1157234688, .reals 0x0 0x469C4000⟩, -- trim gain
  ⟨0x0A, 0x0A, .u16, .rw, .live, .same 300, .nats [(50, 5000)]⟩, -- deionisation time
  ⟨0x0B, 0x0B, .f32, .rw, .live, .same 1073741824, .reals 0x3DCCCCCD 0x41200000⟩, -- restart rate
  ⟨0x0C, 0x0C, .u8, .rw, .live, .same 2, .nats [(0, 5)]⟩, -- restart attempts
  ⟨0x0D, 0x0D, .bool, .rw, .live, .same 1, .nats [(0, 1)]⟩, -- automatic restart
  ⟨0x0E, 0x0E, .u8, .rw, .live, .same 1, .any⟩, -- breaker action
  ⟨0x0F, 0x0F, .bool, .rw, .blocked, .same 0, .nats [(0, 1)]⟩, -- force BLOCK
  ⟨0x10, 0x10, .u8, .ro, .none, .same 0, .any⟩, -- state
  ⟨0x11, 0x11, .u8, .wo, .live, .same 0, .nats [(1, 1)]⟩, -- restart
  ⟨0x12, 0x12, .u32, .ro, .none, .same 0, .any⟩, -- last extinction time
  ⟨0x13, 0x13, .u8, .ro, .none, .same 0, .any⟩, -- attempts used
  ⟨0x14, 0x14, .u32, .ro, .none, .same 0, .any⟩, -- DC faults
  ⟨0x15, 0x15, .bool, .ro, .none, .same 0, .any⟩, -- DC-fault sticky
  ⟨0x16, 0x16, .u8, .wo, .live, .same 0, .nats [(1, 1)]⟩ -- clear
  ]⟩

/-- Object 0x5108: spec/06_fault_ride_through.md, Table 6.8 - Energisation object 0x5108 + p. -/
def obj5108 : OdObject := ⟨0x5108, 1, 2, 1, [
  ⟨0x01, 0x01, .u16, .rw, .blocked, .same 500, .nats [(50, 5000)]⟩, -- breaker close timeout
  ⟨0x02, 0x02, .f32, .rw, .blocked, .same 1050253722, .reals 0x3D4CCCCD 0x40000000⟩, -- arm current limit
  ⟨0x03, 0x03, .f32, .rw, .blocked, .same 1041865114, .reals 0x3CA3D70A 0x3F4CCCCD⟩, -- passive target
  ⟨0x04, 0x04, .u16, .rw, .blocked, .same 50, .nats [(10, 1000)]⟩, -- passive checkpoint
  ⟨0x05, 0x05, .u16, .rw, .blocked, .same 2000, .nats [(100, 20000)]⟩, -- passive time limit
  ⟨0x06, 0x06, .u16, .rw, .blocked, .same 100, .nats [(10, 1000)]⟩, -- bypass settle time
  ⟨0x08, 0x08, .f32, .rw, .blocked, .same 1073741824, .reals 0x3DCCCCCD 0x41200000⟩, -- active charge rate
  ⟨0x09, 0x09, .u16, .rw, .blocked, .same 100, .nats [(10, 2000)]⟩, -- active checkpoint
  ⟨0x0A, 0x0A, .u16, .rw, .blocked, .same 3000, .nats [(500, 30000)]⟩, -- active time limit
  ⟨0x0C, 0x0C, .f32, .rw, .live, .same 1073741824, .finite⟩, -- Kp_E
  ⟨0x0D, 0x0D, .f32, .rw, .live, .same 1092616192, .finite⟩, -- Ki_E
  ⟨0x0E, 0x0E, .u8, .ro, .none, .same 0, .any⟩, -- sequence state
  ⟨0x0F, 0x0F, .u32, .ro, .none, .same 0, .any⟩, -- energisation faults
  ⟨0x10, 0x10, .u8, .ro, .none, .same 0, .any⟩, -- last abort reason
  ⟨0x11, 0x11, .bool, .ro, .none, .same 0, .any⟩, -- fault sticky
  ⟨0x12, 0x12, .u8, .wo, .live, .same 0, .nats [(1, 1)]⟩, -- abort
  ⟨0x13, 0x13, .u8, .wo, .live, .same 0, .nats [(1, 1)]⟩ -- clear
  ]⟩

/-- Object 0x510C: spec/06_fault_ride_through.md, Table 6.9 - Breaker request object 0x510C + p. -/
def obj510C : OdObject := ⟨0x510C, 1, 2, 1, [
  ⟨0x01, 0x01, .u8, .ro, .none, .same 0, .any⟩, -- request word
  ⟨0x02, 0x02, .u8, .ro, .none, .same 0, .any⟩, -- last raise reason
  ⟨0x03, 0x03, .u8, .ro, .none, .same 0, .any⟩, -- computed requests
  ⟨0x04, 0x04, .u32, .ro, .none, .same 0, .any⟩, -- requests raised
  ⟨0x05, 0x05, .bool, .ro, .none, .same 0, .any⟩, -- raise sticky
  ⟨0x06, 0x06, .u8, .wo, .live, .same 0, .nats [(1, 1)]⟩ -- clear
  ]⟩

/-- Object 0x5200: spec/05_pole_control.md, Table 5.9 - Islanding object 0x5200 + p. -/
def obj5200 : OdObject := ⟨0x5200, 1, 2, 1, [
  ⟨0x01, 0x01, .bool, .rw, .live, .same 1, .nats [(0, 1)]⟩, -- enable
  ⟨0x02, 0x02, .bool, .rw, .live, .same 1, .nats [(0, 1)]⟩, -- active method
  ⟨0x03, 0x03, .f32, .rw, .live, .same 1065353216, .reals 0x3DCCCCCD 0x41200000⟩, -- ROCOF threshold
  ⟨0x04, 0x04, .u16, .rw, .live, .same 20, .nats [(5, 200)]⟩, -- ROCOF time
  ⟨0x05, 0x05, .f32, .rw, .live, .same 1090519040, .reals 0x40000000 0x41F00000⟩, -- vector-shift threshold
  ⟨0x06, 0x06, .f32, .rw, .live, .same 1017370378, .reals 0x3BA3D70A 0x3D4CCCCD⟩, -- injection amplitude
  ⟨0x07, 0x07, .f32, .rw, .live, .same 1056964608, .reals 0x3D4CCCCD 0x40A00000⟩, -- impedance threshold
  ⟨0x08, 0x08, .u16, .rw, .live, .same 30, .nats [(10, 40)]⟩, -- passive-only time
  ⟨0x09, 0x09, .u8, .rw, .live, .same 1, .nats [(0, 2)]⟩, -- response
  ⟨0x0A, 0x0A, .u8, .rw, .blocked, .inst [0, 1], .nats [(0, 1)]⟩, -- AC bus
  ⟨0x0B, 0x0B, .f32, .rw, .live, .same 1056964608, .reals 0x3D4CCCCD 0x40A00000⟩, -- frequency restore rate
  ⟨0x0C, 0x0C, .f32, .rw, .live, .same 1092616192, .reals 0x3F800000 0x41F00000⟩, -- reconnect angle limit
  ⟨0x0D, 0x0D, .u8, .ro, .none, .same 0, .any⟩, -- detector state
  ⟨0x0E, 0x0E, .f32, .ro, .none, .same 0, .any⟩, -- last impedance
  ⟨0x0F, 0x0F, .u32, .ro, .none, .same 0, .any⟩, -- decisions
  ⟨0x10, 0x10, .bool, .ro, .none, .same 0, .any⟩, -- decision sticky
  ⟨0x11, 0x11, .u8, .wo, .live, .same 0, .nats [(1, 1)]⟩ -- clear
  ]⟩

/-- Object 0x5300: spec/07_rank_engine.md, Table 7.10 - Rank engine object 0x5300. -/
def obj5300 : OdObject := ⟨0x5300, 1, 1, 1, [
  ⟨0x01, 0x01, .f32, .rw, .blocked, .same 1067450368, .reals 0x3F8CCCCD 0x3FC00000⟩, -- overvoltage bypass threshold
  ⟨0x02, 0x02, .u8, .rw, .blocked, .same 2, .nats [(1, 8)]⟩, -- overvoltage confirm count
  ⟨0x03, 0x03, .f32, .rw, .blocked, .same 1056964608, .reals 0x0 0x3F4CCCCD⟩, -- undervoltage bypass threshold
  ⟨0x04, 0x04, .u8, .rw, .blocked, .same 8, .nats [(1, 255)]⟩, -- undervoltage confirm count
  ⟨0x05, 0x05, .u32, .ro, .none, .same 0, .any⟩, -- bypass-lift anomalies
  ⟨0x06, 0x06, .bool, .ro, .none, .same 0, .any⟩, -- anomaly sticky
  ⟨0x07, 0x07, .u8, .wo, .live, .same 0, .nats [(1, 1)]⟩ -- clear
  ]⟩

/-- Object 0x5301: spec/07_rank_engine.md, Table 7.11 - Arm selection object 0x5301 + a. -/
def obj5301 : OdObject := ⟨0x5301, 1, 12, 1, [
  ⟨0x01, 0x01, .f32, .rw, .live, .same 1008981770, .reals 0x0 0x3E4CCCCD⟩, -- tolerance band
  ⟨0x02, 0x02, .f32, .ro, .none, .same 0, .any⟩, -- band in force
  ⟨0x03, 0x03, .u8, .rw, .blocked, .same 2, .nats [(1, 16)]⟩, -- minimum dwell
  ⟨0x04, 0x04, .u8, .rw, .live, .same 4, .nats [(0, 64)]⟩, -- swap limit
  ⟨0x05, 0x05, .u16, .rw, .live, .same 64, .nats [(1, 1024)]⟩, -- debt bound
  ⟨0x06, 0x06, .u16, .rw, .blocked, .same 0, .any⟩ -- redundancy floor
  ]⟩

/-- Object 0x5400: spec/08_firing_and_forcing.md, Table 8.7 - Firing object 0x5400. -/
def obj5400 : OdObject := ⟨0x5400, 1, 1, 1, [
  ⟨0x01, 0x01, .u32, .ro, .none, .same 0, .any⟩, -- repeat frames
  ⟨0x02, 0x02, .bool, .ro, .none, .same 0, .any⟩, -- repeat sticky
  ⟨0x03, 0x03, .u32, .ro, .none, .same 0, .any⟩, -- block-mask rises
  ⟨0x04, 0x04, .bool, .ro, .none, .same 0, .any⟩, -- block-mask sticky
  ⟨0x05, 0x05, .u16, .ro, .none, .same 0, .any⟩, -- block mask
  ⟨0x06, 0x06, .u8, .wo, .live, .same 0, .nats [(0, 3)]⟩ -- clear
  ]⟩

/-- Object 0x5401: spec/08_firing_and_forcing.md, Table 8.8 - Arm firing object 0x5401 + a. -/
def obj5401 : OdObject := ⟨0x5401, 1, 12, 1, [
  ⟨0x01, 0x01, .u8, .rw, .live, .same 60, .any⟩, -- spread window
  ⟨0x02, 0x02, .u8, .rw, .live, .same 0, .any⟩, -- base offset
  ⟨0x03, 0x03, .u16, .rw, .live, .same 500, .nats [(0, 8000)]⟩, -- minimum pulse
  ⟨0x04, 0x04, .u16, .ro, .none, .same 500, .any⟩, -- effective minimum pulse
  ⟨0x05, 0x05, .u32, .ro, .none, .same 0, .any⟩, -- raised offsets
  ⟨0x06, 0x06, .bool, .ro, .none, .same 0, .any⟩, -- raised-offset sticky
  ⟨0x07, 0x07, .u32, .ro, .none, .same 0, .any⟩, -- held forced changes
  ⟨0x08, 0x08, .bool, .ro, .none, .same 0, .any⟩, -- held-change sticky
  ⟨0x09, 0x09, .u8, .wo, .live, .same 0, .nats [(0, 3)]⟩ -- clear
  ]⟩

/-- Object 0x5500: spec/09_minak_lanes.md, Table 9.8 - Lane object 0x5500. -/
def obj5500 : OdObject := ⟨0x5500, 1, 1, 1, [
  ⟨0x01, 0x01, .u32, .ro, .none, .same 0, .any⟩, -- operational map
  ⟨0x02, 0x02, .u32, .ro, .none, .same 0, .any⟩, -- fault map
  ⟨0x03, 0x03, .u32, .ro, .none, .same 0, .any⟩, -- limited map
  ⟨0x04, 0x04, .u8, .ro, .none, .same 0, .any⟩, -- rate cap
  ⟨0x05, 0x05, .u32, .ro, .none, .same 0, .any⟩, -- lane faults
  ⟨0x06, 0x06, .bool, .ro, .none, .same 0, .any⟩, -- lane-fault sticky
  ⟨0x07, 0x07, .u8, .wo, .live, .same 0, .nats [(1, 1)]⟩ -- clear
  ]⟩

/-- Object 0x5501: spec/10_minak_frames.md, Table 10.9 - Frame object 0x5501. -/
def obj5501 : OdObject := ⟨0x5501, 1, 1, 1, [
  ⟨0x01, 0x01, .u8, .rw, .blocked, .same 2, .nats [(1, 15)]⟩, -- hold ticks
  ⟨0x02, 0x02, .u8, .const, .none, .same 1, .any⟩, -- frame format version
  ⟨0x03, 0x03, .u8, .rw, .live, .same 8, .nats [(1, 64)]⟩, -- error run limit
  ⟨0x04, 0x04, .u16, .ro, .none, .same 0, .any⟩ -- epoch window in force
  ]⟩

/-- Object 0x5520: spec/02_control_tick.md, R78. -/
def obj5520 : OdObject := ⟨0x5520, 1, 1, 1, [
  ⟨0x01, 0x20, .u32, .ro, .none, .same 0, .any⟩ -- report misses of lane subindex - 1
  ]⟩

/-- Object 0x5521: spec/02_control_tick.md, R78. -/
def obj5521 : OdObject := ⟨0x5521, 1, 1, 1, [
  ⟨0x01, 0x20, .bool, .ro, .none, .same 0, .any⟩ -- report-miss sticky
  ]⟩

/-- Object 0x5530: spec/09_minak_lanes.md, Table 9.9 - Lane object 0x5530 + l. -/
def obj5530 : OdObject := ⟨0x5530, 1, 32, 1, [
  ⟨0x01, 0x01, .u16, .rw, .blocked, .same 0, .nats [(0, 256)]⟩, -- cluster cell count
  ⟨0x02, 0x02, .u8, .rw, .blocked, .same 3, .nats [(0, 3)]⟩, -- target rate
  ⟨0x03, 0x03, .u8, .rw, .blocked, .same 2, .nats [(2, 3)]⟩, -- minimum operational rate
  ⟨0x04, 0x04, .u32, .rw, .blocked, .same 0, .any⟩, -- expected concentrator identity
  ⟨0x05, 0x05, .u8, .ro, .none, .same 0, .any⟩, -- lane state
  ⟨0x06, 0x06, .u8, .ro, .none, .same 0, .any⟩, -- rate in force
  ⟨0x07, 0x07, .u8, .ro, .none, .same 0, .any⟩, -- top rate
  ⟨0x08, 0x08, .u32, .ro, .none, .same 0, .any⟩, -- fibre delay
  ⟨0x09, 0x09, .i32, .ro, .none, .same 0, .any⟩, -- downstream slack
  ⟨0x0A, 0x0A, .i32, .ro, .none, .same 0, .any⟩, -- upstream slack
  ⟨0x0B, 0x0B, .u32, .ro, .none, .same 0, .any⟩, -- concentrator identity
  ⟨0x0C, 0x0C, .u16, .ro, .none, .same 0, .any⟩, -- concentrator capability
  ⟨0x0D, 0x0D, .u8, .ro, .none, .same 0, .any⟩, -- concentrator version
  ⟨0x0E, 0x0E, .u8, .ro, .none, .same 0, .any⟩, -- last fault cause
  ⟨0x0F, 0x0F, .u64, .ro, .none, .same 0, .any⟩, -- fault tick
  ⟨0x10, 0x10, .u32, .ro, .none, .same 0, .any⟩, -- lane faults
  ⟨0x11, 0x11, .bool, .ro, .none, .same 0, .any⟩, -- lane-fault sticky
  ⟨0x12, 0x12, .u32, .ro, .none, .same 0, .any⟩, -- LOS events
  ⟨0x13, 0x13, .bool, .ro, .none, .same 0, .any⟩, -- LOS sticky
  ⟨0x14, 0x14, .u32, .ro, .none, .same 0, .any⟩, -- LOL events
  ⟨0x15, 0x15, .bool, .ro, .none, .same 0, .any⟩, -- LOL sticky
  ⟨0x16, 0x16, .u32, .ro, .none, .same 0, .any⟩, -- alignment losses
  ⟨0x17, 0x17, .bool, .ro, .none, .same 0, .any⟩, -- alignment-loss sticky
  ⟨0x18, 0x18, .u32, .ro, .none, .same 0, .any⟩, -- training fallbacks
  ⟨0x19, 0x19, .bool, .ro, .none, .same 0, .any⟩, -- fallback sticky
  ⟨0x1A, 0x1A, .u8, .wo, .live, .same 0, .nats [(1, 1)]⟩, -- command
  ⟨0x1B, 0x1B, .u8, .wo, .live, .same 0, .nats [(0, 31)]⟩, -- clear
  ⟨0x40, 0x40, .u16, .rw, .live, .same 800, .nats [(400, 400), (450, 450), (500, 500), (550, 550), (600, 600), (650, 650), (700, 700), (750, 750), (800, 800), (850, 850), (900, 900), (950, 950), (1000, 1000)]⟩, -- transmit swing
  ⟨0x41, 0x41, .u8, .rw, .live, .same 6, .nats [(0, 12)]⟩, -- transmit de-emphasis
  ⟨0x42, 0x42, .u8, .rw, .blocked, .same 0, .nats [(0, 1)]⟩, -- equaliser mode
  ⟨0x43, 0x43, .u8, .rw, .blocked, .same 16, .nats [(0, 30)]⟩, -- equaliser boost
  ⟨0x44, 0x44, .bool, .rw, .blocked, .same 0, .nats [(0, 1)]⟩, -- transmit polarity invert
  ⟨0x45, 0x45, .bool, .rw, .blocked, .same 0, .nats [(0, 1)]⟩, -- receive polarity invert
  ⟨0x46, 0x46, .u8, .rw, .live, .same 60, .nats [(40, 150)]⟩, -- LOS threshold
  ⟨0x47, 0x47, .u8, .rw, .blocked, .same 0, .nats [(0, 1)]⟩, -- alignment mode
  ⟨0x48, 0x48, .u8, .wo, .live, .same 0, .nats [(1, 1)]⟩, -- bit slip
  ⟨0x49, 0x49, .u8, .ro, .none, .same 0, .any⟩, -- slip position
  ⟨0x4A, 0x4A, .u16, .ro, .none, .same 0, .any⟩, -- valid-word count
  ⟨0x4B, 0x4B, .u8, .rw, .blocked, .same 0, .nats [(0, 1)]⟩, -- loopback
  ⟨0x4C, 0x4C, .u16, .rw, .blocked, .same 10, .nats [(1, 100)]⟩, -- training timeout
  ⟨0x4D, 0x4D, .u16, .rw, .blocked, .same 10, .nats [(2, 100)]⟩ -- ranging spread limit
  ]⟩

/-- Object 0x5550: spec/10_minak_frames.md, Table 10.10 - Lane frame object 0x5550 + l. -/
def obj5550 : OdObject := ⟨0x5550, 1, 32, 1, [
  ⟨0x01, 0x01, .u32, .ro, .none, .same 0, .any⟩, -- frames sent
  ⟨0x02, 0x02, .u32, .ro, .none, .same 0, .any⟩, -- frames-sent wrap count
  ⟨0x03, 0x03, .u32, .ro, .none, .same 0, .any⟩, -- invalid upstream frames
  ⟨0x04, 0x04, .bool, .ro, .none, .same 0, .any⟩, -- invalid-frame sticky
  ⟨0x05, 0x05, .u32, .ro, .none, .same 0, .any⟩, -- apply-sequence mismatches
  ⟨0x06, 0x06, .bool, .ro, .none, .same 0, .any⟩, -- apply-sequence sticky
  ⟨0x07, 0x07, .u32, .ro, .none, .same 0, .any⟩, -- cell echo mismatches
  ⟨0x08, 0x08, .bool, .ro, .none, .same 0, .any⟩, -- echo sticky
  ⟨0x09, 0x09, .u32, .ro, .none, .same 0, .any⟩, -- divergence reports
  ⟨0x0A, 0x0A, .bool, .ro, .none, .same 0, .any⟩, -- divergence sticky
  ⟨0x0B, 0x0B, .u32, .ro, .none, .same 0, .any⟩, -- downstream error reports
  ⟨0x0C, 0x0C, .bool, .ro, .none, .same 0, .any⟩, -- downstream-error sticky
  ⟨0x0D, 0x0D, .u32, .ro, .none, .same 0, .any⟩, -- hold reports
  ⟨0x0E, 0x0E, .bool, .ro, .none, .same 0, .any⟩, -- hold sticky
  ⟨0x0F, 0x0F, .u32, .ro, .none, .same 0, .any⟩, -- frame-loss block reports
  ⟨0x10, 0x10, .bool, .ro, .none, .same 0, .any⟩, -- frame-loss sticky
  ⟨0x11, 0x11, .u32, .ro, .none, .same 0, .any⟩, -- holder conflicts
  ⟨0x12, 0x12, .bool, .ro, .none, .same 0, .any⟩, -- holder-conflict sticky
  ⟨0x13, 0x13, .u32, .ro, .none, .same 0, .any⟩, -- taken from peer
  ⟨0x14, 0x14, .bool, .ro, .none, .same 0, .any⟩, -- taken-from-peer sticky
  ⟨0x15, 0x15, .u16, .ro, .none, .same 0, .any⟩, -- last upstream flags
  ⟨0x16, 0x16, .u16, .ro, .none, .same 0, .any⟩, -- last apply sequence
  ⟨0x17, 0x17, .u64, .ro, .none, .same 0, .any⟩, -- last divergence tick
  ⟨0x18, 0x18, .u8, .ro, .none, .same 0, .any⟩, -- frame-fault subcause
  ⟨0x19, 0x19, .u16, .wo, .live, .same 0, .nats [(0, 511)]⟩ -- clear
  ]⟩

/-- Object 0x5600: spec/03_measurement.md, Table 3.5 - Measurement object 0x5600. -/
def obj5600 : OdObject := ⟨0x5600, 1, 1, 1, [
  ⟨0x01, 0x01, .u8, .ro, .none, .same 0, .any⟩, -- reference state
  ⟨0x02, 0x02, .u16, .ro, .none, .same 0, .any⟩, -- warm-up remaining
  ⟨0x03, 0x03, .u32, .ro, .none, .same 0, .any⟩, -- valid map
  ⟨0x04, 0x04, .u32, .ro, .none, .same 0, .any⟩, -- overrun map
  ⟨0x05, 0x05, .u32, .ro, .none, .same 0, .any⟩, -- outside map
  ⟨0x06, 0x06, .u32, .ro, .none, .same 0, .any⟩, -- reference faults
  ⟨0x07, 0x07, .bool, .ro, .none, .same 0, .any⟩, -- reference-fault sticky
  ⟨0x08, 0x08, .u8, .wo, .live, .same 0, .nats [(1, 1)]⟩, -- clear
  ⟨0x40, 0x40, .bool, .rw, .restart, .same 1, .nats [(0, 1)]⟩, -- automatic sequencing
  ⟨0x41, 0x41, .bool, .rw, .blocked, .same 0, .nats [(0, 1)]⟩, -- buffer enable
  ⟨0x42, 0x42, .f32, .ro, .none, .same 0, .any⟩ -- reference deviation
  ]⟩

/-- Object 0x5601: spec/03_measurement.md, Table 3.6 - Channel object 0x5601 + ch. -/
def obj5601 : OdObject := ⟨0x5601, 1, 32, 1, [
  ⟨0x01, 0x01, .u8, .rw, .blocked, .same 1, .nats [(0, 2)]⟩, -- mode
  ⟨0x02, 0x02, .u16, .rw, .blocked, .same 0, .nats [(0, 4000)]⟩, -- trigger delay
  ⟨0x03, 0x03, .u8, .rw, .blocked, .same 1, .nats [(1, 8)]⟩, -- burst length
  ⟨0x04, 0x04, .u8, .ro, .none, .same 0, .any⟩, -- consumers
  ⟨0x05, 0x05, .f32, .rw, .live, .same 1065353216, .finite⟩, -- scale
  ⟨0x06, 0x06, .f32, .rw, .live, .same 0, .finite⟩, -- offset
  ⟨0x07, 0x07, .u8, .rw, .blocked, .same 0, .nats [(0, 3)]⟩, -- unit
  ⟨0x08, 0x08, .f32, .ro, .none, .same 0, .any⟩, -- calibrated value
  ⟨0x09, 0x09, .u32, .ro, .none, .same 0, .any⟩, -- result register
  ⟨0x0A, 0x0A, .f32, .rw, .live, .same 0xFF7FFFFF, .finite⟩, -- window low
  ⟨0x0B, 0x0B, .f32, .rw, .live, .same 0x7F7FFFFF, .finite⟩, -- window high
  ⟨0x0C, 0x0C, .f32, .rw, .live, .same 0, .finite⟩, -- window hysteresis
  ⟨0x0D, 0x0D, .u8, .rw, .live, .same 1, .nats [(1, 255)]⟩, -- window debounce
  ⟨0x0E, 0x0E, .bool, .rw, .live, .same 0, .nats [(0, 1)]⟩, -- window enable
  ⟨0x0F, 0x0F, .u8, .ro, .none, .same 3, .any⟩, -- window state
  ⟨0x10, 0x10, .u32, .ro, .none, .same 0, .any⟩, -- window exits
  ⟨0x11, 0x11, .bool, .ro, .none, .same 0, .any⟩, -- window-exit sticky
  ⟨0x12, 0x12, .u32, .ro, .none, .same 0, .any⟩, -- overruns
  ⟨0x13, 0x13, .bool, .ro, .none, .same 0, .any⟩, -- overrun sticky
  ⟨0x14, 0x14, .u32, .ro, .none, .same 0, .any⟩, -- clips
  ⟨0x15, 0x15, .bool, .ro, .none, .same 0, .any⟩, -- clip sticky
  ⟨0x16, 0x16, .u8, .ro, .none, .same 0, .any⟩, -- gain in force
  ⟨0x17, 0x17, .u32, .ro, .none, .same 0, .any⟩, -- gain switches
  ⟨0x18, 0x18, .bool, .ro, .none, .same 0, .any⟩, -- gain-switch sticky
  ⟨0x19, 0x19, .u8, .wo, .live, .same 0, .nats [(0, 15)]⟩, -- clear
  ⟨0x40, 0x40, .i32, .ro, .none, .same 0, .any⟩, -- last raw code
  ⟨0x41, 0x41, .i32, .const, .none, .part, .any⟩, -- factory offset ×1
  ⟨0x42, 0x42, .f32, .const, .none, .part, .any⟩, -- factory gain ×1
  ⟨0x43, 0x43, .i32, .const, .none, .part, .any⟩, -- factory offset ×16
  ⟨0x44, 0x44, .f32, .const, .none, .part, .any⟩, -- factory gain ×16
  ⟨0x45, 0x45, .f32, .rw, .blocked, .same 1065353216, .reals 0x3F7F7CEE 0x3F804189⟩, -- range match
  ⟨0x46, 0x46, .u8, .rw, .blocked, .same 0, .nats [(0, 2)]⟩, -- gain mode
  ⟨0x47, 0x47, .u16, .rw, .live, .same 60, .nats [(20, 1000)]⟩, -- down-switch hold
  ⟨0x48, 0x48, .f32, .ro, .none, .same 0, .any⟩, -- range deviation
  ⟨0x49, 0x49, .u8, .wo, .blocked, .same 0, .nats [(1, 1)]⟩ -- overlap check
  ]⟩

/-- Object 0x5700: spec/15_protection_and_safety.md, Table 15.13 - Comparator status object 0x5700. -/
def obj5700 : OdObject := ⟨0x5700, 1, 1, 1, [
  ⟨0x01, 0x01, .u16, .ro, .none, .same 0, .any⟩, -- tripped pairs
  ⟨0x02, 0x02, .u32, .ro, .none, .same 0, .any⟩, -- failed comparators
  ⟨0x03, 0x03, .u8, .ro, .none, .same 255, .any⟩, -- comparator under test
  ⟨0x04, 0x04, .u8, .ro, .none, .same 3, .any⟩, -- BLOCK_OUT state
  ⟨0x05, 0x05, .u32, .ro, .none, .same 0, .any⟩, -- trips
  ⟨0x06, 0x06, .bool, .ro, .none, .same 0, .any⟩, -- trip sticky
  ⟨0x07, 0x07, .u32, .ro, .none, .same 0, .any⟩, -- tests run
  ⟨0x08, 0x08, .u32, .ro, .none, .same 0, .any⟩, -- tests wrap count
  ⟨0x09, 0x09, .u32, .ro, .none, .same 0, .any⟩, -- test failures
  ⟨0x0A, 0x0A, .bool, .ro, .none, .same 0, .any⟩, -- test-failure sticky
  ⟨0x0B, 0x0B, .u32, .ro, .none, .same 0, .any⟩, -- read-back mismatches
  ⟨0x0C, 0x0C, .bool, .ro, .none, .same 0, .any⟩, -- mismatch sticky
  ⟨0x0D, 0x0D, .u8, .wo, .live, .same 0, .nats [(0, 7)]⟩, -- clear
  ⟨0x0E, 0x0E, .u64, .ro, .none, .same 0, .any⟩ -- last trip tick
  ]⟩

/-- Object 0x5800: spec/19_core_power.md, Table 19.8 - Core-power object 0x5800. -/
def obj5800 : OdObject := ⟨0x5800, 1, 1, 1, [
  ⟨0x01, 0x01, .u8, .ro, .none, .same 3, .any⟩, -- regulator state
  ⟨0x02, 0x02, .u8, .ro, .none, .same 0, .any⟩, -- detected phases
  ⟨0x03, 0x03, .u8, .ro, .none, .same 0, .any⟩, -- active phases
  ⟨0x04, 0x04, .u16, .ro, .none, .same 0, .any⟩, -- latched switches
  ⟨0x05, 0x05, .u8, .ro, .none, .same 0, .any⟩, -- last latch cause
  ⟨0x06, 0x06, .f32, .ro, .none, .same 0, .any⟩, -- output voltage
  ⟨0x07, 0x07, .f32, .ro, .none, .same 0, .any⟩, -- output current
  ⟨0x08, 0x08, .u32, .ro, .none, .same 0, .any⟩, -- hiccups
  ⟨0x09, 0x09, .bool, .ro, .none, .same 0, .any⟩, -- hiccup sticky
  ⟨0x0A, 0x0A, .u32, .ro, .none, .same 0, .any⟩, -- short trips
  ⟨0x0B, 0x0B, .bool, .ro, .none, .same 0, .any⟩, -- short sticky
  ⟨0x0C, 0x0C, .u32, .ro, .none, .same 0, .any⟩, -- lock-outs
  ⟨0x0D, 0x0D, .bool, .ro, .none, .same 0, .any⟩, -- lock-out sticky
  ⟨0x0E, 0x0E, .u32, .ro, .none, .same 0, .any⟩, -- forced refreshes
  ⟨0x0F, 0x0F, .bool, .ro, .none, .same 0, .any⟩, -- refresh sticky
  ⟨0x10, 0x10, .u32, .ro, .none, .same 0, .any⟩, -- dropped pulses
  ⟨0x11, 0x11, .bool, .ro, .none, .same 0, .any⟩, -- dropped sticky
  ⟨0x12, 0x12, .u32, .ro, .none, .same 0, .any⟩, -- stretched pulses
  ⟨0x13, 0x13, .bool, .ro, .none, .same 0, .any⟩, -- stretched sticky
  ⟨0x14, 0x14, .u32, .ro, .none, .same 0, .any⟩, -- split updates
  ⟨0x15, 0x15, .bool, .ro, .none, .same 0, .any⟩, -- split sticky
  ⟨0x16, 0x16, .u32, .ro, .none, .same 0, .any⟩, -- shed aborts
  ⟨0x17, 0x17, .bool, .ro, .none, .same 0, .any⟩, -- abort sticky
  ⟨0x18, 0x18, .u32, .ro, .none, .same 0, .any⟩, -- braking events
  ⟨0x19, 0x19, .bool, .ro, .none, .same 0, .any⟩, -- braking sticky
  ⟨0x1A, 0x1A, .u16, .wo, .live, .same 0, .nats [(0, 511)]⟩, -- clear
  ⟨0x1B, 0x1B, .u8, .wo, .live, .same 0, .nats [(1, 6)]⟩, -- comparator test
  ⟨0x1C, 0x1C, .u32, .ro, .none, .same 0, .any⟩, -- comparator failures
  ⟨0x1D, 0x1D, .u32, .ro, .none, .same 0, .any⟩, -- last latch time
  ⟨0x20, 0x25, .f32, .ro, .none, .same 0, .any⟩, -- phase current
  ⟨0x40, 0x40, .f32, .rw, .restart, .same 1061158912, .reals 0x3F333333 0x3F4CCCCD⟩, -- setpoint
  ⟨0x41, 0x41, .u16, .rw, .restart, .same 2000, .nats [(500, 10000)]⟩, -- soft-start ramp
  ⟨0x42, 0x42, .u16, .rw, .live, .same 800, .nats [(700, 900)]⟩, -- switching frequency
  ⟨0x43, 0x43, .u16, .rw, .restart, .same 0x1F40, .nats [(2000, 20000)]⟩, -- dead time
  ⟨0x44, 0x44, .u16, .rw, .restart, .same 0x9C40, .nats [(20000, 100000)]⟩, -- minimum off-time
  ⟨0x45, 0x45, .f32, .rw, .restart, .same 1109393408, .reals 0x41A00000 0x42480000⟩, -- soft short threshold
  ⟨0x46, 0x46, .f32, .rw, .restart, .same 1114636288, .finite⟩, -- hard short threshold
  ⟨0x47, 0x47, .u32, .rw, .restart, .same 0x186A0, .nats [(20000, 500000)]⟩, -- blanking time
  ⟨0x48, 0x48, .f32, .rw, .live, .same 1097859072, .reals 0x40A00000 0x41C80000⟩, -- add threshold
  ⟨0x49, 0x49, .f32, .rw, .live, .same 1092616192, .finite⟩, -- shed threshold
  ⟨0x4A, 0x4A, .u16, .rw, .live, .same 1000, .nats [(100, 10000)]⟩, -- shed delay
  ⟨0x4B, 0x4B, .u8, .rw, .live, .same 2, .nats [(1, 6)]⟩, -- minimum phases
  ⟨0x4C, 0x4C, .u16, .rw, .live, .same 100, .nats [(0, 1000)]⟩, -- anticipation lead
  ⟨0x4D, 0x4D, .f32, .rw, .live, .same 1094713344, .reals 0x0 0x42200000⟩, -- anticipation current
  ⟨0x4E, 0x4E, .f32, .rw, .live, .same 1103626240, .reals 0x41200000 0x42960000⟩, -- braking threshold
  ⟨0x4F, 0x4F, .f32, .rw, .live, .same 1092616192, .finite⟩, -- braking exit
  ⟨0x50, 0x50, .u16, .rw, .restart, .same 0xEA60, .nats [(20000, 200000)]⟩, -- refresh pulse
  ⟨0x51, 0x51, .u8, .rw, .live, .same 0, .nats [(0, 1)]⟩, -- transfer mode
  ⟨0x52, 0x52, .f32, .rw, .restart, .same 1184645120, .reals 0x459C4000 0x47435000⟩, -- sense ratio
  ⟨0x53, 0x53, .f32, .rw, .live, .same 1097859072, .reals 0x40A00000 0x42480000⟩, -- load-step threshold
  ⟨0x54, 0x54, .u8, .rw, .restart, .same 63, .any⟩ -- expected phases
  ]⟩

/-- Object 0x5900: spec/19_core_power.md, Table 19.10 - Holdup object 0x5900. -/
def obj5900 : OdObject := ⟨0x5900, 1, 1, 1, [
  ⟨0x01, 0x01, .u8, .ro, .none, .same 0, .any⟩, -- store state
  ⟨0x02, 0x02, .f32, .ro, .none, .same 0, .any⟩, -- store voltage
  ⟨0x03, 0x03, .f32, .ro, .none, .same 0, .any⟩, -- capacitance
  ⟨0x04, 0x04, .f32, .ro, .none, .same 0, .any⟩, -- ESR
  ⟨0x05, 0x05, .u32, .ro, .none, .same 0xFFFFFFFF, .any⟩, -- measurement age
  ⟨0x06, 0x06, .u8, .ro, .none, .same 16, .any⟩, -- health
  ⟨0x07, 0x07, .u32, .ro, .none, .same 0, .any⟩, -- measurements
  ⟨0x08, 0x08, .bool, .ro, .none, .same 0, .any⟩, -- measurement sticky
  ⟨0x09, 0x09, .u32, .ro, .none, .same 0, .any⟩, -- health failures
  ⟨0x0A, 0x0A, .bool, .ro, .none, .same 0, .any⟩, -- health sticky
  ⟨0x0B, 0x0B, .u32, .ro, .none, .same 0, .any⟩, -- supply losses
  ⟨0x0C, 0x0C, .bool, .ro, .none, .same 0, .any⟩, -- supply-loss sticky
  ⟨0x0D, 0x0D, .u8, .wo, .live, .same 0, .nats [(0, 7)]⟩, -- clear
  ⟨0x0E, 0x0E, .u8, .wo, .live, .same 0, .nats [(1, 1)]⟩, -- measure now
  ⟨0x40, 0x40, .f32, .rw, .live, .same 1063675494, .reals 0x3F000000 0x40966666⟩, -- minimum capacitance
  ⟨0x41, 0x41, .f32, .rw, .live, .same 1056964608, .reals 0x3D4CCCCD 0x40000000⟩, -- maximum ESR
  ⟨0x42, 0x42, .u16, .rw, .live, .same 24, .nats [(1, 168)]⟩ -- measurement interval
  ]⟩

/-- Object 0x5A00: spec/18_barrier_channels.md, Table 18.8 - Barrier object 0x5A00. -/
def obj5A00 : OdObject := ⟨0x5A00, 1, 1, 1, [
  ⟨0x01, 0x01, .u8, .ro, .none, .same 0, .any⟩, -- link state
  ⟨0x02, 0x02, .u8, .ro, .none, .same 0, .any⟩, -- lanes trained
  ⟨0x03, 0x03, .u32, .ro, .none, .same 0, .any⟩, -- channel states
  ⟨0x04, 0x04, .u32, .const, .none, .part, .any⟩, -- binding table CRC
  ⟨0x05, 0x05, (.domain 768), .ro, .none, .same 0, .any⟩, -- channel table
  ⟨0x06, 0x06, .u32, .ro, .none, .same 0, .any⟩, -- lane failures
  ⟨0x07, 0x07, .bool, .ro, .none, .same 0, .any⟩, -- lane-failure sticky
  ⟨0x08, 0x08, .u32, .ro, .none, .same 0, .any⟩, -- resends
  ⟨0x09, 0x09, .bool, .ro, .none, .same 0, .any⟩, -- resend sticky
  ⟨0x0A, 0x0A, .u8, .wo, .live, .same 0, .nats [(0, 3)]⟩, -- clear
  ⟨0x0B, 0x0B, .u16, .wo, .live, .same 0, .any⟩, -- channel clear
  ⟨0x40, 0x40, .u8, .rw, .blocked, .same 0, .nats [(0, 2)]⟩ -- lane test
  ]⟩

/-- Object 0x5B00: spec/20_recorder_and_health.md, Table 20.8 - Clock object 0x5B00. -/
def obj5B00 : OdObject := ⟨0x5B00, 1, 1, 1, [
  ⟨0x01, 0x01, .u8, .ro, .none, .same 0, .any⟩, -- plant synthesiser state
  ⟨0x02, 0x02, .f32, .ro, .none, .same 0, .any⟩, -- lock quality
  ⟨0x03, 0x03, .u32, .ro, .none, .same 0, .any⟩, -- lock losses
  ⟨0x04, 0x04, .bool, .ro, .none, .same 0, .any⟩, -- lock-loss sticky
  ⟨0x05, 0x05, .u32, .ro, .none, .same 0, .any⟩, -- phase steps
  ⟨0x06, 0x06, .u32, .ro, .none, .same 0, .any⟩, -- phase-step wrap count
  ⟨0x07, 0x07, .u8, .wo, .live, .same 0, .nats [(1, 1)]⟩, -- clear
  ⟨0x40, 0x40, .u16, .const, .none, .same 200, .any⟩, -- lock limit
  ⟨0x41, 0x41, .f32, .ro, .none, .same 0, .any⟩ -- VCO tuning
  ]⟩

/-- Object 0x6000: spec/12_metering.md, Table 12.7 - Metering object 0x6000. -/
def obj6000 : OdObject := ⟨0x6000, 1, 1, 1, [
  ⟨0x01, 0x01, .u8, .ro, .none, .same 0, .any⟩, -- metering state
  ⟨0x02, 0x02, .bool, .const, .none, .part, .any⟩, -- sealed
  ⟨0x03, 0x03, .u32, .ro, .none, .part, .any⟩, -- metering version
  ⟨0x04, 0x04, .u16, .rw, .live, .same 1000, .nats [(100, 10000)]⟩, -- save interval
  ⟨0x05, 0x05, .u8, .rw, .blocked, .same 50, .nats [(50, 50), (60, 60)]⟩, -- nominal frequency
  ⟨0x06, 0x06, .u16, .const, .none, .same 40, .any⟩, -- crossing timeout
  ⟨0x07, 0x07, .u8, .rw, .live, .same 0, .nats [(0, 1)]⟩, -- grouping mode
  ⟨0x08, 0x08, .u64, .ro, .none, .same 0, .any⟩, -- last save tick
  ⟨0x09, 0x09, .u32, .ro, .none, .same 0, .any⟩, -- saves
  ⟨0x0A, 0x0A, .bool, .ro, .none, .same 0, .any⟩, -- save sticky
  ⟨0x0C, 0x0C, .bool, .ro, .none, .same 0, .any⟩, -- endgame ready
  ⟨0x0D, 0x0D, .f32, .ro, .none, .same 0, .any⟩, -- store energy available
  ⟨0x0E, 0x0E, .f32, .const, .none, .same 1061997773, .any⟩, -- endgame energy
  ⟨0x0F, 0x0F, .u32, .ro, .none, .same 0, .any⟩, -- unsaved restarts
  ⟨0x10, 0x10, .bool, .ro, .none, .same 0, .any⟩, -- unsaved sticky
  ⟨0x11, 0x11, .bool, .ro, .none, .same 0, .any⟩, -- metering lock
  ⟨0x12, 0x12, .u8, .rws, .live, .same 0, .nats [(1, 2)]⟩, -- lock command
  ⟨0x13, 0x13, .u32, .ro, .none, .same 0, .any⟩, -- sealed parameter CRC
  ⟨0x14, 0x14, .u8, .wo, .live, .same 0, .nats [(0, 3)]⟩, -- clear
  ⟨0x15, 0x15, .u8, .rws, .live, .same 0, .nats [(1, 1)]⟩ -- meter-fault acknowledge
  ]⟩

/-- Object 0x6001: spec/12_metering.md, Table 12.8 - Metering point object 0x6001 + p. -/
def obj6001 : OdObject := ⟨0x6001, 1, 2, 1, [
  ⟨0x01, 0x01, .u32, .rw, .blocked, .same 0xFFFFFFFF, .any⟩, -- AC voltage channels
  ⟨0x02, 0x02, .u32, .rw, .blocked, .same 0xFFFFFFFF, .any⟩, -- AC current channels
  ⟨0x03, 0x03, .u8, .rw, .blocked, .same 255, .nats [(0, 31), (255, 255)]⟩, -- DC voltage channel
  ⟨0x04, 0x04, .u8, .rw, .blocked, .same 255, .nats [(0, 31), (255, 255)]⟩, -- DC current channel
  ⟨0x05, 0x05, .f32, .rw, .blocked, .same 1148846080, .finite⟩, -- rated AC current
  ⟨0x06, 0x06, .f32, .rw, .blocked, .same 1133903872, .finite⟩, -- rated AC voltage
  ⟨0x07, 0x07, .f32, .rw, .blocked, .same 1148846080, .finite⟩, -- rated DC current
  ⟨0x08, 0x08, .f32, .rw, .blocked, .same 1150681088, .finite⟩, -- bound power
  ⟨0x09, 0x09, .f32, .rw, .blocked, .same 981668463, .reals 0x3A03126F 0x3C23D70A⟩, -- creep threshold
  ⟨0x0A, 0x0A, .u8, .ro, .none, .same 1, .any⟩, -- window state
  ⟨0x0B, 0x0B, .u32, .ro, .none, .same 0, .any⟩, -- last window length
  ⟨0x0C, 0x0C, .u32, .ro, .none, .same 0, .any⟩, -- fixed windows
  ⟨0x0D, 0x0D, .bool, .ro, .none, .same 0, .any⟩, -- fixed sticky
  ⟨0x0E, 0x0E, .u32, .ro, .none, .same 0, .any⟩, -- doubtful windows
  ⟨0x0F, 0x0F, .bool, .ro, .none, .same 0, .any⟩, -- doubtful sticky
  ⟨0x10, 0x10, .u32, .ro, .none, .same 0, .any⟩, -- creep windows
  ⟨0x11, 0x11, .bool, .ro, .none, .same 0, .any⟩, -- creep sticky
  ⟨0x12, 0x12, .u8, .wo, .live, .same 0, .nats [(0, 7)]⟩ -- clear
  ]⟩

/-- Object 0x6010: spec/12_metering.md, Table 12.9 - Accumulators 0x6010 + p and legacy registers 0x6018 + p. -/
def obj6010 : OdObject := ⟨0x6010, 1, 2, 1, [
  ⟨0x01, 0x12, .u64, .ro, .none, .same 0, .any⟩, -- accumulator k
  ⟨0x13, 0x24, .u32, .ro, .none, .same 0, .any⟩, -- wrap count of k
  ⟨0x25, 0x25, .u64, .ro, .none, .same 0, .any⟩, -- last close tick
  ⟨0x26, 0x26, .u16, .ro, .none, .same 0, .any⟩ -- last window quality
  ]⟩

/-- Object 0x6018: spec/12_metering.md, Table 12.9 - Accumulators 0x6010 + p and legacy registers 0x6018 + p. -/
def obj6018 : OdObject := ⟨0x6018, 1, 2, 1, [
  ⟨0x01, 0x12, .u32, .ro, .none, .same 0, .any⟩, -- legacy value k
  ⟨0x13, 0x24, .u32, .ro, .none, .same 0, .any⟩ -- rollover count of k
  ]⟩

/-- Object 0x6040: spec/12_metering.md, Table 12.10 - Harmonic object 0x6040 + ch. -/
def obj6040 : OdObject := ⟨0x6040, 1, 12, 1, [
  ⟨0x01, 0x01, (.domain 2048), .ro, .none, .same 0, .any⟩, -- spectrum
  ⟨0x02, 0x02, .f32, .ro, .none, .same 0, .any⟩, -- THD to order 50
  ⟨0x03, 0x03, .f32, .ro, .none, .same 0, .any⟩, -- THD to order 511
  ⟨0x04, 0x04, .u64, .ro, .none, .same 0, .any⟩, -- window close tick
  ⟨0x05, 0x05, .u16, .ro, .none, .same 0, .any⟩, -- window quality
  ⟨0x06, 0x06, .f32, .ro, .none, .same 0, .any⟩ -- fundamental frequency
  ]⟩

/-- Object 0x6060: spec/12_metering.md, Table 12.11 - Pulse output object 0x6060 + o. -/
def obj6060 : OdObject := ⟨0x6060, 1, 8, 1, [
  ⟨0x01, 0x01, .u8, .rw, .live, .same 255, .nats [(0, 1), (255, 255)]⟩, -- source pole
  ⟨0x02, 0x02, .u8, .rw, .live, .same 7, .nats [(1, 18)]⟩, -- source register
  ⟨0x03, 0x03, .f32, .rw, .live, .same 1148846080, .finite⟩, -- weight
  ⟨0x04, 0x04, .f32, .rw, .live, .same 1092616192, .reals 0x3DCCCCCD 0x44FA0000⟩, -- pulse rate limit
  ⟨0x05, 0x05, .u32, .rw, .live, .same 0x4E20, .nats [(250, 250000)]⟩, -- pulse width
  ⟨0x06, 0x06, .u16, .ro, .none, .same 0, .any⟩, -- backlog
  ⟨0x07, 0x07, .bool, .ro, .none, .same 0, .any⟩, -- backlog sticky
  ⟨0x08, 0x08, .u32, .ro, .none, .same 0, .any⟩, -- pulses emitted
  ⟨0x09, 0x09, .u32, .ro, .none, .same 0, .any⟩, -- emitted wrap count
  ⟨0x0A, 0x0A, .u8, .wo, .live, .same 0, .nats [(1, 1)]⟩ -- clear
  ]⟩

/-- Object 0x6070: spec/12_metering.md, Table 12.12 - Meter log object 0x6070. -/
def obj6070 : OdObject := ⟨0x6070, 1, 1, 1, [
  ⟨0x01, 0x01, (.domain 32768), .ro, .none, .same 0, .any⟩, -- log
  ⟨0x02, 0x02, .u32, .ro, .none, .same 0, .any⟩, -- newest sequence
  ⟨0x03, 0x03, .u32, .ro, .none, .same 0, .any⟩, -- overwritten entries
  ⟨0x04, 0x04, .bool, .ro, .none, .same 0, .any⟩, -- overwrite sticky
  ⟨0x05, 0x05, .u8, .rws, .live, .same 0, .nats [(1, 1)]⟩ -- clear
  ]⟩

/-- Object 0x7000: spec/15_protection_and_safety.md, Table 15.14 - Safe Block object 0x7000. -/
def obj7000 : OdObject := ⟨0x7000, 1, 1, 1, [
  ⟨0x01, 0x01, .u8, .ro, .none, .same 1, .any⟩, -- Safe Block state
  ⟨0x02, 0x02, .u8, .ro, .none, .same 1, .any⟩, -- channel 2 state
  ⟨0x03, 0x03, .u8, .ro, .none, .same 0, .any⟩, -- sources present
  ⟨0x04, 0x04, .u32, .ro, .none, .same 0, .any⟩, -- configuration CRC
  ⟨0x05, 0x05, .bool, .ro, .none, .same 0, .any⟩, -- configuration valid
  ⟨0x06, 0x06, .u8, .rws, .blocked, .same 0, .nats [(0, 1)]⟩, -- start mode
  ⟨0x07, 0x07, .bool, .rws, .blocked, .same 0, .nats [(0, 1)]⟩, -- FSoE request enable
  ⟨0x08, 0x08, .bool, .rws, .blocked, .same 0, .nats [(0, 1)]⟩, -- FSoE reset enable
  ⟨0x09, 0x09, .u16, .rws, .blocked, .same 100, .nats [(10, 1000)]⟩, -- comparator test interval
  ⟨0x0A, 0x0A, .u8, .ro, .none, .same 0, .any⟩, -- SAFE_RESET state
  ⟨0x0B, 0x0B, .u32, .ro, .none, .same 0, .any⟩, -- requests
  ⟨0x0C, 0x0C, .bool, .ro, .none, .same 0, .any⟩, -- request sticky
  ⟨0x0D, 0x0D, .u32, .ro, .none, .same 0, .any⟩, -- resets accepted
  ⟨0x0E, 0x0E, .bool, .ro, .none, .same 0, .any⟩, -- accepted sticky
  ⟨0x0F, 0x0F, .u32, .ro, .none, .same 0, .any⟩, -- resets refused
  ⟨0x10, 0x10, .bool, .ro, .none, .same 0, .any⟩, -- refused sticky
  ⟨0x11, 0x11, .u32, .ro, .none, .same 0, .any⟩, -- stuck events
  ⟨0x12, 0x12, .bool, .ro, .none, .same 0, .any⟩, -- stuck sticky
  ⟨0x13, 0x13, .u8, .wo, .live, .same 0, .nats [(0, 15)]⟩ -- clear
  ]⟩

/-- Object 0x7001: spec/15_protection_and_safety.md, Table 15.15 - Session object 0x7001 and change-log object 0x7002. -/
def obj7001 : OdObject := ⟨0x7001, 1, 1, 1, [
  ⟨0x01, 0x01, (.octets 64), .wo, .live, .same 0, .any⟩, -- open
  ⟨0x02, 0x02, .u8, .wo, .live, .same 0, .nats [(1, 1)]⟩, -- close
  ⟨0x03, 0x03, (.octets 64), .rws, .live, .same 0, .any⟩, -- new passphrase
  ⟨0x04, 0x04, .u8, .ro, .none, .same 0, .any⟩, -- session state
  ⟨0x05, 0x05, .u32, .ro, .none, .same 0, .any⟩, -- session number
  ⟨0x06, 0x06, .u16, .rws, .blocked, .same 600, .nats [(60, 3600)]⟩, -- idle time
  ⟨0x07, 0x07, .u8, .rws, .live, .same 0, .nats [(1, 2)]⟩, -- commit
  ⟨0x08, 0x08, .u32, .ro, .none, .same 0, .any⟩, -- pending CRC
  ⟨0x09, 0x09, .u32, .ro, .none, .same 0, .any⟩, -- failed openings
  ⟨0x0A, 0x0A, .bool, .ro, .none, .same 0, .any⟩, -- failed-opening sticky
  ⟨0x0B, 0x0B, .u16, .ro, .none, .same 0, .any⟩, -- lockout remaining
  ⟨0x0C, 0x0C, .bool, .ro, .none, .same 0, .any⟩, -- passphrase set
  ⟨0x0D, 0x0D, .u8, .wo, .live, .same 0, .nats [(1, 1)]⟩ -- clear
  ]⟩

/-- Object 0x7002: spec/15_protection_and_safety.md, Table 15.15 - Session object 0x7001 and change-log object 0x7002. -/
def obj7002 : OdObject := ⟨0x7002, 1, 1, 1, [
  ⟨0x01, 0x01, (.domain 131072), .ro, .none, .same 0, .any⟩, -- log
  ⟨0x02, 0x02, .u16, .ro, .none, .same 0, .any⟩, -- entries held
  ⟨0x03, 0x03, .u32, .rws, .live, .same 0, .any⟩, -- acknowledge
  ⟨0x04, 0x04, .u32, .ro, .none, .same 0, .any⟩ -- newest sequence
  ]⟩

/-- Object 0x7010: spec/15_protection_and_safety.md, Table 15.16 - Input objects 0x7010 + i and output objects 0x7018 + o. -/
def obj7010 : OdObject := ⟨0x7010, 1, 8, 1, [
  ⟨0x01, 0x01, .u8, .rws, .blocked, .inst [1, 0, 0, 0, 0, 0, 0, 0], .any⟩, -- function
  ⟨0x02, 0x02, .u16, .rws, .blocked, .same 1000, .nats [(100, 20000)]⟩, -- filter time
  ⟨0x03, 0x03, .u16, .rws, .blocked, .same 50, .nats [(5, 1000)]⟩, -- discrepancy time
  ⟨0x04, 0x04, .u8, .ro, .none, .same 0, .any⟩, -- input state
  ⟨0x05, 0x05, .u32, .ro, .none, .same 0, .any⟩, -- discrepancies
  ⟨0x06, 0x06, .bool, .ro, .none, .same 0, .any⟩, -- discrepancy sticky
  ⟨0x07, 0x07, .u8, .wo, .live, .same 0, .nats [(1, 1)]⟩ -- clear
  ]⟩

/-- Object 0x7018: spec/15_protection_and_safety.md, Table 15.16 - Input objects 0x7010 + i and output objects 0x7018 + o. -/
def obj7018 : OdObject := ⟨0x7018, 1, 4, 1, [
  ⟨0x01, 0x01, .u8, .rws, .blocked, .same 0, .any⟩, -- function
  ⟨0x02, 0x02, .u16, .rws, .blocked, .same 0, .nats [(0, 0), (100, 1000)]⟩, -- test pulse width
  ⟨0x03, 0x03, .u8, .ro, .none, .same 0, .any⟩, -- output state
  ⟨0x04, 0x04, .u32, .ro, .none, .same 0, .any⟩, -- output faults
  ⟨0x05, 0x05, .bool, .ro, .none, .same 0, .any⟩, -- fault sticky
  ⟨0x06, 0x06, .u8, .wo, .live, .same 0, .nats [(1, 1)]⟩ -- clear
  ]⟩

/-- Object 0x7020: spec/15_protection_and_safety.md, Table 15.17 - Comparator pair object 0x7020 + j. -/
def obj7020 : OdObject := ⟨0x7020, 1, 12, 1, [
  ⟨0x01, 0x01, .bool, .rws, .blocked, .same 0, .nats [(0, 1)]⟩, -- enable
  ⟨0x02, 0x02, .u16, .rws, .blocked, .same 0, .nats [(0, 1023)]⟩, -- low threshold
  ⟨0x03, 0x03, .u16, .rws, .blocked, .same 1023, .nats [(0, 1023)]⟩, -- high threshold
  ⟨0x04, 0x04, .u8, .rws, .blocked, .same 4, .nats [(1, 64)]⟩, -- qualification
  ⟨0x05, 0x05, .u16, .rws, .blocked, .same 0, .any⟩, -- arm mask
  ⟨0x06, 0x06, .u16, .rws, .blocked, .same 0, .nats [(0, 3999)]⟩, -- window 1 start
  ⟨0x07, 0x07, .u16, .rws, .blocked, .same 0, .nats [(0, 800)]⟩, -- window 1 length
  ⟨0x08, 0x08, .u16, .rws, .blocked, .same 0, .nats [(0, 3999)]⟩, -- window 2 start
  ⟨0x09, 0x09, .u16, .rws, .blocked, .same 0, .nats [(0, 800)]⟩, -- window 2 length
  ⟨0x0A, 0x0A, .u8, .ro, .none, .same 0, .any⟩ -- pair state
  ]⟩

/-- Object 0x7030: spec/15_protection_and_safety.md, Table 15.18 - Zero-energy object 0x7030 and FSoE object 0x7040. -/
def obj7030 : OdObject := ⟨0x7030, 1, 1, 1, [
  ⟨0x01, 0x01, .u8, .ro, .none, .same 0, .any⟩, -- state
  ⟨0x02, 0x02, .f32, .rws, .blocked, .same 1114636288, .reals 0x41200000 0x42700000⟩, -- cell voltage threshold
  ⟨0x03, 0x03, .f32, .rws, .blocked, .same 1073741824, .reals 0x3DCCCCCD 0x41A00000⟩, -- DC voltage threshold
  ⟨0x04, 0x04, .u16, .rws, .blocked, .same 10, .nats [(1, 600)]⟩, -- hold time
  ⟨0x05, 0x05, .u8, .ro, .none, .same 127, .any⟩, -- failed conditions
  ⟨0x06, 0x06, .f32, .ro, .none, .same 0, .any⟩, -- highest cell voltage
  ⟨0x07, 0x07, .u32, .ro, .none, .same 0, .any⟩, -- permits
  ⟨0x08, 0x08, .bool, .ro, .none, .same 0, .any⟩, -- permit sticky
  ⟨0x09, 0x09, .u8, .wo, .live, .same 0, .nats [(1, 1)]⟩ -- clear
  ]⟩

/-- Object 0x7040: spec/15_protection_and_safety.md, Table 15.18 - Zero-energy object 0x7030 and FSoE object 0x7040. -/
def obj7040 : OdObject := ⟨0x7040, 1, 1, 1, [
  ⟨0x01, 0x01, .u16, .rws, .blocked, .same 0, .any⟩, -- FSoE address
  ⟨0x02, 0x02, .u16, .rws, .blocked, .same 50, .nats [(2, 1000)]⟩, -- watchdog time
  ⟨0x03, 0x03, .u8, .ro, .none, .same 0, .any⟩, -- connection state
  ⟨0x04, 0x04, .u16, .ro, .none, .same 0, .any⟩, -- received safe data
  ⟨0x05, 0x05, .u32, .ro, .none, .same 0, .any⟩, -- sent safe data
  ⟨0x06, 0x06, .u32, .ro, .none, .same 0, .any⟩, -- connection faults
  ⟨0x07, 0x07, .bool, .ro, .none, .same 0, .any⟩, -- fault sticky
  ⟨0x08, 0x08, .u8, .wo, .live, .same 0, .nats [(1, 1)]⟩ -- clear
  ]⟩

/-- Object 0x8000: spec/13_twin_and_lease.md, Table 13.16 - Twin object 0x8000. -/
def obj8000 : OdObject := ⟨0x8000, 1, 1, 1, [
  ⟨0x01, 0x01, .u8, .wo, .live, .same 0, .nats [(1, 5)]⟩, -- command
  ⟨0x02, 0x02, .u8, .ro, .none, .same 0, .any⟩, -- command result
  ⟨0x03, 0x03, .u64, .ro, .none, .same 0, .any⟩, -- castling tick
  ⟨0x04, 0x04, .u16, .ro, .none, .same 0, .any⟩, -- refusal reason
  ⟨0x05, 0x05, .u8, .ro, .none, .same 0, .any⟩, -- consecutive failed resyncs
  ⟨0x06, 0x06, .u32, .ro, .none, .same 0, .any⟩, -- castlings
  ⟨0x07, 0x07, .bool, .ro, .none, .same 0, .any⟩, -- castling sticky
  ⟨0x08, 0x08, .u32, .ro, .none, .same 0, .any⟩, -- takeovers
  ⟨0x09, 0x09, .bool, .ro, .none, .same 0, .any⟩, -- takeover sticky
  ⟨0x0A, 0x0A, .u32, .ro, .none, .same 0, .any⟩, -- resync failures
  ⟨0x0B, 0x0B, .bool, .ro, .none, .same 0, .any⟩, -- resync-failure sticky
  ⟨0x0C, 0x0C, .u32, .ro, .none, .same 0, .any⟩, -- hash mismatches
  ⟨0x0D, 0x0D, .bool, .ro, .none, .same 0, .any⟩, -- hash sticky
  ⟨0x0E, 0x0E, .u32, .ro, .none, .same 0, .any⟩, -- missing tick records
  ⟨0x0F, 0x0F, .bool, .ro, .none, .same 0, .any⟩, -- missing-record sticky
  ⟨0x10, 0x10, .u32, .ro, .none, .same 0, .any⟩, -- disputes
  ⟨0x11, 0x11, .bool, .ro, .none, .same 0, .any⟩, -- dispute sticky
  ⟨0x12, 0x12, .u8, .wo, .live, .same 0, .nats [(0, 63)]⟩, -- clear
  ⟨0x13, 0x13, .u64, .ro, .none, .same 0, .any⟩, -- last takeover tick
  ⟨0x40, 0x40, .u16, .rw, .blocked, .same 1024, .nats [(256, 65535)]⟩, -- verification length
  ⟨0x41, 0x41, .u16, .rw, .live, .same 200, .nats [(50, 2000)]⟩, -- castling grant timeout
  ⟨0x42, 0x42, .u8, .rw, .live, .same 8, .nats [(2, 64)]⟩, -- dispute confirm count
  ⟨0x43, 0x43, .u16, .rw, .live, .same 10, .nats [(2, 1000)]⟩, -- cold-start wait
  ⟨0x44, 0x44, .u8, .rw, .live, .same 3, .nats [(1, 10)]⟩ -- resync attempt limit
  ]⟩

/-- Object 0x8001: spec/13_twin_and_lease.md, Table 13.17 - Lease object 0x8001. -/
def obj8001 : OdObject := ⟨0x8001, 1, 1, 1, [
  ⟨0x01, 0x01, .u8, .ro, .none, .same 0, .any⟩, -- lease state
  ⟨0x02, 0x02, .u32, .ro, .none, .same 1000, .any⟩, -- lease duration in force
  ⟨0x03, 0x03, .u16, .rw, .live, .same 200, .nats [(50, 2500)]⟩, -- renewal period
  ⟨0x04, 0x04, .u32, .ro, .none, .same 0, .any⟩, -- validity remaining
  ⟨0x05, 0x05, .u8, .ro, .none, .same 0, .any⟩, -- holder per arbiter
  ⟨0x06, 0x06, .u32, .ro, .none, .same 0xFFFFFFFF, .any⟩, -- age of holder's grant
  ⟨0x07, 0x07, .u32, .ro, .none, .same 0, .any⟩, -- grants
  ⟨0x08, 0x08, .bool, .ro, .none, .same 0, .any⟩, -- grant sticky
  ⟨0x09, 0x09, .u32, .ro, .none, .same 0, .any⟩, -- denials
  ⟨0x0A, 0x0A, .bool, .ro, .none, .same 0, .any⟩, -- denial sticky
  ⟨0x0B, 0x0B, .u32, .ro, .none, .same 0, .any⟩, -- flag falls
  ⟨0x0C, 0x0C, .bool, .ro, .none, .same 0, .any⟩, -- flag-fall sticky
  ⟨0x0D, 0x0D, .u32, .ro, .none, .same 0, .any⟩, -- stalemate trips
  ⟨0x0E, 0x0E, .bool, .ro, .none, .same 0, .any⟩, -- stalemate sticky
  ⟨0x0F, 0x0F, .u8, .wo, .live, .same 0, .nats [(0, 31)]⟩, -- clear
  ⟨0x10, 0x10, .u8, .ro, .none, .same 0, .any⟩, -- arbiter link
  ⟨0x11, 0x11, .u32, .ro, .none, .same 0, .any⟩, -- invalid arbiter messages
  ⟨0x12, 0x12, .bool, .ro, .none, .same 0, .any⟩ -- invalid-message sticky
  ]⟩

/-- Object 0x8002: spec/13_twin_and_lease.md, Table 13.18 - Rolpor object 0x8002. -/
def obj8002 : OdObject := ⟨0x8002, 1, 1, 1, [
  ⟨0x01, 0x01, .u8, .ro, .none, .same 0, .any⟩, -- link state
  ⟨0x02, 0x02, .u8, .ro, .none, .same 0, .any⟩, -- lanes trained
  ⟨0x03, 0x03, .i32, .ro, .none, .same 0, .any⟩, -- arrival margin
  ⟨0x04, 0x04, .u32, .ro, .none, .same 0, .any⟩, -- cable delay
  ⟨0x05, 0x05, .u32, .ro, .none, .same 0, .any⟩, -- record gaps
  ⟨0x06, 0x06, .bool, .ro, .none, .same 0, .any⟩, -- gap sticky
  ⟨0x07, 0x07, .u32, .ro, .none, .same 0, .any⟩, -- single-copy records
  ⟨0x08, 0x08, .bool, .ro, .none, .same 0, .any⟩, -- single-copy sticky
  ⟨0x09, 0x09, .u8, .wo, .live, .same 0, .nats [(0, 3)]⟩ -- clear
  ]⟩

/-- Object 0x8010: spec/13_twin_and_lease.md, Table 13.19 - Health objects 0x8010 and 0x8011. -/
def obj8010 : OdObject := ⟨0x8010, 1, 1, 1, [
  ⟨0x01, 0x01, (.domain 64), .ro, .none, .same 0, .any⟩ -- own health
  ]⟩

/-- Object 0x8011: spec/13_twin_and_lease.md, Table 13.19 - Health objects 0x8010 and 0x8011. -/
def obj8011 : OdObject := ⟨0x8011, 1, 1, 1, [
  ⟨0x01, 0x01, (.domain 64), .ro, .none, .same 0, .any⟩, -- peer health
  ⟨0x02, 0x02, .u16, .ro, .none, .same 0xFFFF, .any⟩ -- peer record age
  ]⟩

/-- Object 0x9000: spec/20_recorder_and_health.md, Table 20.9 - Diagnostics object 0x9000. -/
def obj9000 : OdObject := ⟨0x9000, 1, 1, 1, [
  ⟨0x01, 0x01, .u16, .ro, .none, .same 0, .any⟩, -- sticky summary
  ⟨0x02, 0x02, .u8, .wo, .live, .same 0, .nats [(1, 1)]⟩, -- clear all
  ⟨0x03, 0x03, .u8, .rw, .live, .same 1, .nats [(0, 3)]⟩, -- time source
  ⟨0x04, 0x04, .u8, .ro, .none, .same 0, .any⟩, -- time state
  ⟨0x05, 0x05, .i16, .rw, .live, .same 0, .ints (-1440) 1440⟩, -- IRIG-B offset
  ⟨0x06, 0x06, .u32, .rw, .live, .same 0x386D4380, .any⟩, -- DC time offset
  ⟨0x07, 0x07, .u32, .ro, .none, .same 0, .any⟩, -- rejected edges
  ⟨0x08, 0x08, .bool, .ro, .none, .same 0, .any⟩, -- rejected-edge sticky
  ⟨0x09, 0x09, .f32, .ro, .none, .same 0, .any⟩, -- plant case temperature
  ⟨0x0A, 0x0A, .f32, .ro, .none, .same 0, .any⟩, -- station case temperature
  ⟨0x0B, 0x0B, .u32, .ro, .none, .same 0, .any⟩, -- plant corrected words
  ⟨0x0C, 0x0C, .bool, .ro, .none, .same 0, .any⟩, -- corrected sticky
  ⟨0x0D, 0x0D, .u32, .ro, .none, .same 0, .any⟩, -- last uncorrectable address
  ⟨0x0E, 0x0E, .u64, .ro, .none, .same 0, .any⟩, -- last uncorrectable tick
  ⟨0x0F, 0x0F, .u32, .ro, .none, .same 0, .any⟩, -- DRAM corrected words
  ⟨0x10, 0x10, .bool, .ro, .none, .same 0, .any⟩, -- DRAM sticky
  ⟨0x11, 0x11, .u32, .ro, .none, .same 0, .any⟩, -- operating hours
  ⟨0x12, 0x12, .u32, .ro, .none, .same 0, .any⟩, -- equivalent hours
  ⟨0x13, 0x13, .f32, .ro, .none, .same 0, .any⟩, -- life consumed
  ⟨0x14, 0x14, .u32, .ro, .none, .same 0, .any⟩, -- temperature alarms
  ⟨0x15, 0x15, .bool, .ro, .none, .same 0, .any⟩, -- alarm sticky
  ⟨0x16, 0x16, .u8, .ro, .none, .same 0, .any⟩, -- station synthesiser state
  ⟨0x17, 0x17, .u32, .ro, .none, .same 0, .any⟩, -- station lock losses
  ⟨0x18, 0x18, .bool, .ro, .none, .same 0, .any⟩, -- station lock-loss sticky
  ⟨0x19, 0x19, .u8, .wo, .live, .same 0, .nats [(0, 31)]⟩ -- clear
  ]⟩

/-- Object 0x9010: spec/14_lockstep_and_extensions.md, Table 14.7 - Lock-step object 0x9010. -/
def obj9010 : OdObject := ⟨0x9010, 1, 1, 1, [
  ⟨0x01, 0x01, .u8, .ro, .none, .same 0, .any⟩, -- lock-step state
  ⟨0x02, 0x02, .u8, .ro, .none, .same 0, .any⟩, -- Gambit classes passed
  ⟨0x03, 0x03, .u16, .ro, .none, .same 0xFFFF, .any⟩, -- Gambit failing step
  ⟨0x04, 0x04, .u16, .ro, .none, .same 0, .any⟩, -- Gambit duration
  ⟨0x05, 0x05, .u8, .ro, .none, .same 255, .any⟩, -- last fault pair
  ⟨0x06, 0x06, .u8, .ro, .none, .same 0, .any⟩, -- last fault kind
  ⟨0x07, 0x07, .u64, .ro, .none, .same 0, .any⟩, -- last fault tick
  ⟨0x08, 0x08, .u32, .ro, .none, .same 0, .any⟩, -- corrected staging errors
  ⟨0x09, 0x09, .bool, .ro, .none, .same 0, .any⟩, -- corrected-error sticky
  ⟨0x0A, 0x0A, .u8, .wo, .live, .same 0, .nats [(1, 1)]⟩, -- clear
  ⟨0x40, 0x40, .bool, .rw, .live, .same 0, .nats [(0, 1)]⟩, -- debug enable
  ⟨0x41, 0x41, .u32, .ro, .none, .same 0, .any⟩, -- replayed debug accesses
  ⟨0x42, 0x42, .u32, .ro, .none, .same 0, .any⟩, -- replay wrap count
  ⟨0x43, 0x43, .u8, .ro, .none, .same 0, .any⟩ -- halted pairs
  ]⟩

/-- Object 0x9020: spec/14_lockstep_and_extensions.md, Table 14.8 - Extension object 0x9020. -/
def obj9020 : OdObject := ⟨0x9020, 1, 1, 1, [
  ⟨0x01, 0x01, .u8, .ro, .none, .same 0, .any⟩, -- tasks loaded
  ⟨0x02, 0x02, .u16, .const, .none, .same 480, .any⟩, -- extension budget
  ⟨0x03, 0x03, .u16, .ro, .none, .same 0, .any⟩, -- peak due budget
  ⟨0x04, 0x04, .u32, .ro, .none, .same 0, .any⟩, -- tick-tier overruns
  ⟨0x05, 0x05, .bool, .ro, .none, .same 0, .any⟩, -- tick-tier sticky
  ⟨0x06, 0x06, .u8, .wo, .live, .same 0, .nats [(1, 1)]⟩, -- clear
  ⟨0x40, 0x43, (.octets 32), .rws, .live, .same 0, .any⟩ -- key slots 0–3
  ]⟩

/-- Object 0x9030: spec/14_lockstep_and_extensions.md, Table 14.9 - Extension task object 0x9030 + t. -/
def obj9030 : OdObject := ⟨0x9030, 1, 8, 1, [
  ⟨0x01, 0x01, .u8, .ro, .none, .same 0, .any⟩, -- task state
  ⟨0x02, 0x02, .u32, .ro, .none, .same 0, .any⟩, -- task version
  ⟨0x03, 0x03, .u32, .ro, .none, .same 0, .any⟩, -- image CRC
  ⟨0x04, 0x04, .u16, .ro, .none, .same 0, .any⟩, -- period
  ⟨0x05, 0x05, .u16, .ro, .none, .same 0, .any⟩, -- phase
  ⟨0x06, 0x06, .u16, .ro, .none, .same 0, .any⟩, -- budget
  ⟨0x07, 0x07, .u16, .ro, .none, .same 0, .any⟩, -- last run cycles
  ⟨0x08, 0x08, .u16, .ro, .none, .same 0, .any⟩, -- peak run cycles
  ⟨0x09, 0x09, .u32, .ro, .none, .same 0, .any⟩, -- overruns
  ⟨0x0A, 0x0A, .bool, .ro, .none, .same 0, .any⟩, -- overrun sticky
  ⟨0x0B, 0x0B, .u32, .ro, .none, .same 0, .any⟩, -- task faults
  ⟨0x0C, 0x0C, .bool, .ro, .none, .same 0, .any⟩, -- task-fault sticky
  ⟨0x0D, 0x0D, .u8, .ro, .none, .same 0, .any⟩, -- last fault code
  ⟨0x0E, 0x0E, .u32, .ro, .none, .same 0, .any⟩, -- inbox discards
  ⟨0x0F, 0x0F, .bool, .ro, .none, .same 0, .any⟩, -- inbox-discard sticky
  ⟨0x10, 0x10, .u8, .wo, .live, .same 0, .nats [(1, 3)]⟩, -- command
  ⟨0x11, 0x11, .u8, .wo, .live, .same 0, .nats [(0, 15)]⟩, -- clear
  ⟨0x12, 0x12, .u8, .ro, .none, .same 0, .any⟩, -- key slot
  ⟨0x13, 0x13, .u32, .ro, .none, .same 0, .any⟩, -- skipped runs
  ⟨0x14, 0x14, (.octets 64), .ro, .none, .same 0, .any⟩, -- result block
  ⟨0x15, 0x15, .bool, .ro, .none, .same 0, .any⟩ -- skip sticky
  ]⟩

/-- Object 0xA000: spec/17_configuration_and_startup.md, Table 17.13 - Configuration store object 0xA000. -/
def objA000 : OdObject := ⟨0xA000, 1, 1, 1, [
  ⟨0x01, 0x01, .u16, .ro, .none, .same 0, .any⟩, -- straps in force
  ⟨0x02, 0x02, .u8, .ro, .none, .same 255, .any⟩, -- active slot
  ⟨0x03, 0x03, .u32, .ro, .none, .same 0, .any⟩, -- active version
  ⟨0x04, 0x04, .u32, .ro, .none, .same 0, .any⟩, -- active CRC
  ⟨0x05, 0x05, .u8, .ro, .none, .same 255, .any⟩, -- previous slot
  ⟨0x06, 0x06, .u32, .ro, .none, .same 0, .any⟩, -- version high-water
  ⟨0x07, 0x07, .u8, .wo, .live, .same 0, .nats [(1, 6)]⟩, -- command
  ⟨0x08, 0x08, .u8, .rw, .live, .same 0, .nats [(0, 7)]⟩, -- target slot
  ⟨0x09, 0x09, .u8, .ro, .none, .same 0, .any⟩, -- command result
  ⟨0x0A, 0x0A, .u16, .ro, .none, .same 0, .any⟩, -- refusal reason
  ⟨0x0B, 0x0B, .u8, .ro, .none, .same 0, .any⟩, -- activation state
  ⟨0x0C, 0x0C, .u64, .ro, .none, .same 0, .any⟩, -- activation tick
  ⟨0x0D, 0x0D, .u8, .ro, .none, .same 0, .any⟩, -- activation kind
  ⟨0x0E, 0x0E, .u32, .ro, .none, .same 0, .any⟩, -- abandoned activations
  ⟨0x0F, 0x0F, .bool, .ro, .none, .same 0, .any⟩, -- abandon sticky
  ⟨0x10, 0x10, .u32, .ro, .none, .same 0, .any⟩, -- automatic rollbacks
  ⟨0x11, 0x11, .bool, .ro, .none, .same 0, .any⟩, -- rollback sticky
  ⟨0x12, 0x12, .u8, .wo, .live, .same 0, .nats [(0, 3)]⟩, -- clear
  ⟨0x13, 0x13, .u16, .rw, .live, .same 60, .nats [(10, 600)]⟩, -- ready timeout
  ⟨0x14, 0x14, .u16, .rw, .live, .same 10, .nats [(1, 120)]⟩, -- link wait
  ⟨0x15, 0x15, .u8, .ro, .none, .same 0, .any⟩, -- running firmware image
  ⟨0x16, 0x16, .u32, .ro, .none, .same 0, .any⟩, -- firmware version, image 0
  ⟨0x17, 0x17, .u32, .ro, .none, .same 0, .any⟩, -- firmware version, image 1
  ⟨0x18, 0x1F, .u8, .ro, .none, .same 0, .any⟩, -- slot state
  ⟨0x20, 0x27, .u32, .ro, .none, .same 0, .any⟩, -- slot version
  ⟨0x28, 0x2F, .u32, .ro, .none, .same 0, .any⟩, -- slot CRC
  ⟨0x30, 0x30, .u8, .ro, .none, .same 0, .any⟩, -- last rejection reason
  ⟨0x31, 0x31, .u32, .ro, .none, .same 0, .any⟩, -- last rejection address
  ⟨0x32, 0x32, .u8, .ro, .none, .same 255, .any⟩, -- rejected slot
  ⟨0x33, 0x33, .bool, .ro, .none, .same 0, .any⟩, -- trial boot
  ⟨0x34, 0x34, .u16, .ro, .none, .same 0, .any⟩, -- straps sampled
  ⟨0x35, 0x35, .bool, .rw, .live, .same 1, .nats [(0, 1)]⟩, -- adoption enable
  ⟨0x40, 0x43, (.octets 32), .rw, .live, .same 0, .any⟩ -- configuration key slots 0–3
  ]⟩

/-- Object 0xB000: spec/20_recorder_and_health.md, Table 20.10 - Recorder object 0xB000. -/
def objB000 : OdObject := ⟨0xB000, 1, 1, 1, [
  ⟨0x01, 0x01, .bool, .rw, .live, .same 1, .nats [(0, 1)]⟩, -- recorder enable
  ⟨0x02, 0x02, .u8, .ro, .none, .same 0, .any⟩, -- slot count
  ⟨0x03, 0x03, .u32, .ro, .none, .same 0, .any⟩, -- slot size
  ⟨0x04, 0x04, .u16, .ro, .none, .same 0, .any⟩, -- slot states
  ⟨0x05, 0x05, .u16, .rw, .live, .same 0x21FF, .any⟩, -- trigger mask
  ⟨0x06, 0x06, .u32, .rw, .live, .same 0, .any⟩, -- window trigger channels
  ⟨0x07, 0x07, .bool, .rw, .live, .same 0, .nats [(0, 1)]⟩, -- overwrite held
  ⟨0x08, 0x08, .u8, .wo, .live, .same 0, .nats [(1, 1)]⟩, -- manual trigger
  ⟨0x09, 0x09, (.domain 2048), .rw, .restart, .same 0, .any⟩, -- channel list
  ⟨0x0A, 0x0A, .u16, .rw, .restart, .same 1500, .nats [(0, 1500)]⟩, -- snapshot span
  ⟨0x0B, 0x0B, .u32, .ro, .none, .same 0, .any⟩, -- triggers accepted
  ⟨0x0C, 0x0C, .bool, .ro, .none, .same 0, .any⟩, -- accepted sticky
  ⟨0x0D, 0x0D, .u32, .ro, .none, .same 0, .any⟩, -- retriggers
  ⟨0x0E, 0x0E, .bool, .ro, .none, .same 0, .any⟩, -- retrigger sticky
  ⟨0x0F, 0x0F, .u32, .ro, .none, .same 0, .any⟩, -- missed triggers
  ⟨0x10, 0x10, .bool, .ro, .none, .same 0, .any⟩, -- missed sticky
  ⟨0x11, 0x11, .u32, .ro, .none, .same 0, .any⟩, -- records lost
  ⟨0x12, 0x12, .bool, .ro, .none, .same 0, .any⟩, -- lost sticky
  ⟨0x13, 0x13, .u32, .ro, .none, .same 0, .any⟩, -- stream gaps
  ⟨0x14, 0x14, .bool, .ro, .none, .same 0, .any⟩, -- gap sticky
  ⟨0x15, 0x15, .u32, .ro, .none, .same 0, .any⟩, -- ring entries lost
  ⟨0x16, 0x16, .bool, .ro, .none, .same 0, .any⟩, -- ring-loss sticky
  ⟨0x17, 0x17, .u32, .ro, .none, .same 0, .any⟩, -- newest ring sequence
  ⟨0x18, 0x18, .u32, .ro, .none, .same 0, .any⟩, -- event log entries
  ⟨0x19, 0x19, .u8, .wo, .live, .same 0, .nats [(0, 63)]⟩, -- clear
  ⟨0x20, 0x27, .u32, .rw, .live, .same 0, .any⟩, -- level trigger
  ⟨0x28, 0x2F, .f32, .rw, .live, .same 0, .finite⟩, -- level threshold
  ⟨0x30, 0x30, .u64, .ro, .none, .same 0, .any⟩, -- last trigger tick
  ⟨0x31, 0x31, .u16, .ro, .none, .same 0, .any⟩ -- last trigger sources
  ]⟩

/-- The cell image of a lane without cells: 256 entries with CELL 0xFFFF and ARM 0xFF (Table 7.6). -/
def imageBlank : Nat := (2 ^ 64 * 0xFFFF + 2 ^ 80 * 0xFF) * ((2 ^ 32768 - 1) / (2 ^ 128 - 1))

/-- Object 0xC000: spec/07_rank_engine.md, R258. -/
def objC000 : OdObject := ⟨0xC000, 1, 32, 1, [
  ⟨0x01, 0x01, (.domain 4096), .ro, .none, .same imageBlank, .any⟩, -- cell image
  ⟨0x02, 0x02, .u64, .ro, .none, .same 0, .any⟩, -- image tick
  ⟨0x03, 0x03, .u16, .ro, .none, .same 0, .any⟩ -- cluster cell count
  ]⟩

/-- Every object of Table 16.8 (R551), in rising index order. -/
def odObjects : List OdObject :=
  [obj1000, obj1001, obj1008, obj1009, obj100A, obj1018, obj10F1, obj1600, obj1601, obj1602, obj1603, obj1A00, obj1A01, obj1A02, obj1A03, obj1C00] ++
  [obj1C12, obj1C13, obj1C32, obj1C33, obj2000, obj2001, obj2002, obj2010, obj2020, obj2030, obj2040, obj2041, obj3000, obj3001, obj3002, obj3003] ++
  [obj3004, obj3005, obj3006, obj3007, obj3008, obj4000, obj4001, obj4002, obj4003, obj4004, obj4010, obj4011, obj4012, obj4013, obj4014, obj4015] ++
  [obj4020, obj5000, obj5001, obj5100, obj5104, obj5108, obj510C, obj5200, obj5300, obj5301, obj5400, obj5401, obj5500, obj5501, obj5520, obj5521] ++
  [obj5530, obj5550, obj5600, obj5601, obj5700, obj5800, obj5900, obj5A00, obj5B00, obj6000, obj6001, obj6010, obj6018, obj6040, obj6060, obj6070] ++
  [obj7000, obj7001, obj7002, obj7010, obj7018, obj7020, obj7030, obj7040, obj8000, obj8001, obj8002, obj8010, obj8011, obj9000, obj9010, obj9020] ++
  [obj9030, objA000, objB000, objC000]

/-- What each clear entry clears: base index, subindex of the clear entry, the value bit, counter, sticky bit (R8). -/
def clearRows0 : List ClearRow := [
  ⟨0x1C32, 0x23, 1, 0x0B, 0x22⟩,
  ⟨0x1C32, 0x23, 2, 0x20, 0x21⟩,
  ⟨0x1C33, 0x23, 1, 0x0B, 0x22⟩,
  ⟨0x1C33, 0x23, 2, 0x20, 0x21⟩,
  ⟨0x2002, 0x07, 1, 0x05, 0x06⟩,
  ⟨0x2010, 0x0F, 1, 0x0A, 0x0B⟩,
  ⟨0x2010, 0x0F, 2, 0x0C, 0x0D⟩,
  ⟨0x2030, 0x09, 1, 0x03, 0x04⟩,
  ⟨0x2030, 0x09, 2, 0x05, 0x06⟩,
  ⟨0x2030, 0x09, 4, 0x07, 0x08⟩,
  ⟨0x3000, 0x13, 1, 0x0D, 0x0E⟩,
  ⟨0x3000, 0x13, 2, 0x0F, 0x10⟩]

def clearRows1 : List ClearRow := [
  ⟨0x3000, 0x13, 4, 0x11, 0x12⟩,
  ⟨0x4001, 0x06, 1, 0x01, 0x02⟩,
  ⟨0x4004, 0x1C, 1, 0x11, 0x12⟩,
  ⟨0x4004, 0x1C, 2, 0x13, 0x14⟩,
  ⟨0x4004, 0x1C, 4, 0x16, 0x17⟩,
  ⟨0x4004, 0x1C, 8, 0x18, 0x19⟩,
  ⟨0x4004, 0x1C, 16, 0x1A, 0x1B⟩,
  ⟨0x4015, 0x0C, 1, 0x0A, 0x0B⟩,
  ⟨0x4020, 0x11, 1, 0x0D, 0x0E⟩,
  ⟨0x4020, 0x11, 2, 0x0F, 0x10⟩,
  ⟨0x5001, 0x12, 1, 0x0C, 0x0D⟩,
  ⟨0x5001, 0x12, 2, 0x0E, 0x0F⟩]

def clearRows2 : List ClearRow := [
  ⟨0x5001, 0x12, 4, 0x10, 0x11⟩,
  ⟨0x5100, 0x13, 1, 0x0F, 0x10⟩,
  ⟨0x5100, 0x13, 2, 0x11, 0x12⟩,
  ⟨0x5104, 0x16, 1, 0x14, 0x15⟩,
  ⟨0x5108, 0x13, 1, 0x0F, 0x11⟩,
  ⟨0x510C, 0x06, 1, 0x04, 0x05⟩,
  ⟨0x5200, 0x11, 1, 0x0F, 0x10⟩,
  ⟨0x5300, 0x07, 1, 0x05, 0x06⟩,
  ⟨0x5400, 0x06, 1, 0x01, 0x02⟩,
  ⟨0x5400, 0x06, 2, 0x03, 0x04⟩,
  ⟨0x5401, 0x09, 1, 0x05, 0x06⟩,
  ⟨0x5401, 0x09, 2, 0x07, 0x08⟩]

def clearRows3 : List ClearRow := [
  ⟨0x5500, 0x07, 1, 0x05, 0x06⟩,
  ⟨0x5530, 0x1B, 1, 0x10, 0x11⟩,
  ⟨0x5530, 0x1B, 2, 0x12, 0x13⟩,
  ⟨0x5530, 0x1B, 4, 0x14, 0x15⟩,
  ⟨0x5530, 0x1B, 8, 0x16, 0x17⟩,
  ⟨0x5530, 0x1B, 16, 0x18, 0x19⟩,
  ⟨0x5550, 0x19, 1, 0x03, 0x04⟩,
  ⟨0x5550, 0x19, 2, 0x05, 0x06⟩,
  ⟨0x5550, 0x19, 4, 0x07, 0x08⟩,
  ⟨0x5550, 0x19, 8, 0x09, 0x0A⟩,
  ⟨0x5550, 0x19, 16, 0x0B, 0x0C⟩,
  ⟨0x5550, 0x19, 32, 0x0D, 0x0E⟩]

def clearRows4 : List ClearRow := [
  ⟨0x5550, 0x19, 64, 0x0F, 0x10⟩,
  ⟨0x5550, 0x19, 128, 0x11, 0x12⟩,
  ⟨0x5550, 0x19, 256, 0x13, 0x14⟩,
  ⟨0x5600, 0x08, 1, 0x06, 0x07⟩,
  ⟨0x5601, 0x19, 1, 0x10, 0x11⟩,
  ⟨0x5601, 0x19, 2, 0x12, 0x13⟩,
  ⟨0x5601, 0x19, 4, 0x14, 0x15⟩,
  ⟨0x5601, 0x19, 8, 0x17, 0x18⟩,
  ⟨0x5700, 0x0D, 1, 0x05, 0x06⟩,
  ⟨0x5700, 0x0D, 2, 0x09, 0x0A⟩,
  ⟨0x5700, 0x0D, 4, 0x0B, 0x0C⟩,
  ⟨0x5800, 0x1A, 1, 0x08, 0x09⟩]

def clearRows5 : List ClearRow := [
  ⟨0x5800, 0x1A, 2, 0x0A, 0x0B⟩,
  ⟨0x5800, 0x1A, 4, 0x0C, 0x0D⟩,
  ⟨0x5800, 0x1A, 8, 0x0E, 0x0F⟩,
  ⟨0x5800, 0x1A, 16, 0x10, 0x11⟩,
  ⟨0x5800, 0x1A, 32, 0x12, 0x13⟩,
  ⟨0x5800, 0x1A, 64, 0x14, 0x15⟩,
  ⟨0x5800, 0x1A, 128, 0x16, 0x17⟩,
  ⟨0x5800, 0x1A, 256, 0x18, 0x19⟩,
  ⟨0x5900, 0x0D, 1, 0x07, 0x08⟩,
  ⟨0x5900, 0x0D, 2, 0x09, 0x0A⟩,
  ⟨0x5900, 0x0D, 4, 0x0B, 0x0C⟩,
  ⟨0x5A00, 0x0A, 1, 0x06, 0x07⟩]

def clearRows6 : List ClearRow := [
  ⟨0x5A00, 0x0A, 2, 0x08, 0x09⟩,
  ⟨0x5B00, 0x07, 1, 0x03, 0x04⟩,
  ⟨0x6000, 0x14, 1, 0x09, 0x0A⟩,
  ⟨0x6000, 0x14, 2, 0x0F, 0x10⟩,
  ⟨0x6001, 0x12, 1, 0x0C, 0x0D⟩,
  ⟨0x6001, 0x12, 2, 0x0E, 0x0F⟩,
  ⟨0x6001, 0x12, 4, 0x10, 0x11⟩,
  ⟨0x6060, 0x0A, 1, 0x06, 0x07⟩,
  ⟨0x6070, 0x05, 1, 0x03, 0x04⟩,
  ⟨0x7000, 0x13, 1, 0x0B, 0x0C⟩,
  ⟨0x7000, 0x13, 2, 0x0D, 0x0E⟩,
  ⟨0x7000, 0x13, 4, 0x0F, 0x10⟩]

def clearRows7 : List ClearRow := [
  ⟨0x7000, 0x13, 8, 0x11, 0x12⟩,
  ⟨0x7001, 0x0D, 1, 0x09, 0x0A⟩,
  ⟨0x7010, 0x07, 1, 0x05, 0x06⟩,
  ⟨0x7018, 0x06, 1, 0x04, 0x05⟩,
  ⟨0x7030, 0x09, 1, 0x07, 0x08⟩,
  ⟨0x7040, 0x08, 1, 0x06, 0x07⟩,
  ⟨0x8000, 0x12, 1, 0x06, 0x07⟩,
  ⟨0x8000, 0x12, 2, 0x08, 0x09⟩,
  ⟨0x8000, 0x12, 4, 0x0A, 0x0B⟩,
  ⟨0x8000, 0x12, 8, 0x0C, 0x0D⟩,
  ⟨0x8000, 0x12, 16, 0x0E, 0x0F⟩,
  ⟨0x8000, 0x12, 32, 0x10, 0x11⟩]

def clearRows8 : List ClearRow := [
  ⟨0x8001, 0x0F, 1, 0x07, 0x08⟩,
  ⟨0x8001, 0x0F, 2, 0x09, 0x0A⟩,
  ⟨0x8001, 0x0F, 4, 0x0B, 0x0C⟩,
  ⟨0x8001, 0x0F, 8, 0x0D, 0x0E⟩,
  ⟨0x8001, 0x0F, 16, 0x11, 0x12⟩,
  ⟨0x8002, 0x09, 1, 0x05, 0x06⟩,
  ⟨0x8002, 0x09, 2, 0x07, 0x08⟩,
  ⟨0x9000, 0x19, 1, 0x07, 0x08⟩,
  ⟨0x9000, 0x19, 2, 0x0B, 0x0C⟩,
  ⟨0x9000, 0x19, 4, 0x0F, 0x10⟩,
  ⟨0x9000, 0x19, 8, 0x14, 0x15⟩,
  ⟨0x9000, 0x19, 16, 0x17, 0x18⟩]

def clearRows9 : List ClearRow := [
  ⟨0x9010, 0x0A, 1, 0x08, 0x09⟩,
  ⟨0x9020, 0x06, 1, 0x04, 0x05⟩,
  ⟨0x9030, 0x11, 1, 0x09, 0x0A⟩,
  ⟨0x9030, 0x11, 2, 0x0B, 0x0C⟩,
  ⟨0x9030, 0x11, 4, 0x0E, 0x0F⟩,
  ⟨0x9030, 0x11, 8, 0x13, 0x15⟩,
  ⟨0xA000, 0x12, 1, 0x0E, 0x0F⟩,
  ⟨0xA000, 0x12, 2, 0x10, 0x11⟩,
  ⟨0xB000, 0x19, 1, 0x0B, 0x0C⟩,
  ⟨0xB000, 0x19, 2, 0x0D, 0x0E⟩,
  ⟨0xB000, 0x19, 4, 0x0F, 0x10⟩,
  ⟨0xB000, 0x19, 8, 0x11, 0x12⟩]

def clearRows10 : List ClearRow := [
  ⟨0xB000, 0x19, 16, 0x13, 0x14⟩,
  ⟨0xB000, 0x19, 32, 0x15, 0x16⟩]

/-- Every clear row. -/
def clearRows : List ClearRow := clearRows0 ++ clearRows1 ++ clearRows2 ++ clearRows3 ++ clearRows4 ++ clearRows5 ++ clearRows6 ++ clearRows7 ++ clearRows8 ++ clearRows9 ++ clearRows10
end Sys2Proof.Machine
end

