-- ==== Sys2Proof/Machine/Od.lean ====
section
/-! DEFINITION. The store of dictionary values: a list of (address, value) pairs in rising order of address that lists
no entry equal to its default, and the look-up of an entry's row, type and default. An address is index * 256 + subindex. -/
namespace Sys2Proof.Machine

/-- The address of an entry. -/
def odKey (idx sub : Nat) : Nat := idx * 256 + sub

/-- The instance number of `idx` in an object, if it has one. -/
def OdObject.instance? (o : OdObject) (idx : Nat) : Option Nat :=
  if idx < o.base then none
  else
    let d := idx - o.base
    let a := d / o.stride
    let t := d % o.stride
    if a < o.outer ∧ t < o.inner then some (a * o.inner + t) else none

/-- The object that holds `idx`, with the instance number (R532, R551). -/
def odObject? : List OdObject → Nat → Option (OdObject × Nat)
  | [], _ => none
  | o :: os, idx =>
    match o.instance? idx with
    | some i => some (o, i)
    | none => odObject? os idx

/-- The row of a subindex. -/
def odRow? : List OdEntry → Nat → Option OdEntry
  | [], _ => none
  | e :: es, sub => if e.lo ≤ sub ∧ sub ≤ e.hi then some e else odRow? es sub

/-- The row of an address, with its instance number. -/
def odEntry? (key : Nat) : Option (OdEntry × Nat) :=
  match odObject? odObjects (key / 256) with
  | none => none
  | some (o, i) =>
    match odRow? o.entries (key % 256) with
    | none => none
    | some e => some (e, i)

/-- The width in bits of a value as it is stored (Table 16.3). -/
def OdTy.bits : OdTy → Nat
  | .bool => 1
  | .u8 => 8 | .u16 => 16 | .u32 => 32 | .u64 => 64
  | .i8 => 8 | .i16 => 16 | .i32 => 32
  | .f32 => 32
  | .str => 512
  | .octets n => 8 * n
  | .domain n => 8 * n

/-- The length in bytes of a value in an SDO transfer (Table 16.3). -/
def OdTy.bytes : OdTy → Nat
  | .bool => 1
  | t => t.bits / 8

/-- The nth element of a list of defaults. -/
def nthD (vs : List Nat) (i : Nat) : Nat := vs.getD i 0

/-- A value fixed by the part: name and product code by its ordering code (Table 0.1), any other left open (assumption log 6, 86). -/
def partDefault (key : Nat) : Nat :=
  if key = 0x101802 then (if Config.sealedPart then 0x00081921 else 0x00081920)
  else if key = 0x100800 then (if Config.sealedPart then 0x454D2D323931384B54 else 0x452D323931384B54)
  else Config.partValue key

/-- Entries of the metering channels 0 to 11 that general channels do not have: they read 0 there (R112). -/
def meterOnly (idx sub : Nat) : Bool :=
  0x560D ≤ idx && idx ≤ 0x5620 && [0x17, 0x18, 0x43, 0x44, 0x45, 0x46, 0x47, 0x48, 0x49].contains sub

/-- The default of an entry: its value at reset (assumption log 6, 10). -/
def odDefault (key : Nat) : Nat :=
  match odEntry? key with
  | none => 0
  | some (e, i) =>
    if meterOnly (key / 256) (key % 256) then 0 else
    match e.dflt with
    | .same v => v
    | .each vs => nthD vs (key % 256 - e.lo)
    | .inst vs => nthD vs i
    | .part => partDefault key

/-- The width in bits of the entry at an address; 0 where there is none. -/
def odBits (key : Nat) : Nat :=
  match odEntry? key with
  | none => 0
  | some (e, _) => e.ty.bits

/-- Look an address up in a rising list. -/
def cellGet : List (Nat × Nat) → Nat → Option Nat
  | [], _ => none
  | (k, v) :: r, key => if key < k then none else if k = key then some v else cellGet r key

/-- Put a value at an address of a rising list. -/
def cellPut : List (Nat × Nat) → Nat → Nat → List (Nat × Nat)
  | [], key, v => [(key, v)]
  | (k, w) :: r, key, v =>
    if key < k then (key, v) :: (k, w) :: r else if k = key then (key, v) :: r else (k, w) :: cellPut r key v

/-- Take an address out of a rising list. -/
def cellDel : List (Nat × Nat) → Nat → List (Nat × Nat)
  | [], _ => []
  | (k, w) :: r, key => if k = key then r else (k, w) :: cellDel r key

/-- The value at an address: the listed one, else the default. -/
def odGet (m : List (Nat × Nat)) (key : Nat) : Nat :=
  match cellGet m key with
  | some v => v
  | none => odDefault key

/-- Write a value, cut to the entry's width; a value equal to the default is not listed, nor is an address with no entry. -/
def odPut (m : List (Nat × Nat)) (key v : Nat) : List (Nat × Nat) :=
  if odBits key = 0 then m
  else if v % 2 ^ odBits key = odDefault key then cellDel m key
  else cellPut m key (v % 2 ^ odBits key)

/-- A listed value: it fits the width of its entry and is not the default. -/
def odCellOk (k v : Nat) : Bool := v != odDefault k && decide (v < 2 ^ odBits k)

/-- The canonical form: addresses strictly rising, every value listed within its entry's width and different from its default. -/
def odWf : List (Nat × Nat) → Bool
  | [] => true
  | [(k, v)] => odCellOk k v
  | (k, v) :: (k', v') :: r => decide (k < k') && odCellOk k v && odWf ((k', v') :: r)

end Sys2Proof.Machine
end

