-- ==== Sys2Proof/Machine/State.lean ====
section
/-! DEFINITION. The state of the block, its reasons to stop, and the state after reset. `Device` is everything the spec
gives the TK8192; `State` adds the queue of waiting commands. Every register the object dictionary numbers has its one home
in `Device.od`; what is not a dictionary entry stands in the parts of Machine/Parts.lean.
Choices of the model: assumption log 4. -/
namespace Sys2Proof.Machine

/-- Everything the spec gives the device. -/
structure Device where
  /-- the object dictionary's values, rising by address, defaults not listed -/
  od       : List (Nat × Nat)
  /-- LIVE writes accepted since the last T0, oldest first (R64) -/
  live     : List (Nat × Nat)
  ring     : Ring
  recorder : List RecSlot
  recStream : StreamBuf
  time     : TimeBase
  life     : Life
  barrier  : Barrier
  /-- the dictionary at the last tick boundary (R9) -/
  boundary : Boundary
  station  : Station
  boot     : Boot
  session  : Session
  guard    : Guard
  timer    : TickTimer
  lease    : Lease
  twin     : Twin
  /-- control of pole 0 and pole 1 -/
  poles    : List PoleCtl
  front    : Front
  meter    : Meter
  tasks    : List TaskCtl
  slot3    : Slot3
  power    : Power
  arms     : List Arm
  lanes    : List Lane
  /-- the reference block in force of pole 0 and pole 1 (R62) -/
  refs     : List RefBlock
  /-- the reference block the core pairs last committed -/
  refsNext : List RefBlock
  /-- recorder trigger sources found in this tick, as bits of Table 20.3 (R676) -/
  trigs    : Nat
  /-- the model's own: how many free values have been used (assumption log 3) -/
  free     : Nat
  deriving DecidableEq, Repr

/-- The whole state: the device and the commands that wait, first in, first out. -/
structure State where
  dev     : Device
  pending : List Instr
  deriving DecidableEq, Repr

/-- Faults of the model. -/
inductive Fault where
  /-- Raised by no command of this model; kept because the interface needs a type. Safe. -/
  | none
  deriving DecidableEq, Repr

/-- Refusals of the model. -/
inductive Refusal where
  /-- Answered by an arm of exec for a command that has no meaning yet. Safe: nothing can be proved of its effect. -/
  | notModelled (mnemonic : String)
  deriving DecidableEq, Repr

/-- A channel that is unbound, Table 18.6. -/
def Chan.reset : Chan :=
  ⟨0, 0, 0, 0, 0, 0, [], 0, 0, [], 0, 0, 0, 0, 0, 0, 0, 0, false, false, false, false, false, 0, 0, false, false, false⟩

/-- The barrier while a half is in reset. -/
def Barrier.reset : Barrier := ⟨List.replicate 16 Chan.reset, [false, false], [false, false], false, true, [], [], [], []⟩

/-- A FREE recorder slot. -/
def RecSlot.reset : RecSlot := ⟨0, 0, 0, 0, 0, 0, 0, 0, [], [], [], 0, 0, 0⟩

/-- The event ring as delivered (assumption log 5). -/
def Ring.reset : Ring := ⟨[], [], 1⟩

/-- The station half after its reset. -/
def Station.reset : Station where
  al := 1
  alStatus := 0
  port1 := false
  emcyOut := 0
  dcSync0 := false
  sync0Ns := 0
  windowCnt := 0
  goodEdges := 0
  imageAge := 0
  sm2 := []
  sm2Fresh := false
  sm3 := []
  image := none
  imageSeen := false
  emcy := []
  log := []
  logSeq := 1
  creds := [none, none, none, none]
  loginLock := ⟨0, false⟩
  segmented := false
  sdoBusy := false
  sdoResult := 0
  sdoData := []
  sdoMore := false
  foeOut := []
  foeErr := 0
  resetAfter := false
  regEnDrv := false
  regEnHiZ := true
  tqSeen := 0
  faulted := false

/-- No activation in progress. -/
def Activation.reset : Activation := ⟨false, false, 0, false, false, false, false, false, false, false, [], none⟩

/-- Flash as delivered and both halves held in reset (assumption log 5). -/
def Boot.reset : Boot where
  stationHeld := true
  stationDown := false
  plantHeld := true
  stState := 0
  plState := 0
  faultSince := false
  slots := List.replicate 8 ⟨[], true⟩
  images := [⟨true, 0, 0, 0, true⟩, ⟨false, 0, 0, 0, true⟩]
  selector := 0
  stImage := 0
  writing := none
  validating := none
  commits := []
  commitSeq := 1
  act := Activation.reset
  readyDone := false
  selfTest := 0
  selfEntered := 0
  mismatchTicks := 0
  lockStepRec := none
  uncorrRec := none
  recsNew := 0
  pairsHalted := false
  regRec := none
  faultN := true
  plantClock := false
  stationClock := false
  safeState := false
  running := []
  trial := false

/-- Both channels REQUESTED, no comparator outside. -/
def Guard.reset : Guard where
  outside := 0
  quals := List.replicate 12 0
  step := 0
  again := false
  discard := false
  swapped := false
  nextK := 0
  left := false
  ch1 := 1
  peerOnly := false
  resetLow := false
  fsoeHigh := none
  fsoeLow := none
  outRun := List.replicate 8 0
  zeSince := 0
  testAt := none
  differ := List.replicate 8 0
  split := none
  fsoeAt := 0

/-- The tick timer stopped. -/
def TickTimer.reset : TickTimer := ⟨false, 0, 0, 0, 0, 0, false, 0, 5000000, 0, 0, 0, 0, 0, false, 0, false, 0⟩

/-- No lease. -/
def Lease.reset : Lease := ⟨false, 0, 0, [], 0, 0, 0, 0, false, false, false, 0⟩

/-- No twin. -/
def Twin.reset : Twin where
  txSeq := 0
  rxSeq := none
  lastTx := []
  tickRec := none
  prevHash := 0
  diverged := false
  leaveSync := false
  leaveActive := false
  grantReady := false
  coldGrant := false
  unitGo := none
  takeUp := none
  bridgeFrom := 0
  castle := 0
  noRelease := false
  castleWait := false
  castleAt := 0
  goodPeer := 0
  peerSafe := 0
  resyncReq := false
  resyncCmd := false
  snapTick := 0
  buffered := []
  bufWrites := []
  bufBlocks := []
  bufState := []
  bufReports := []
  loaded := false
  gotOuter := false
  ownBlocks := false
  verified := 0
  oos := false
  unlike := false
  dispCnt := [0, 0, 0, 0, 0]
  dispQuiet := 0
  margins := []
  writes := []
  decisions := []

/-- A tracker in IDLE. -/
def Tracker.reset : Tracker := ⟨0, [], 0, 0, 0, 0, 0, 0, 0, 0, 0, 0, 0, 0, 0, 0, false, 0⟩

/-- No fast run has committed. -/
def FastRes.reset : FastRes where
  trk := Tracker.reset
  vsm := ⟨false, false, 1, 0, 0, 0, 0, 0, 0, 0⟩
  ride := ⟨0, 0, 0, 0, 0, 0, 0, [], 500000⟩
  isl := ⟨0, 0, 0, 0, 0, none, none, 0, 0, 0, 0, false⟩
  idp := 0
  iqp := 0
  idn := 0
  iqn := 0
  limD := false
  limQ := false
  limited := false
  thetaG := 0
  thetaB := 0
  nB := 0
  dTheta := 0
  angleOk := false
  iz0 := none
  vdcs := none
  xE := 0
  loopOn := false
  vt := 0
  xR := 0
  pe := 0
  qe := 0

/-- No slow run has committed. -/
def SlowRes.reset : SlowRes := ⟨0, 0, 0, 0, 0, 0, 0, 0, 0, 0, 0, 0, 0, 0, 0, false, 0, 0, false, [0, 0, 0, 1]⟩

/-- A loss tracker at neutral. -/
def Loss.reset : Loss where
  xs := [0, 0, 0, 1]
  saved := 0
  onTrial := false
  settle := 0
  toOpen := false
  win := none
  bad := false
  closed := none
  base := (0, 0, 0)
  last := (0, 0)
  modes := (0, 0, false)
  active := true
  tripped := none
  due := 0
  fwd := 0
  cfg := []
  marks := (0, 0)

/-- The control of a pole at configuration activation. -/
def PoleCtl.reset : PoleCtl where
  trips := []
  goto := none
  deblockAt := none
  reconnect := false
  runBack := none
  fallback := false
  fallWait := false
  overrun := 0
  fastMiss := 0
  slowMiss := 0
  fast := FastRes.reset
  slow := SlowRes.reset
  fastPend := none
  slowPend := none
  samples := []
  sums := ⟨0, 0, 0, 0, 0, 0, 0, 0⟩
  frames := []
  lastFrame := none
  dc := ⟨0, 0, 0, 0, none, 0, false⟩
  en := ⟨0, 0, false, [], []⟩
  transUntil := 0
  modeSince := none
  islandAt := none
  lastCmd := 0
  loss := Loss.reset

/-- A channel that has converted nothing. -/
def Conv.reset : Conv := ⟨[], true, none, 0, false, 0, 7, 0, 0, 0⟩

/-- The front end with the reference buffer off. -/
def Front.reset : Front := ⟨List.replicate 32 Conv.reset, false, 0, []⟩

/-- An absent task. -/
def TaskCtl.reset : TaskCtl := ⟨[], [], [], 0, 0⟩

/-- A series with no window open. -/
def MeterWin.reset : MeterWin :=
  ⟨none, 0, [0, 0, 0], [0, 0, 0], [0, 0, 0], 0, 0, 0, 0, false, none, none, 0, 0, 0, 0, false, List.replicate 18 0, false, false, false⟩

/-- The save record of a part as delivered: nothing metered. -/
def SaveRec.reset : SaveRec :=
  ⟨true, 0, true, 0, 0, 1000, List.replicate 36 0, List.replicate 36 0, List.replicate 36 0, List.replicate 36 0,
    List.replicate 36 0, List.replicate 8 0, List.replicate 8 0⟩

/-- The metering engine of a part as delivered (assumption log 5). -/
def Meter.reset : Meter where
  wins := List.replicate 3 MeterWin.reset
  streams := List.replicate 12 []
  slots := List.replicate 2 SaveRec.reset
  pulses := List.replicate 8 ⟨0, 0, false⟩
  log := []
  logSeq := 1
  sinceSave := 0
  started := false
  fault := false
  unsaved := none
  endgame := none

/-- The core-power controller with supply present, nothing latched and the factory record. -/
def Power.reset : Power where
  supply := true
  retention := true
  enable := true
  saving := false
  returned := false
  attempt := 0
  tripped := 0
  cause := 0
  recNew := false
  locked := 0
  shed := none
  rise := none
  added := 0
  braking := false
  iavg := 0
  lowPs := 0
  measured := false
  measuring := false
  charger := true
  record := []
  inUse := []

/-- A reference block that orders nothing. -/
def RefBlock.reset : RefBlock := ⟨0, 0, 0, false, false, 0, 0, 0, 0, 0, 0, 0, 0, 0, 0, 0, 0, [0, 0, 0], [0, 0, 0, 0, 0, 0], 0⟩

/-- A cell at polarity 0; its lane's first frame carries BLOCK (Table 8.1). -/
def Cell.reset : Cell := ⟨0, 0, 0, 0, 0, 0, false, false, 0, none, 0x400, false, false, false, false⟩

/-- An absent arm. -/
def Arm.reset : Arm := ⟨[], 0, 0, 1, 0, 0, 0, 0, 0, [], none, none, none, none, 0, 0, 0, 0⟩

/-- An unused lane (assumption log 25). -/
def Lane.reset : Lane :=
  ⟨false, false, [], [], true, none, false, 0, 0, 0, 0, none, false, false, false, false, none, 0, [], false, false, 0, [], 0, none, none, 0⟩

/-- The device with both halves held in reset (assumption log 4, 5). -/
def Device.reset : Device where
  od := []
  live := []
  ring := Ring.reset
  recorder := List.replicate 4 RecSlot.reset
  recStream := ⟨none, List.replicate 8 0x7FC00000⟩
  time := ⟨0, 0, false, 0, false, 0⟩
  life := ⟨0, 0, 0, false⟩
  barrier := Barrier.reset
  boundary := ⟨[], [], []⟩
  station := Station.reset
  boot := Boot.reset
  session := ⟨[], false, none, ⟨0, false⟩, [], 1, [[], []], 0, false, 0, 0⟩
  guard := Guard.reset
  timer := TickTimer.reset
  lease := Lease.reset
  twin := Twin.reset
  poles := [PoleCtl.reset, PoleCtl.reset]
  front := Front.reset
  meter := Meter.reset
  tasks := List.replicate 8 TaskCtl.reset
  slot3 := ⟨false, none, [], 0⟩
  power := Power.reset
  arms := List.replicate 12 Arm.reset
  lanes := List.replicate 32 Lane.reset
  refs := [RefBlock.reset, RefBlock.reset]
  refsNext := [RefBlock.reset, RefBlock.reset]
  trigs := 0
  free := 0

/-- The machine right after reset, with no command waiting. -/
def State.reset : State := ⟨Device.reset, []⟩

end Sys2Proof.Machine
end

