-- ==== Sys2Proof/Machine/Ops.lean ====
section
/-! DEFINITION. The operations every meaning is built from: reading and writing dictionary entries, counters of the classes
of Table 0.5, events (R568 to R570, R669 to R672) and the messages of the barrier (R613 to R626). -/
namespace Sys2Proof.Machine

/-- Number the elements of a list. -/
def numbered {α : Type} : Nat → List α → List (Nat × α)
  | _, [] => []
  | i, x :: r => (i, x) :: numbered (i + 1) r

/-- The answer of a meaning. -/
abbrev Out := Host.Outcome State Fault Refusal

/-- A meaning that always completes: it changes the device and leaves the queue to `step`. -/
def State.run (s : State) (f : Device → Device) : Out := .next { s with dev := f s.dev }

/-! ### Dictionary entries -/

/-- The value of an entry, raw. -/
def Device.rd (d : Device) (idx sub : Nat) : Nat := odGet d.od (odKey idx sub)

/-- Write an entry, cut to its width. -/
def Device.wr (d : Device) (idx sub v : Nat) : Device := { d with od := odPut d.od (odKey idx sub) v }

/-- An entry as a truth value. -/
def Device.flag (d : Device) (idx sub : Nat) : Bool := d.rd idx sub != 0

/-- Write a truth value. -/
def Device.wrB (d : Device) (idx sub : Nat) (b : Bool) : Device := d.wr idx sub (b2n b)

/-- A signed entry. -/
def Device.rdI (d : Device) (idx sub : Nat) : Int := toInt (odBits (odKey idx sub)) (d.rd idx sub)

/-- Write a signed entry, saturating at its width. -/
def Device.wrI (d : Device) (idx sub : Nat) (v : Int) : Device :=
  let w := odBits (odKey idx sub)
  d.wr idx sub (ofInt w (satInt w v))

/-- A binary32 entry as a rational. -/
def Device.rdF (d : Device) (idx sub : Nat) : Rat := f32Val (d.rd idx sub)

/-- Write a rational to a binary32 entry, rounded to nearest. -/
def Device.wrF (d : Device) (idx sub : Nat) (x : Rat) : Device := d.wr idx sub (f32Of x)

/-- Write bit `i` of an entry. -/
def Device.wrBit (d : Device) (idx sub i : Nat) (b : Bool) : Device := d.wr idx sub (setBit (d.rd idx sub) i b)

/-! ### Counters (R7, R8) -/

/-- R682: the families of the sticky summary. -/
def stickyFamily (idx : Nat) : Nat :=
  if idx < 0x2010 || (0x2030 ≤ idx && idx < 0x2042) then 15
  else if idx = 0x2010 then 0
  else if 0x5600 ≤ idx && idx < 0x5700 then 1
  else if 0x4010 ≤ idx && idx < 0x4C00 && idx % 0x100 ≥ 0x10 then 2
  else if 0x4000 ≤ idx && idx < 0x4C00 && idx % 0x100 = 1 then 0
  else if (0x3000 ≤ idx && idx < 0x4000) || (0x5100 ≤ idx && idx < 0x5300) then 3
  else if (0x4000 ≤ idx && idx < 0x4C00) || (0x5300 ≤ idx && idx < 0x5500) then 4
  else if 0x5500 ≤ idx && idx < 0x5600 then 5
  else if 0x5000 ≤ idx && idx < 0x5100 then 6
  else if 0x6000 ≤ idx && idx < 0x7000 then 7
  else if idx = 0x2020 || (0x8000 ≤ idx && idx < 0x9000) then 8
  else if 0x9010 ≤ idx && idx < 0x9038 then 9
  else if (0x7000 ≤ idx && idx < 0x8000) || idx = 0x5700 then 10
  else if idx = 0x5800 || idx = 0x5900 then 11
  else if idx = 0x5A00 then 12
  else if idx = 0xA000 then 13
  else 14

/-- `n` free values have been used. -/
def Device.drawn (d : Device) (n : Nat) : Device := { d with free := d.free + n }

/-- Add to an event counter: it stays at its maximum and sets its sticky bit there. -/
def Device.bumpBy (d : Device) (idx sub sticky n : Nat) : Device :=
  let top := 2 ^ odBits (odKey idx sub) - 1
  let v := d.rd idx sub + n
  if v ≥ top then ((d.wr idx sub top).wr idx sticky 1).wrBit 0x9000 0x01 (stickyFamily idx) true else d.wr idx sub v

/-- Add one to an event counter. -/
def Device.bump (d : Device) (idx sub sticky : Nat) : Device := d.bumpBy idx sub sticky 1

/-- Add to an accumulator: it wraps, and its wrap count, an event counter, counts the wraps. -/
def Device.accum (d : Device) (idx sub wrap n : Nat) : Device :=
  let m := 2 ^ odBits (odKey idx sub)
  let v := d.rd idx sub + n
  let d := d.wr idx sub (v % m)
  if v < m then d else d.wr idx wrap (min (d.rd idx wrap + v / m) (2 ^ odBits (odKey idx wrap) - 1))

/-- Clear an event counter with its sticky bit in one operation. -/
def Device.clearCtr (d : Device) (idx sub sticky : Nat) : Device := (d.wr idx sub 0).wr idx sticky 0

/-! ### The tick, the straps, the profile -/

/-- The tick number (R46). -/
def Device.tick (d : Device) : Nat := d.rd 0x2010 0x01

/-- The tick period of a code of Table 2.1, in µs. -/
def periodOf (code : Nat) : Nat := [5, 10, 20, 25].getD code 5

/-- The tick period in force, in µs. -/
def Device.period (d : Device) : Nat := periodOf (d.rd 0x2010 0x02)

/-- ENG cycles per tick (Table 2.1). -/
def Device.engCycles (d : Device) : Nat := 800 * d.period

/-- How many ticks a time of `us` microseconds takes, rounded up (assumption log 8). -/
def Device.ticksOf (d : Device) (us : Nat) : Nat := (us + d.period - 1) / d.period

/-- The twin safety profile (R405). -/
def Device.twinProfile (d : Device) : Bool := d.rd 0x2020 0x02 == 1

/-- The unit state, Table 13.1. -/
def Device.unit (d : Device) : Nat := d.rd 0x2020 0x03

/-- ACTIVE. -/
def Device.isActive (d : Device) : Bool := d.unit == 3

/-- A single-actor action is open: a valid lease, or the stand-alone profile (R405, R409). -/
def Device.holds (d : Device) : Bool := !d.twinProfile || (d.isActive && d.lease.valid && !d.twin.castleWait)

/-- The first multiple of `m` at least `n` ticks after the present tick (R43, R189, R439, R595). -/
def Device.futureTick (d : Device) (m n : Nat) : Nat := (d.tick + n + m - 1) / m * m

/-! ### Poles, arms and lanes by number (R22 to R24) -/

/-- The index of a pole's object. -/
def poleIdx (base p : Nat) : Nat := base + p * 0x800

/-- The index of an arm's object. -/
def armIdx (base a : Nat) : Nat := base + a * 0x100

/-- The pole of an arm. -/
def poleOf (a : Nat) : Nat := a / 6

/-- The arms of a pole. -/
def armsOf (p : Nat) : List Nat := (List.range 6).map (6 * p + ·)

/-- An arm is present when it has cells. -/
def Device.armPresent (d : Device) (a : Nat) : Bool := d.rd (armIdx 0x4000 a) 0x02 != 0

/-- A pole is present when an arm of it is. -/
def Device.polePresent (d : Device) (p : Nat) : Bool := (armsOf p).any d.armPresent

/-- The pole state, Table 5.4: 0 ABSENT, 1 BLOCKED, 2 ENERGISING, 3 BLOCKED-READY, 4 DEBLOCKED, 5 ISLANDED, 6 TRIPPED,
7 SAFE-BLOCKED. -/
def Device.poleState (d : Device) (p : Nat) : Nat := d.rd (poleIdx 0x3000 p) 0x01

/-- A pole is blocked in every state except ENERGISING, DEBLOCKED and ISLANDED (R543). -/
def Device.poleBlocked (d : Device) (p : Nat) : Bool :=
  !(d.poleState p == 2 || d.poleState p == 4 || d.poleState p == 5)

/-- Every pole is blocked. -/
def Device.allBlocked (d : Device) : Bool := d.poleBlocked 0 && d.poleBlocked 1

/-- The cells configured in the cluster of a lane. -/
def Device.laneCells (d : Device) (l : Nat) : Nat := d.rd (0x5530 + l) 0x01

/-- The state of a lane, Table 9.3. -/
def Device.laneState (d : Device) (l : Nat) : Nat := d.rd (0x5530 + l) 0x05

/-- The cell map entry of an arm-local index: lane and position as the domain holds them, 0xFFFF where unassigned (R255). -/
def Device.cellAt (d : Device) (a c : Nat) : Nat := field (d.rd (armIdx 0x4000 a) 0x03) (16 * c) 16

/-! ### Time (R665, R668) -/

/-- Whole microseconds of UTC at the present tick: u + (n - n_s) * P; nothing while no edge has been valid. -/
def Device.utcMicros (d : Device) : Nat :=
  if d.time.known then
    ((d.time.us : Int) * 1000000 + ((d.tick : Int) - (d.time.ns : Int)) * (d.period : Int)).toNat
  else 0

/-- The UTC second of the plant half. -/
def Device.utc (d : Device) : Nat := d.utcMicros / 1000000 % 2 ^ 32

/-- Note a trigger source of the recorder, bit of Table 20.3, for the tick tier to send (R676). -/
def Device.noteTrigger (d : Device) (b : Nat) : Device := { d with trigs := setBit d.trigs b true }

/-! ### Events -/

/-- Table 16.17, the levels. -/
def lvInfo : Nat := 0
def lvWarn : Nat := 1
def lvTrip : Nat := 2
def lvFault : Nat := 3
def lvSafety : Nat := 4

/-- The device event code (R568). -/
def eventCode (idx sub level : Nat) : Nat := (idx / 256) * 2 ^ 24 + level * 2 ^ 16 + (idx % 256) * 2 ^ 8 + sub

/-- Pack (width, value) pairs into the DATA field, the first at its top bit (R670). -/
def packAt : Nat → List (Nat × Nat) → Nat
  | _, [] => 0
  | top, (w, v) :: r => if w ≤ top then v % 2 ^ w * 2 ^ (top - w) + packAt (top - w) r else 0

/-- The DATA field of 256 bits (assumption log 21). -/
def packData (vs : List (Nat × Nat)) : Nat := packAt 256 vs

/-- Record an event of the plant half: it joins the events of the present tick, to be written at the next T0 (R669, R670)
(assumption log 20). -/
def Device.event (d : Device) (idx sub level : Nat) (data : List (Nat × Nat)) : Device :=
  { d with ring := { d.ring with fresh := d.ring.fresh ++ [⟨eventCode idx sub level, packData data⟩] } }

/-- The emergency message of an event (Table 16.18). -/
def emcyOf (event rseq : Nat) : Emcy :=
  ⟨if field event 16 8 = 0 then 0 else 0xFF00 + event / 2 ^ 24, event, rseq % 256⟩

/-- Queue an emergency message; at a full queue it is discarded and counted, and the discard flag set (R570). The discard
is itself an event of the station half, which goes to the log only, since the queue is full (assumption log 22). -/
def Device.emcyQueue (d : Device) (m : Emcy) : Device :=
  if d.station.emcy.length < 64 then { d with station := { d.station with emcy := d.station.emcy ++ [m] } }
  else (d.bump 0x2030 0x07 0x08).wrBit 0x2030 0x01 5 true

/-- Append to the event log, which holds 65,536 entries and overwrites its oldest (R672) (assumption log 80). -/
def Device.logAppend (d : Device) (e : RingEntry) : Device :=
  let log := d.station.log ++ [e]
  let log := log.drop (log.length - 65536)
  let d := { d with station := { d.station with log := log } }
  d.wr 0xB000 0x18 log.length

/-- Record an event of the station half's own: ORIGIN = 1, its own SEQ series, sent as EMCY (R672) (assumption log 80). -/
def Device.stEvent (d : Device) (idx sub level : Nat) (data : List (Nat × Nat)) : Device :=
  let e : RingEntry :=
    { seq := d.station.logSeq
      tick := if d.station.imageSeen then d.rd 0x2030 0x02 else 0
      utc := d.rd 0x2000 0x05
      subsec := 0
      tq := d.station.tqSeen
      origin := 1
      event := eventCode idx sub level
      data := packData data
      queued := true
      delivered := true }
  let d := { d with station := { d.station with logSeq := (d.station.logSeq + 1) % 2 ^ 32 } }
  (d.logAppend e).emcyQueue (emcyOf e.event e.seq)

/-- An arm's working state. -/
def Device.arm (d : Device) (a : Nat) : Arm := d.arms.getD a Arm.reset

/-- Change an arm's working state. -/
def Device.modArm (d : Device) (a : Nat) (f : Arm → Arm) : Device := { d with arms := d.arms.set a (f (d.arm a)) }

/-- Count in an event counter and record the event under the counter's code. -/
def Device.bumpEvent (d : Device) (idx sub sticky level : Nat) (data : List (Nat × Nat)) : Device :=
  (d.bump idx sub sticky).event idx sub level data

/-! ### The barrier's channels -/

/-- One row of the binding table, Table 18.2: sender, sender pairs, receiver, receiver pairs, slots, largest payload, priority. -/
structure Binding where
  sender : Nat
  spairs : Nat
  recvr  : Nat
  rpairs : Nat
  slots  : Nat
  maxPay : Nat
  prio   : Nat
  deriving DecidableEq, Repr

/-- Table 18.2. Identities are those of Table 18.1: 0 SCORES, 1 ECATDMA, 2 PAIRS, 3 ENGINE, 4 DEBUG. -/
def bindings : List Binding :=
  [⟨0, 0, 2, 0b0100, 16, 1024, 1⟩, ⟨2, 0b0100, 0, 0, 16, 1024, 1⟩, ⟨1, 0, 2, 0b0100, 8, 1024, 0⟩, ⟨2, 0b1000, 1, 0, 4, 1032, 0⟩,
   ⟨2, 0b1111, 0, 0, 64, 1024, 1⟩, ⟨0, 0, 2, 0b0100, 16, 4096, 1⟩, ⟨0, 0, 2, 0b0100, 8, 64, 0⟩, ⟨3, 0, 0, 0, 64, 4096, 2⟩,
   ⟨4, 0, 0, 0, 4, 1024, 1⟩, ⟨0, 0, 4, 0, 4, 1024, 1⟩, ⟨2, 0b1000, 0, 0, 32, 260, 1⟩, ⟨0, 0, 2, 0b1000, 32, 260, 1⟩]

/-- The binding of a channel; none for 12 to 15. -/
def binding? (c : Nat) : Option Binding := bindings[c]?

/-- Station identities of Table 18.1: SCORES and ECATDMA. -/
def isStationId (i : Nat) : Bool := i == 0 || i == 1

/-- A channel carries traffic from the plant half to the station half. -/
def toStation (c : Nat) : Bool :=
  match binding? c with
  | some b => !isStationId b.sender
  | none => false

/-- The bound channels of a direction in the order in which its transmitter serves them: by priority, then ascending c (R619). -/
def serviceOrder (up : Bool) : List Nat :=
  let of := fun (k : Nat) => (List.range 12).filter fun c =>
    toStation c == up && (match binding? c with
      | some b => b.prio == k
      | none => false)
  of 0 ++ of 1 ++ of 2

/-- Chunks of 256 bytes of a message with its header and CRC (R613, R619). -/
def Msg.chunks (m : Msg) : Nat := (m.payload.length + 20 + 255) / 256

/-- Table 18.4: the class and type a channel permits. -/
def typePermitted (c cls typ : Nat) : Bool :=
  match c with
  | 0 => cls == 1 && (1 ≤ typ && typ ≤ 4)
  | 1 => (cls == 1 && (0x81 ≤ typ && typ ≤ 0x84)) || (cls == 4 && (typ == 0x85 || typ == 0x86))
  | 2 => cls == 2 && typ == 0x01
  | 3 => cls == 2 && typ == 0x81
  | 4 => cls == 3 && (typ == 1 || typ == 2)
  | 5 => cls == 4 && (1 ≤ typ && typ ≤ 4)
  | 6 => cls == 6 && (1 ≤ typ && typ ≤ 3)
  | 7 => cls == 5 && (typ == 1 || typ == 2)
  | 8 => cls == 8 && typ == 0x01
  | 9 => cls == 8 && typ == 0x81
  | 10 => cls == 7 && typ == 1
  | 11 => cls == 7 && typ == 1
  | _ => false

/-- Add one to a 32-bit event counter held outside the dictionary, with its sticky bit. -/
def satInc (v : Nat) : Nat := if v + 1 ≥ 2 ^ 32 - 1 then 2 ^ 32 - 1 else v + 1

/-- The sticky bit after that. -/
def satStk (v : Nat) (s : Bool) : Bool := s || decide (v + 1 ≥ 2 ^ 32 - 1)

/-- A channel of the device. -/
def Device.chan (d : Device) (c : Nat) : Chan := d.barrier.chans.getD c Chan.reset

/-- The channel states as 0x5A00.03 shows them. -/
def chanStates : List Chan → Nat
  | [] => 0
  | ch :: r => ch.state % 4 + 4 * chanStates r

/-- Put a channel back, and show the states. -/
def Device.setChan (d : Device) (c : Nat) (ch : Chan) : Device :=
  let cs := d.barrier.chans.set c ch
  let d := { d with barrier := { d.barrier with chans := cs } }.wr 0x5A00 0x03 (chanStates cs)
  if ch.discStk || ch.fullStk || ch.violStk || ch.gapStk || ch.prStk then d.wrBit 0x9000 0x01 12 true else d

/-- The channel that the transmitter of a direction serves next: the first in its order with a message on its way (R619). -/
def Device.servedNext (d : Device) (up : Bool) : Option Nat :=
  (serviceOrder up).find? fun c => !(d.chan c).flight.isEmpty

/-- The channels noted as having a chunk on the lanes of a direction that still have a message on its way. -/
def Device.onLanes (d : Device) (up : Bool) : List Nat :=
  (if up then d.barrier.p2sOn else d.barrier.s2pOn).filter fun c => !(d.chan c).flight.isEmpty

/-- Note them. -/
def Device.setOnLanes (d : Device) (up : Bool) (cs : List Nat) : Device :=
  if up then { d with barrier := { d.barrier with p2sOn := cs } } else { d with barrier := { d.barrier with s2pOn := cs } }

/-- The oldest message on its way of a channel is in its last chunk, or has but one. -/
def Chan.lastChunk (ch : Chan) : Bool :=
  match ch.flight with
  | m :: _ => decide (m.chunks ≤ ch.part + 1)
  | [] => true

/-- The channels whose message may be the next to arrive whole: those with a chunk on the lanes, and at the next boundary of 256 bytes
the one served next, unless the only chunk on the lanes ends its message (R619). -/
def Device.mayArrive (d : Device) (up : Bool) : List Nat :=
  let on := d.onLanes up
  match on, d.servedNext up with
  | [x], some c => if (d.chan x).lastChunk then [x] else if x = c then [x] else [x, c]
  | _, some c => if on.contains c then on else on ++ [c]
  | _, none => []

/-- Count a violation of a channel (R612, R614, R621). -/
def Chan.violate (ch : Chan) : Chan := { ch with viols := satInc ch.viols, violStk := satStk ch.viols ch.violStk }

/-- Channel 2 or a channel of the catalogue whose full queue discards and counts (Table 18.4). -/
def discardsWhenFull (c : Nat) : Bool := [2, 3, 6, 7, 10, 11].contains c

/-- Transmit a message on an OPEN channel that holds a credit (R613, R615, R620). -/
def Chan.transmit (ch : Chan) (cls typ pair tickLo : Nat) (payload : List Nat) : Chan :=
  let m : Msg := ⟨cls, typ, pair, ch.nextTx, tickLo, payload⟩
  let v := ch.sent + 1
  { ch with
    seqTx := ch.nextTx
    nextTx := (ch.nextTx + 1) % 2 ^ 32
    flight := ch.flight ++ [m]
    credits := ch.credits - 1
    sent := v % 2 ^ 32
    sentWrap := if v < 2 ^ 32 then ch.sentWrap else min (ch.sentWrap + 1) (2 ^ 32 - 1) }

/-- The outcome of a send: 0 sent, 1 FULL, 2 PARTNER-RESET or not open, 3 refused. -/
structure SendResult where
  dev    : Device
  status : Nat

/-- A send by the right identity (R614, R620, R624) (assumption log 83). -/
def Device.send (d : Device) (c cls typ pair : Nat) (payload : List Nat) : SendResult :=
  match binding? c with
  | none => ⟨d.setChan c (d.chan c).violate, 3⟩
  | some b =>
    let ch := d.chan c
    if ch.state ≠ 2 then ⟨d, 2⟩
    else if !typePermitted c cls typ || payload.length > b.maxPay then ⟨d.setChan c ch.violate, 3⟩
    else if ch.credits = 0 then
      let ch := { ch with fulls := satInc ch.fulls, fullStk := satStk ch.fulls ch.fullStk }
      ⟨d.setChan c ch, 1⟩
    else
      let lo := if b.sender ≥ 2 then d.tick % 2 ^ 32 else d.rd 0x2030 0x02 % 2 ^ 32
      ⟨(d.setOnLanes (toStation c) (d.mayArrive (toStation c))).setChan c (ch.transmit cls typ pair lo payload), 0⟩

/-! ### Delivery of ring entries (R627) -/

/-- The 64 bytes of a ring entry, Table 20.2, byte 0 in bits [511:504] (assumption log 21). -/
def RingEntry.bytes (e : RingEntry) : List Nat :=
  let hi := e.seq % 2 ^ 32 * 2 ^ 448 + e.tick % 2 ^ 64 * 2 ^ 384 + e.utc % 2 ^ 32 * 2 ^ 352
    + e.subsec % 2 ^ 20 * 2 ^ 332 + e.tq % 4 * 2 ^ 330 + e.origin % 2 * 2 ^ 329
    + e.event % 2 ^ 32 * 2 ^ 288 + e.data % 2 ^ 256 * 2 ^ 32
  let bs := beBytes 60 hi
  bs ++ beBytes 4 (crc32c bs)

/-- Send the undelivered ring entries that are not yet on their way, oldest first, as long as channel 4 takes them. -/
def pumpList : List RingEntry → Device → List RingEntry × Device
  | [], d => ([], d)
  | e :: r, d =>
    if e.queued then
      let (r', d') := pumpList r d
      (e :: r', d')
    else
      let s := d.send 4 0x03 0x01 0 e.bytes
      if s.status = 0 then
        let (r', d') := pumpList r s.dev
        ({ e with queued := true } :: r', d')
      else (e :: r, d)

/-- Send what channel 4 can take; an event of level TRIP or above rings the URGENT doorbell (Table 18.5) (assumption log 83). -/
def Device.pump (d : Device) : Device :=
  if (d.chan 4).state ≠ 2 then d
  else
    let urgent := d.ring.entries.any fun e => !e.queued && decide (field e.event 16 8 ≥ 2)
    let (es, d) := pumpList d.ring.entries d
    let d := { d with ring := { d.ring with entries := es } }
    if urgent then
      let ch := d.chan 4
      let bells := setBit ch.bells 1 true
      d.setChan 4 { ch with bells := bells, rxIrq := ch.rxIrq || !bit ch.mask 1 }
    else d

/-- Insert an event among those of its tick in ascending order of EVENT (R670). -/
def insertEvent (e : NewEvent) : List NewEvent → List NewEvent
  | [] => [e]
  | f :: r => if e.event < f.event then e :: f :: r else f :: insertEvent e r

/-- Write one entry to the ring: a full ring overwrites its oldest entry, and an undelivered one so lost is counted (R671). -/
def Device.ringWrite (d : Device) (e : NewEvent) : Device :=
  let us := d.utcMicros
  let entry : RingEntry :=
    ⟨d.ring.nextSeq, d.tick, us / 1000000 % 2 ^ 32, us % 1000000, d.rd 0x9000 0x04, 0, e.event, e.data, false, false⟩
  let seq := (d.ring.nextSeq + 1) % 2 ^ 32
  match d.ring.entries with
  | old :: rest =>
    if d.ring.entries.length ≥ 65536 then
      let d' := { d with ring := { entries := rest ++ [entry], fresh := d.ring.fresh, nextSeq := seq } }
      if old.delivered then d'
      else d'.bumpEvent 0xB000 0x15 0x16 lvWarn []
    else { d with ring := { d.ring with entries := d.ring.entries ++ [entry], nextSeq := seq } }
  | [] => { d with ring := { d.ring with entries := [entry], nextSeq := seq } }

/-- Write the events of the tick in ascending order of EVENT, show the newest SEQ and send what the channel takes (R669). -/
def Device.flushEvents (d : Device) : Device :=
  let es := d.ring.fresh.foldl (fun acc e => insertEvent e acc) []
  let d := { d with ring := { d.ring with fresh := [] } }
  let d := es.foldl Device.ringWrite d
  (if es.isEmpty then d else d.wr 0xB000 0x17 ((d.ring.nextSeq + 2 ^ 32 - 1) % 2 ^ 32)).pump

end Sys2Proof.Machine
end

