-- ==== Sys2Proof/Machine/EntryRules.lean ====
section
/-! DEFINITION. Which half serves an entry, which poles it concerns, who may write it, and the rules that limit its value
(spec/16_object_dictionary.md R535 to R546, R552, Table 16.5; Table 13.9a; R587). -/
namespace Sys2Proof.Machine

/-- Served by the station half (R552). -/
def stationServed (idx : Nat) : Bool :=
  (0x1000 ≤ idx && idx ≤ 0x2002) || (0x2030 ≤ idx && idx ≤ 0x2041) || idx == 0x9000 || idx == 0xA000 || idx == 0xB000

/-- The arms with a cell on a lane (R25, R255). -/
def Device.armsOnLane (d : Device) (l : Nat) : List Nat :=
  (List.range 12).filter fun a =>
    (List.range (d.rd (armIdx 0x4000 a) 0x02)).any fun c => d.cellAt a c / 256 == l

/-- The poles that carry cells on a lane. -/
def Device.polesOnLane (d : Device) (l : Nat) : List Nat :=
  [0, 1].filter fun p => (d.armsOnLane l).any fun a => poleOf a == p

/-- The channels of a metering point: three voltages, three currents, DC voltage, DC current; 255 none. -/
def Device.meterChannels (c : Device) (p : Nat) : List Nat :=
  let v := c.rd (0x6001 + p) 1
  let i := c.rd (0x6001 + p) 2
  [field v 0 8, field v 8 8, field v 16 8, field i 0 8, field i 8 8, field i 16 8, c.rd (0x6001 + p) 3, c.rd (0x6001 + p) 4]

/-- The channels that a pole's arms and loops read: AC voltages, DC voltage, DC current, neutral current and the arm currents of
its present arms (R155, R95). -/
def Device.poleChannels (d : Device) (p : Nat) : List Nat :=
  let i := poleIdx 0x3004 p
  let ac := d.rd i 8
  let pole := if d.polePresent p then [field ac 0 8, field ac 8 8, field ac 16 8, d.rd i 9, d.rd i 0x0A, d.rd i 0x0B] else []
  pole ++ ((armsOf p).filter d.armPresent).map fun a => d.rd (armIdx 0x4010 a) 1

/-- The scope of a BLOCKED entry (R543, R86). -/
def Device.scopePoles (d : Device) (idx : Nat) : List Nat :=
  if 0x3000 ≤ idx && idx < 0x4000 then [(idx - 0x3000) / 0x800]
  else if 0x4000 ≤ idx && idx < 0x4C00 then [poleOf ((idx - 0x4000) / 0x100)]
  else if 0x5001 ≤ idx && idx ≤ 0x5002 then [idx - 0x5001]
  else if 0x5100 ≤ idx && idx < 0x5110 then [idx % 4]
  else if 0x5200 ≤ idx && idx ≤ 0x5201 then [idx - 0x5200]
  else if 0x5301 ≤ idx && idx ≤ 0x530C then [poleOf (idx - 0x5301)]
  else if 0x5401 ≤ idx && idx ≤ 0x540C then [poleOf (idx - 0x5401)]
  else if 0x5530 ≤ idx && idx < 0x5570 then d.polesOnLane ((idx - 0x5530) % 32)
  else if 0x5601 ≤ idx && idx ≤ 0x5620 then [0, 1].filter fun p => (d.poleChannels p).contains (idx - 0x5601)
  else if 0x6001 ≤ idx && idx ≤ 0x6002 then [idx - 0x6001]
  else if 0x6010 ≤ idx && idx ≤ 0x6011 then [idx - 0x6010]
  else if 0x6018 ≤ idx && idx ≤ 0x6019 then [idx - 0x6018]
  else [0, 1]

/-- Every pole of an entry's scope is blocked. -/
def Device.scopeBlocked (d : Device) (idx : Nat) : Bool := (d.scopePoles idx).all d.poleBlocked

/-- The clear row of an object, instance and subindex. -/
def clearRowsFor (idx sub : Nat) : List ClearRow :=
  match odObject? odObjects idx with
  | none => []
  | some (o, _) => clearRows.filter fun r => r.base == o.base && r.entry == sub

/-- A clear entry (R8). 0x5A00.0B clears the counters of channels. -/
def isClear (idx sub : Nat) : Bool := !(clearRowsFor idx sub).isEmpty || (idx == 0x5A00 && sub == 0x0B)

/-- A counter of some clear entry, or its sticky bit. -/
def isCleared (idx sub : Nat) : Bool :=
  match odObject? odObjects idx with
  | none => false
  | some (o, _) => clearRows.any fun r => r.base == o.base && (r.ctr == sub || r.sticky == sub)

/-- An entry of the unit-local families, Table 13.9a. -/
def unitLocal (idx sub : Nat) : Bool :=
  (idx == 0x2010 && (sub == 5 || sub == 6 || sub == 9)) || (0x5530 ≤ idx && idx < 0x5550 && 0x40 ≤ sub && sub ≤ 0x4D)
    || (idx == 0x5600 && (sub == 0x40 || sub == 0x41)) || (0x5601 ≤ idx && idx ≤ 0x5620 && 0x45 ≤ sub && sub ≤ 0x49)
    || idx == 0x2001 || (0x1000 ≤ idx && idx ≤ 0x1C33) || idx == 0x2002 || (0x2030 ≤ idx && idx ≤ 0x2041)
    || idx == 0x5800 || idx == 0x5900 || idx == 0x5A00 || idx == 0x5B00 || (0x6000 ≤ idx && idx ≤ 0x6070)
    || (0x7000 ≤ idx && idx ≤ 0x7040) || (0x8000 ≤ idx && idx ≤ 0x8011) || idx == 0x9000 || idx == 0x9010 || idx == 0x9020
    || (0x9030 ≤ idx && idx < 0x9038) || idx == 0xA000 || idx == 0xB000 || isClear idx sub || isCleared idx sub

/-- Carried in configuration images (R587); the recorder's RESTART entries of R673 and R681 count as carried (assumption log 65). -/
def imageCarried (idx sub : Nat) (e : OdEntry) : Bool :=
  e.acc == .rw && ((0x2000 ≤ idx && idx ≤ 0x9FFF && idx != 0x2002 && !(idx == 0x9010 && sub == 0x40))
    || (idx == 0xA000 && (sub == 0x13 || sub == 0x14 || sub == 0x35)) || (idx == 0xB000 && (sub == 9 || sub == 10)))

/-- The access level a write needs (R537, Table 16.5); rws entries need an open session instead. -/
def writeLevel (idx sub v : Nat) : Nat :=
  let pole := 0x3000 ≤ idx && idx < 0x4000
  if idx == 0x2002 && (sub == 2 || sub == 3) then 0
  else if idx == 0x2002 && sub == 0x0A then 3
  else if isClear idx sub then 1
  else if idx == 0x2001 && sub == 1 then (if v == 1 || v == 2 then 1 else 3)
  else if pole && (idx % 0x800 == 1 || idx % 0x800 == 2) then 1
  else if idx == 0x8000 && sub == 1 then (if v == 1 || v == 2 || v == 5 then 1 else 2)
  else if idx == 0xA000 && 0x40 ≤ sub then 3
  else 2

/-- Entries marked pole 0, which pole 1 shows as pole 0's and does not write (spec/05_pole_control.md). -/
def poleZeroOnly (idx sub : Nat) : Bool :=
  (idx == 0x3803 && sub == 0x10) || (idx == 0x3804 && (sub == 0x0B || sub == 0x0D || sub == 0x0F))

/-- Entries of a lower arm that mirror its upper arm's: the energy-loop floors and the second-harmonic settings (R127,
R148). -/
def isMirror (idx sub : Nat) : Bool :=
  let a := (idx - 0x4000) / 0x100
  0x4000 ≤ idx && idx < 0x4C00 && a % 6 ≥ 3
    && ((idx % 0x100 == 0x11 && (sub == 0x40 || sub == 0x41)) || (idx % 0x100 == 0x14 && sub ≤ 6))

/-- The CRC-32C entry that shows the content of a domain entry of an arm: of the gain points (Table 4.5) and of the compensation tables
(Table 4.8), with the content's length in bytes. -/
def contentCrc (idx sub : Nat) : Option (Nat × Nat) :=
  let k := idx % 0x100
  if idx < 0x4000 || idx ≥ 0x4C00 then none
  else if (k == 0x12 || k == 0x13) && sub == 3 then some (4, 130)
  else if 0x20 ≤ k && k < 0x28 && sub == 0x0B then some (0x0C, 2048)
  else none

/-- What other entries show of an entry that has taken its value: the mirror of an upper arm's entry on the lower arm, or of pole 0's on
pole 1, or the CRC-32C of its content (R127, R148, R192, R193, Tables 4.5 and 4.8). -/
def Device.deriveEntry (d : Device) (idx sub : Nat) : Device :=
  if (0x4000 ≤ idx && idx < 0x4C00) && isMirror (idx + 0x300) sub then d.wr (idx + 0x300) sub (d.rd idx sub)
  else if poleZeroOnly (idx + 0x800) sub then d.wr (idx + 0x800) sub (d.rd idx sub)
  else
    match contentCrc idx sub with
    | none => d
    | some (c, n) =>
      let v := d.rd idx sub
      d.wr idx c (if v = odDefault (odKey idx sub) then odDefault (odKey idx c) else crc32c (leBytes n v))

/-- What a configuration's entries of an arm show in others. -/
def Device.deriveArm (d : Device) (a : Nat) : Device :=
  let i := armIdx 0x4000 a
  let d := (d.deriveEntry (i + 0x12) 3).deriveEntry (i + 0x13) 3
  let d := (List.range 8).foldl (fun d t => d.deriveEntry (i + 0x20 + t) 0x0B) d
  let d := (d.deriveEntry (i + 0x11) 0x40).deriveEntry (i + 0x11) 0x41
  [1, 2, 3, 4, 5, 6].foldl (fun d s => d.deriveEntry (i + 0x14) s) d

/-- R536 on a value of the right length: 0x0609_0031 above the highest accepted, 0x0609_0032 below the lowest, 0x0609_0030
for any other value not accepted (assumption log 12, 14). -/
def rangeAbort (ty : OdTy) (r : OdRange) (v : Nat) : Option Nat :=
  if ty == .bool && v > 1 then some 0x06090031
  else if ty == .f32 && f32Special v then some 0x06090030
  else
    match r with
    | .any => none
    | .finite => none
    | .positive => if f32Val v ≤ 0 then some 0x06090032 else none
    | .nats ivs =>
      let top := ivs.foldl (fun m x => max m x.2) 0
      let bot := ivs.foldl (fun m x => min m x.1) top
      if v > top then some 0x06090031
      else if v < bot then some 0x06090032
      else if ivs.any (fun x => x.1 ≤ v && v ≤ x.2) then none else some 0x06090030
    | .ints lo hi =>
      let i := toInt ty.bits v
      if i > hi then some 0x06090031 else if i < lo then some 0x06090032 else none
    | .reals lo hi =>
      if f32Val v > f32Val hi then some 0x06090031 else if f32Val v < f32Val lo then some 0x06090032 else none

/-- The value that an entry takes at the next T0: that of the last LIVE write accepted since the last T0, else the one in force. -/
def Device.coming (d : Device) (idx sub : Nat) : Nat :=
  match (d.live.filter fun w => w.1 == odKey idx sub).getLast? with
  | some w => w.2
  | none => d.rd idx sub

/-- A limit taken from another entry as it will stand at the next T0: `hi` is true when that entry is an upper limit of the value. -/
def limitBy (d : Device) (v : Nat) (idx sub : Nat) (hi strict : Bool) : Bool :=
  let x := f32Val v
  let y := f32Val (d.coming idx sub)
  if hi then (if strict then x ≥ y else x > y) else (if strict then x ≤ y else x < y)

/-- R107: the window comparator's limits, checked in the order of the rule with the write's own value taken in. -/
def Device.windowAbort (d : Device) (idx sub v : Nat) : Option Nat :=
  let val := fun (s : Nat) => if s = sub then f32Val v else f32Val (d.coming idx s)
  let low := val 0x0A
  let high := val 0x0B
  let hyst := val 0x0C
  if low ≥ high then some 0x06090036
  else if hyst < 0 then some 0x06090032
  else if 2 * hyst ≥ high - low then some 0x06090030 else none

/-- R161, R164: the limits an order of 0x3002 is held against, as subindices (low, high) of 0x3003. -/
def orderLimits (sub : Nat) : Option (Nat × Nat) :=
  match sub with
  | 1 => some (7, 6)
  | 2 => some (9, 8)
  | _ => none

/-- R352: a write of `v` to a bound of the loss tracker that breaks lo ≤ neutral ≤ hi, judged before the range of the entry, whose limit
is the neutral value (assumption log 12). -/
def neutralBroken (idx sub v : Nat) : Bool :=
  let x := f32Val v
  idx == 0x5000 &&
    (((sub == 7 || sub == 0x0A) && decide (x > 0)) || ((sub == 8 || sub == 0x0B || sub == 0x0D) && decide (x < 0))
      || (sub == 0x0F && decide (x > 1)) || (sub == 0x10 && decide (x < 1)))

/-- R352: the bounds of the loss tracker as they will stand at the next T0. `v` is the value written at (idx, sub). -/
def Device.boundAbort (d : Device) (idx sub v : Nat) : Bool :=
  let val := fun (i s : Nat) => if i = idx ∧ s = sub then f32Val v else f32Val (d.coming i s)
  let lo := val 0x5000 0x07
  let hi := val 0x5000 0x08
  let arms := (List.range 12).filter d.armPresent
  arms.any (fun a => decide (val (0x5301 + a) 1 + lo < 0) || decide (val (0x5301 + a) 1 + hi > 1 / 5))
    || decide (lo > 0) || decide (hi < 0)
    || decide (val 0x5000 0x0A > 0) || decide (val 0x5000 0x0B < 0) || decide (val 0x5000 0x0D < 0)
    || decide (val 0x5000 0x0F > 1) || decide (val 0x5000 0x10 < 1)

/-- R143: a table in LEARNING is a voltage-target table, and its content is not written (assumption log 37). -/
def Device.tableAbort (d : Device) (idx sub v : Nat) : Option Nat :=
  if sub = 1 && v = 2 && (d.rd idx 2 == 1 || d.coming idx 2 == 1) then some 0x06090030
  else if sub = 2 && v = 1 && (d.rd idx 1 == 2 || d.coming idx 1 == 2) then some 0x06090030
  else if sub = 0x0B && d.rd idx 1 = 2 then some 0x08000022
  else none

/-- The cells of all arms at the next T0, arm `a` having `n` (R23). -/
def Device.cellsWith (d : Device) (a n : Nat) : Nat :=
  ((List.range 12).map fun b => if b = a then n else d.coming (armIdx 0x4000 b) 2).foldl (· + ·) 0

/-- With `n` cells in arm `a` the station would have pole 1 but not pole 0 (R23). -/
def Device.loneSecondPole (d : Device) (a n : Nat) : Bool :=
  let has := fun (p : Nat) => (armsOf p).any fun b => (if b = a then n else d.coming (armIdx 0x4000 b) 2) != 0
  has 1 && !has 0

/-- The lanes that the first `n` entries of a cell map name, as bits (R255). -/
def mapLanes (n map : Nat) : Nat :=
  (List.range n).foldl (fun m c => let g := field map (16 * c) 16; if g < 8192 then setBit m (g / 256) true else m) 0

/-- With `n` cells and the map `map` in arm `a` a cluster would hold cells of more than two arms, or of both poles (R24). -/
def Device.clusterBroken (d : Device) (a n map : Nat) : Bool :=
  let mine := mapLanes n map
  let rest := (List.range 12).filter (· != a)
  let theirs := rest.map fun b => (b, mapLanes (d.coming (armIdx 0x4000 b) 2) (d.coming (armIdx 0x4000 b) 3))
  (List.range 32).any fun l =>
    bit mine l &&
      (let on := theirs.filter fun x => bit x.2 l
       decide (on.length > 1) || on.any fun x => poleOf x.1 != poleOf a)

/-- The judgement of a write of `v` to the cell count or the cell map of arm `a` (R23, R24) (assumption log 37). -/
def Device.cellsAbort (d : Device) (a sub v : Nat) : Option Nat :=
  if sub = 2 then
    if d.cellsWith a v > 8192 then some 0x06090031
    else if d.loneSecondPole a v || d.clusterBroken a v (d.coming (armIdx 0x4000 a) 3) then some 0x06090030 else none
  else if d.clusterBroken a (d.coming (armIdx 0x4000 a) 2) v then some 0x06090030 else none

/-- The rules that relate an entry's value to other entries as they will stand at the next T0: R23, R24, R107, R143, R147, R150, R271,
R352, R393, R161, and the ranges of chapter 19 that name another entry (assumption log 37). -/
def Device.relationAbort (d : Device) (idx sub v : Nat) : Option Nat :=
  let arm := idx - idx % 0x100
  if 0x5601 ≤ idx && idx ≤ 0x5620 && 0x0A ≤ sub && sub ≤ 0x0C then d.windowAbort idx sub v
  else if 0x4000 ≤ idx && idx < 0x4C00 then
    if idx % 0x100 == 0 && (sub == 2 || sub == 3) then d.cellsAbort ((idx - 0x4000) / 0x100) sub v
    else if idx % 0x100 == 0x10 && sub == 0x0A && limitBy d v (arm + 0x10) 0x09 true true then some 0x06090036
    else if idx % 0x100 == 0x10 && sub == 0x09 && limitBy d v (arm + 0x10) 0x0A false true then some 0x06090036
    else if 0x20 ≤ idx % 0x100 && idx % 0x100 < 0x28 then d.tableAbort idx sub v
    else if idx % 0x100 == 0x14 && sub == 2 && f32Val v < 0 then some 0x06090032
    else if idx % 0x100 == 0x14 && sub == 2 && limitBy d v idx 3 true false then some 0x06090031
    else if idx % 0x100 == 0x14 && sub == 3 && limitBy d v idx 2 false false then some 0x06090036
    else none
  else if 0x5301 ≤ idx && idx ≤ 0x530C && sub == 6 then
    if v > d.coming (armIdx 0x4000 (idx - 0x5301)) 2 then some 0x06090031 else none
  else if (0x5301 ≤ idx && idx ≤ 0x530C && sub == 1) || (idx == 0x5000 && [7, 8, 0x0A, 0x0B, 0x0D, 0x0F, 0x10].contains sub) then
    if d.boundAbort idx sub v then some 0x06090030 else none
  else if 0x5401 ≤ idx && idx ≤ 0x540C then
    if sub == 1 && v + d.coming idx 2 > 255 then some 0x06090030
    else if sub == 2 && v + d.coming idx 1 > 255 then some 0x06090030
    else none
  else if 0x6060 ≤ idx && idx ≤ 0x6067 && (sub == 4 || sub == 5) then
    let f := if sub = 4 then f32Val v else f32Val (d.coming idx 4)
    let t : Rat := if sub = 5 then (v : Rat) else (d.coming idx 5 : Rat)
    if 2 * f * t > 1000000 then some 0x06090030 else none
  else if idx == 0x5800 then
    if sub == 0x49 && limitBy d v idx 0x48 true true then some 0x06090031
    else if sub == 0x48 && limitBy d v idx 0x49 false true then some 0x06090036
    else if sub == 0x4F && f32Val v < 0 then some 0x06090032
    else if sub == 0x4F && limitBy d v idx 0x4E true false then some 0x06090031
    else if sub == 0x4E && limitBy d v idx 0x4F false false then some 0x06090036
    else none
  else if 0x3000 ≤ idx && idx < 0x4000 && idx % 0x800 == 2 then
    match orderLimits sub with
    | some (lo, hi) =>
      if limitBy d v (idx + 1) hi true false then some 0x06090031
      else if limitBy d v (idx + 1) lo false false then some 0x06090032 else none
    | none => none
  else if 0x3000 ≤ idx && idx < 0x4000 && idx % 0x800 == 3 then
    let b := idx
    if (sub == 7 && limitBy d v b 6 true false) || (sub == 6 && limitBy d v b 7 false false)
      || (sub == 9 && limitBy d v b 8 true false) || (sub == 8 && limitBy d v b 9 false false) then some 0x06090036
    else none
  else none

/-- Entries guarded by the metering lock of a TK8192-ME (R396, Table 12.4). -/
def Device.underLock (d : Device) (idx sub : Nat) : Bool :=
  let ch := idx - 0x5601
  (0x5601 ≤ idx && ch < 12 && [0x05, 0x06, 0x45, 0x46, 0x47, 0x49].contains sub)
    || (0x5601 ≤ idx && idx ≤ 0x5620 && (sub == 5 || sub == 6)
        && [0, 1].any fun p => d.rd (0x6001 + p) 0x03 == ch || d.rd (0x6001 + p) 0x04 == ch)
    || (idx == 0x6000 && [4, 5, 7].contains sub)
    || (0x6001 ≤ idx && idx ≤ 0x6002 && 1 ≤ sub && sub ≤ 9)
    || (0x6060 ≤ idx && idx ≤ 0x6067 && 1 ≤ sub && sub ≤ 5)

/-- The part is a TK8192-ME: its product code, which the metering seal gives it, says so (R1, R2). -/
def Device.sealedPart (d : Device) : Bool := d.rd 0x1018 2 == 0x00081921

/-- A sealed entry: the part is a TK8192-ME, its metering lock is closed (1) and the entry is under it (R396). -/
def Device.sealed (d : Device) (idx sub : Nat) : Bool :=
  d.rd 0x6000 0x11 == 1 && d.underLock idx sub && d.sealedPart

end Sys2Proof.Machine
end

