-- ==== Sys2Proof/Machine/Energy.lean ====
section
/-! DEFINITION. The energies of a metering window, the registers they are credited to, the meter log and the save record
(spec/12_metering.md R367 to R398).
Choices of the model: assumption log 11, 48. -/
namespace Sys2Proof.Machine

/-- A series of the metering engine: 0 and 1 the poles, 2 its own. -/
def Device.win (d : Device) (p : Nat) : MeterWin := d.meter.wins.getD p MeterWin.reset

/-- Change the metering engine. -/
def Device.modMeter (d : Device) (f : Meter → Meter) : Device := { d with meter := f d.meter }

/-- Change a series. -/
def Device.modWin (d : Device) (p : Nat) (f : MeterWin → MeterWin) : Device :=
  d.modMeter fun m => { m with wins := m.wins.set p (f (d.win p)) }

/-- A pole with a metering channel set is metered (R367). -/
def Device.metered (d : Device) (p : Nat) : Bool := (d.meterChannels p).any (· < 32)

/-- The series whose windows analyse a channel 0 to 11 (R380). -/
def Device.seriesOf (d : Device) (ch : Nat) : Nat :=
  if (d.meterChannels 0).contains ch then 0
  else if (d.meterChannels 1).contains ch then 1
  else if d.metered 0 then 0
  else if d.metered 1 then 1
  else 2

/-- The windows in progress of the named series close early at the next T0 (R398). -/
def Device.shutEarly (d : Device) (ps : List Nat) : Device :=
  ps.foldl (fun d p => d.modWin p fun w => { w with param := true }) d

/-- An entry of Table 12.4, or a calibration of a metering channel, changes: the windows concerned close early (R398). -/
def Device.noteParam (d : Device) (key : Nat) : Device :=
  let idx := key / 256
  let sub := key % 256
  if idx = 0x6000 && [4, 5, 7].contains sub then d.shutEarly [0, 1, 2]
  else if 0x6001 ≤ idx && idx ≤ 0x6002 && 1 ≤ sub && sub ≤ 9 then d.shutEarly [idx - 0x6001]
  else if 0x6060 ≤ idx && idx ≤ 0x6067 && 1 ≤ sub && sub ≤ 5 then d.shutEarly [d.rd idx 1]
  else if 0x5601 ≤ idx && idx ≤ 0x5620 && ([5, 6].contains sub || (0x41 ≤ sub && sub ≤ 0x47) || sub == 0x49) then
    let ch := idx - 0x5601
    d.shutEarly (([0, 1].filter fun p => (d.meterChannels p).contains ch) ++ if ch < 12 then [d.seriesOf ch] else [])
  else d

/-- The index of a channel's object. -/
def chIdx (ch : Nat) : Nat := 0x5601 + ch

/-- The addresses of Table 12.4, in its order. -/
def Device.lockKeys (d : Device) : List Nat :=
  let ac := (List.range 12).flatMap fun ch => [5, 6, 0x45, 0x46, 0x47, 0x49].map (odKey (chIdx ch))
  let dcs := [d.rd 0x6001 3, d.rd 0x6001 4, d.rd 0x6002 3, d.rd 0x6002 4]
  let dc := ((List.range 32).filter fun ch => ch ≥ 12 && dcs.contains ch).flatMap fun ch => [odKey (chIdx ch) 5, odKey (chIdx ch) 6]
  ac ++ dc ++ [4, 5, 7].map (odKey 0x6000) ++ ([0x6001, 0x6002].flatMap fun i => (List.range 9).map fun k => odKey i (k + 1))
    ++ ((List.range 8).flatMap fun o => (List.range 5).map fun k => odKey (0x6060 + o) (k + 1))

/-- The CRC of the values of Table 12.4, each little-endian (assumption log 49). -/
def Device.lockCrc (d : Device) : Nat :=
  crc32c (d.lockKeys.flatMap fun k => leBytes ((odBits k + 7) / 8) (odGet d.od k))

/-- Show the CRC of the values of Table 12.4 (R396). -/
def Device.showLockCrc (d : Device) : Device := d.wr 0x6000 0x13 d.lockCrc

/-- N_c of R369: 10 cycles at 50 Hz, 12 at 60 Hz. -/
def Device.cyclesPerWindow (d : Device) : Nat := if d.rd 0x6000 5 = 60 then 12 else 10

/-- The nominal window length of 200 ms, in half microseconds. -/
def nominalHu : Nat := 400000

/-! ### The DFT of a window (R372, R381) -/

/-- The conversions of a channel in the window in progress, oldest first, each with its instant since the opening in units of 25 ns. -/
def Device.stream (d : Device) (ch : Nat) : List (Nat × Rat) := (d.meter.streams.getD ch []).reverse

/-- Σ x e^(-2πi k t / n) over conversions x sampled at t: real and imaginary part. -/
def dftSum (k n : Nat) : List (Nat × Rat) → Rat × Rat
  | [] => (0, 0)
  | (j, x) :: r =>
    let (a, b) := dftSum k n r
    let t : Rat := ((k * j % max 1 n : Nat) : Rat) / ((max 1 n : Nat) : Rat)
    (x * Config.realCos t + a, b - x * Config.realSin t)

/-- The rms phasor of bin `k` times √(1/2), over a window of `hu` half microseconds, each 20 units of 25 ns. -/
def phasor (xs : List (Nat × Rat)) (k hu : Nat) : Rat × Rat :=
  let (a, b) := dftSum k (20 * hu) xs
  let n : Rat := ((max 1 xs.length : Nat) : Rat)
  (a / n, b / n)

/-- C_k². -/
def binSq (xs : List (Nat × Rat)) (hu k : Nat) : Rat :=
  let (a, b) := phasor xs k hu
  2 * (a * a + b * b)

/-- The square of the group value of order `h`, or of the subgroup value in grouping mode 1 (R381). -/
def groupSq (xs : List (Nat × Rat)) (hu nc : Nat) (sub : Bool) (h : Nat) : Rat :=
  let k := nc * h
  let m := nc / 2
  if sub then binSq xs hu (k - 1) + binSq xs hu k + binSq xs hu (k + 1)
  else
    let inner := ((List.range (2 * m - 1)).map fun i => binSq xs hu (k - (m - 1) + i)).foldl (· + ·) (0 : Rat)
    (binSq xs hu (k - m) + binSq xs hu (k + m)) / 2 + inner

/-- V₁ I₁ sin(α_v − α_i) of the fundamental. -/
def reactivePower (v i : List (Nat × Rat)) (nc hu : Nat) : Rat :=
  let (a, b) := phasor v nc hu
  let (x, y) := phasor i nc hu
  2 * (b * x - a * y)

/-! ### The energies of a window (R372, R373) -/

/-- The part of a value above zero. -/
def posPart (x : Rat) : Rat := if x > 0 then x else 0

/-- What a window yields: the increments of Table 12.1 in order, and its creep bits (4 and 5). -/
def Device.windowEnergy (d : Device) (p : Nat) : List Rat × Nat :=
  let w := d.win p
  let ch := d.meterChannels p
  let i := 0x6001 + p
  let creep := d.rdF i 9
  let lim := creep * d.rdF i 5
  let quiet := fun (x : Nat) =>
    let n := w.n.getD x 0
    n == 0 || decide (w.i2.getD x 0 / (n : Rat) < lim * lim)
  let acCreep := quiet 0 && quiet 1 && quiet 2
  let meanDc : Rat := if w.nDc = 0 then 0 else w.idc / (w.nDc : Rat)
  let dcCreep := decide (ratAbs meanDc < creep * d.rdF i 7)
  let unit : Rat := 7200000
  let ex := fun (x : Nat) => if acCreep then 0 else w.ep.getD x 0 / unit
  let qx := fun (x : Nat) =>
    reactivePower (d.stream (ch.getD x 255)) (d.stream (ch.getD (x + 3) 255)) d.cyclesPerWindow w.hu * (w.hu : Rat) / unit
  let eP := ex 0 + ex 1 + ex 2
  let eQ := if acCreep then 0 else qx 0 + qx 1 + qx 2
  let eS := if acCreep then 0 else Config.realSqrt (eP * eP + eQ * eQ)
  let eDc := if dcCreep then 0 else w.dc / 3600000
  let eL := eDc - eP
  let inc : List Rat :=
    [posPart (ex 0), posPart (ex 1), posPart (ex 2), posPart (-ex 0), posPart (-ex 1), posPart (-ex 2), posPart eP, posPart (-eP),
      if eP ≥ 0 ∧ eQ ≥ 0 then eQ else 0, if eP < 0 ∧ eQ ≥ 0 then eQ else 0, if eP < 0 ∧ eQ < 0 then -eQ else 0,
      if eP ≥ 0 ∧ eQ < 0 then -eQ else 0, if eP ≥ 0 then eS else 0, if eP < 0 then eS else 0,
      posPart eDc, posPart (-eDc), posPart eL, posPart (-eL)]
  (inc, 16 * b2n acCreep + 32 * b2n dcCreep)

/-! ### The meter log (R397) -/

/-- The 32 bytes of a meter-log entry, Table 12.5. -/
def MeterEntry.bytes (e : MeterEntry) : List Nat :=
  beBytes 32 (e.seq % 2 ^ 32 * 2 ^ 224 + e.tick % 2 ^ 64 * 2 ^ 160 + e.utc % 2 ^ 32 * 2 ^ 128 + e.typ % 2 ^ 8 * 2 ^ 120
    + e.pole % 2 ^ 8 * 2 ^ 112 + e.item % 2 ^ 8 * 2 ^ 104 + e.value % 2 ^ 64)

/-- Show the meter log. -/
def Device.showMeterLog (d : Device) : Device :=
  let l := d.meter.log
  (d.wr 0x6070 1 (leNat (l.flatMap MeterEntry.bytes))).wr 0x6070 2 ((l.getLast?.map (·.seq)).getD 0)

/-- Append an entry with a given tick and UTC second; a full log overwrites its oldest entry, counted. -/
def Device.meterLogAt (d : Device) (tick utc typ pole item value : Nat) : Device :=
  let e : MeterEntry := ⟨d.meter.logSeq, tick, utc, typ, pole, item, value⟩
  let full := d.meter.log.length ≥ 1024
  let d := d.modMeter fun m =>
    { m with log := (if full then m.log.drop 1 else m.log) ++ [e], logSeq := (m.logSeq + 1) % 2 ^ 32 }
  (if full then d.bump 0x6070 3 4 else d).showMeterLog

/-- Append an entry of the present tick. -/
def Device.meterLog (d : Device) (typ pole item value : Nat) : Device := d.meterLogAt d.tick d.utc typ pole item value

/-! ### Credit (R374, R378) -/

/-- Show register `k` in its legacy form; a rollover count that changes is an event and an entry of the meter log. -/
def Device.showLegacy (d : Device) (p k : Nat) : Device :=
  let a := d.rd (0x6010 + p) (k + 1)
  let i := 0x6018 + p
  let roll := a / 10 ^ 15
  let d := d.wr i (k + 1) (a / 10 ^ 6 % 10 ^ 9)
  if roll = d.rd i (k + 0x13) then d
  else ((d.wr i (k + 0x13) roll).event i (k + 0x13) lvInfo []).meterLog 7 p (k + 1) roll

/-- Add an increment to register `k` of a pole through its residue. -/
def Device.creditOne (d : Device) (p k : Nat) (inc : Rat) : Device :=
  if inc = 0 then d
  else
    let r := (d.win p).resid
    let s := r.getD k 0 + inc
    let whole := (ratFloor s).toNat
    let d := d.modWin p fun w => { w with resid := r.set k (s - (whole : Rat)) }
    if whole = 0 then d else (d.accum (0x6010 + p) (k + 1) (k + 0x13) whole).showLegacy p k

/-- Add increments to the registers from `k` on. -/
def Device.creditFrom (p : Nat) : Nat → List Rat → Device → Device
  | _, [], d => d
  | k, x :: r, d => Device.creditFrom p (k + 1) r (d.creditOne p k x)

/-- Credit a window's increments to the registers of a pole. -/
def Device.credit (d : Device) (p : Nat) (incs : List Rat) : Device := Device.creditFrom p 0 incs d

/-! ### The save record (R383 to R389) -/

/-- The slot that holds the newest valid record. -/
def Device.newestSlot (d : Device) : Option Nat :=
  match d.meter.slots with
  | [a, b] =>
    if a.ok && b.ok then some (if newer 32 a.seq b.seq then 1 else 0)
    else if a.ok then some 0
    else if b.ok then some 1
    else none
  | _ => none

/-- The newest valid record. -/
def Device.newestSave (d : Device) : Option SaveRec :=
  match d.newestSlot with
  | some i => d.meter.slots[i]?
  | none => none

/-- The values of one 18-entry register file of both poles. -/
def Device.bothPoles (d : Device) (base first : Nat) : List Nat :=
  [0, 1].flatMap fun p => (List.range 18).map fun k => d.rd (base + p) (first + k)

/-- The save record of the present state (assumption log 49). -/
def Device.saveRecord (d : Device) (endgame : Bool) : SaveRec where
  ok := true
  seq := match d.newestSave with
    | some r => (r.seq + 1) % 2 ^ 32
    | none => 1
  endgame := endgame
  tick := d.tick
  utc := d.utc
  every := d.rd 0x6000 4
  accs := d.bothPoles 0x6010 1
  wraps := d.bothPoles 0x6010 0x13
  resid := (d.win 0).resid ++ (d.win 1).resid
  part := [0, 1].flatMap fun p => if d.metered p then (d.windowEnergy p).1 else List.replicate 18 0
  rolls := d.bothPoles 0x6018 0x13
  backlog := (List.range 8).map fun o => d.rd (0x6060 + o) 6
  pres := d.meter.pulses.map (·.resid)

/-- The slot a record is written to first: the one that does not hold the newest valid record. -/
def Device.olderSlot (d : Device) : Nat :=
  match d.newestSlot with
  | some i => 1 - i
  | none => 0

/-- Write a record to a slot. -/
def Device.writeSlot (d : Device) (i : Nat) (r : SaveRec) : Device := d.modMeter fun m => { m with slots := m.slots.set i r }

/-- The endgame save of a reset request, fed from the supply (R385, R387): both slots. -/
def Device.endgameSave (d : Device) : Device :=
  if d.boot.plantHeld then d
  else
    let r := d.saveRecord true
    (d.writeSlot 0 r).writeSlot 1 r

/-- The metering engine in a reset of the plant half: the save slots and the meter log stay. -/
def Meter.kept (m : Meter) : Meter := { Meter.reset with slots := m.slots, log := m.log, logSeq := m.logSeq }

end Sys2Proof.Machine
end

