-- ==== Sys2Proof/Machine/RecSlots.lean ====
section
/-! DEFINITION. The slots of the disturbance recorder and how the station half stores the stream in them (R673 to R681,
spec/20_recorder_and_health.md).
Choices of the model: assumption log 75. -/
namespace Sys2Proof.Machine

/-- Half a record in ticks: N = 1.5 s / P (R674). -/
def Device.recN (d : Device) : Nat := 1500000 / d.period

/-- The entries in use of the channel list: the position of the last non-zero entry plus one (R673). -/
def Device.recChannels (d : Device) : Nat :=
  (List.range 512).foldl (fun acc i => if field (d.rd 0xB000 0x09) (32 * i) 32 ≠ 0 then i + 1 else acc) 0

/-- The slot size in MiB (R675). -/
def slotMiB (period c w m : Nat) : Nat :=
  let tickPart := 3100000 * 4 * c / period
  let snapPart := if w > 0 then (2 * w + 100) * 10 * 4096 * m else 0
  max 1 ((tickPart + snapPart + 1048575) / 1048576)

/-- The slots the recorder area holds (R675). -/
def slotCount (size : Nat) : Nat := min 4 (3968 / size)

/-- The slot states as 0xB000.04 shows them. -/
def slotStates : List RecSlot → Nat
  | [] => 0
  | s :: r => s.state % 16 + 16 * slotStates r

/-- Show the slot states. -/
def Device.showSlots (d : Device) : Device := d.wr 0xB000 0x04 (slotStates d.recorder)

/-- Of the slots in `st`, the one with the least age. -/
def oldestSlot (sl : List RecSlot) (st : Nat) : Option Nat :=
  let cand := (List.range sl.length).filter fun i => (sl.getD i RecSlot.reset).state == st
  cand.foldl (fun acc i =>
    match acc with
    | none => some i
    | some j => if (sl.getD i RecSlot.reset).age < (sl.getD j RecSlot.reset).age then some i else some j) none

/-- Count an event counter of the station half with its event (R672). -/
def Device.stCount (d : Device) (idx sub sticky : Nat) : Device := (d.bump idx sub sticky).stEvent idx sub lvWarn []

/-- Arm a slot when none is ARMED or RECORDING and the recorder is enabled (Table 20.4, first row). -/
def Device.armRecorder (d : Device) : Device :=
  let n := d.rd 0xB000 0x02
  let sl := d.recorder.take n
  if !d.flag 0xB000 0x01 || sl.any (fun s => s.state == 1 || s.state == 2) then d.showSlots
  else
    let free := oldestSlot sl 0
    let pick := match free with
      | some i => some (i, false)
      | none =>
        match oldestSlot sl 4 with
        | some i => some (i, false)
        | none => if d.flag 0xB000 0x07 then (oldestSlot sl 3).map (·, true) else none
    match pick with
    | none => d.showSlots
    | some (i, held) =>
      let d := { d with recorder := d.recorder.set i { RecSlot.reset with state := 1, armTick := d.tick } }
      (if held then d.stCount 0xB000 0x11 0x12 else d).showSlots

/-- The oldest tick a slot holds. -/
def RecSlot.oldest (sl : RecSlot) (dflt : Nat) : Nat :=
  match sl.ticks with
  | [] => dflt
  | t :: _ => t.tick

/-- The lane pairs in which a lane carries cells (R674). -/
def Device.lanePairs (d : Device) : List Nat :=
  (List.range 16).filter fun m => d.laneCells (2 * m) != 0 || d.laneCells (2 * m + 1) != 0

/-- The tick of the last snapshot of a record with trigger tick `t` (R674). -/
def Device.lastSnap (d : Device) (t : Nat) : Nat :=
  let every := max 1 (100 / d.period)
  (t + d.ticksOf (1000 * d.rd 0xB000 0x0A)) / every * every

/-- A trigger event with source mask `src` and tick `t` at the station half (R676, R678, R679). -/
def Device.recTrigger (d : Device) (src t : Nat) : Device :=
  let src := src &&& d.rd 0xB000 0x05
  if src = 0 then d
  else
    let n := d.rd 0xB000 0x02
    let idx := List.range n
    match idx.find? (fun i => (d.recorder.getD i RecSlot.reset).state == 2) with
    | some i =>
      let sl := d.recorder.getD i RecSlot.reset
      if sl.trigTick = t then
        { d with recorder := d.recorder.set i { sl with trigSrc := sl.trigSrc ||| src } }
      else
        let r := if sl.retrig.length < 16 then sl.retrig ++ [(src, t)] else sl.retrig
        { d with recorder := d.recorder.set i { sl with retrig := r } }.stCount 0xB000 0x0D 0x0E
    | none =>
      match idx.find? (fun i => (d.recorder.getD i RecSlot.reset).state == 1) with
      | some i =>
        let sl := d.recorder.getD i RecSlot.reset
        let first := t - d.recN
        let at1 := d.utcMicros - (d.tick - t) * d.period
        let short := sl.oldest (max sl.armTick t) > first
        let w := d.ticksOf (1000 * d.rd 0xB000 0x0A)
        let sl := { sl with
          ticks := sl.ticks.filter fun x => decide (x.tick ≥ first)
          snaps := sl.snaps.filter fun x => decide (x.tick + w ≥ t)
          state := 2, age := t, trigTick := t, trigSrc := src
          utc := at1 / 1000000 % 2 ^ 32, subsec := at1 % 1000000
          flags := setBit sl.flags 0 short
          cfgVer := d.rd 0xA000 0x03, cfgCrc := d.rd 0xA000 0x04 }
        let d := { d with recorder := d.recorder.set i sl }
        (((d.stCount 0xB000 0x0B 0x0C).wr 0xB000 0x30 t).wr 0xB000 0x31 src).showSlots
      | none => d.stCount 0xB000 0x0F 0x10

/-- The station half finds channel 4 entering PARTNER-RESET: trigger source 13, with the last tick number it received (R676). -/
def Device.recPartnerReset (d : Device) : Device :=
  if d.boot.stationHeld || d.boot.stationDown then d else d.recTrigger 0x2000 (d.rd 0x2030 0x02)

/-! ### Storing the stream (R674, R678, R679) -/

/-- The value of a tick that is missing from the stream, and of an unused entry. -/
def noValue : Nat := 0x7FC00000

/-- What the slot keeps of the stream: ticks from `lo` on and before `hi`, snapshots from `slo` to `shi`, `c` values a tick, over the
lane pairs `pairs`, every `every` ticks. -/
structure SlotSpan where
  lo    : Nat
  hi    : Nat
  slo   : Nat
  shi   : Nat
  c     : Nat
  pairs : List Nat
  every : Nat
  deriving DecidableEq, Repr

/-- Count missing ticks or snapshots of a slot. -/
def RecSlot.gap (sl : RecSlot) (n : Nat) : RecSlot :=
  if n = 0 then sl else { sl with gaps := sl.gaps + n, flags := setBit sl.flags 1 true }

/-- Store one tick; the ticks missing before it read as no value. -/
def RecSlot.storeTick (sp : SlotSpan) (sl : RecSlot) (t : Nat) (vals : List Nat) : RecSlot :=
  if t < sp.lo then sl
  else
    let kept := sl.ticks.filter fun x => decide (sp.lo ≤ x.tick) && decide (x.tick < t)
    let next := match kept.getLast? with
      | some x => x.tick + 1
      | none => t
    let top := min t sp.hi
    let miss := (List.range (top - next)).map fun i => (⟨next + i, List.replicate sp.c noValue⟩ : StreamTick)
    let now : List StreamTick := if t < sp.hi then [⟨t, vals.take sp.c⟩] else []
    { sl.gap miss.length with ticks := kept ++ miss ++ now }

/-- A snapshot's bytes for one lane pair, all 0 where it is missing. -/
def blankSnap (t m : Nat) : Snapshot := ⟨t, m, List.replicate 4096 0⟩

/-- Complete the newest snapshot and add those missing before tick `t`. -/
def RecSlot.fillSnaps (sp : SlotSpan) (sl : RecSlot) (t : Nat) : RecSlot :=
  match sl.snaps.getLast? with
  | none => sl
  | some x =>
    let have0 := (sl.snaps.filter fun y => y.tick == x.tick).length
    let rest := (sp.pairs.drop have0).map (blankSnap x.tick)
    let top := min (t - 1) sp.shi
    let n := (top - x.tick) / sp.every
    let more := (List.range n).flatMap fun i => sp.pairs.map (blankSnap (x.tick + (i + 1) * sp.every))
    { sl.gap (n + if rest.isEmpty then 0 else 1) with snaps := sl.snaps ++ rest ++ more }

/-- Store one snapshot message. -/
def RecSlot.storeSnap (sp : SlotSpan) (sl : RecSlot) (t : Nat) (bytes : List Nat) : RecSlot :=
  if t < sp.slo then sl
  else
    let sl := { sl with snaps := sl.snaps.filter fun x => decide (sp.slo ≤ x.tick) && decide (x.tick ≤ t) }
    let newest := match sl.snaps.getLast? with
      | some x => x.tick
      | none => t
    let sl := if newest < t then sl.fillSnaps sp t else sl
    if t > sp.shi then sl
    else
      let k := (sl.snaps.filter fun x => x.tick == t).length
      match sp.pairs[k]? with
      | some m => { sl with snaps := sl.snaps ++ [⟨t, m, bytes⟩] }
      | none => sl

/-- What a slot keeps: while ARMED the ring of N + 0.1 s before the newest tick, while RECORDING the record. -/
def Device.slotSpan (d : Device) (sl : RecSlot) (t : Nat) : SlotSpan :=
  let w := d.ticksOf (1000 * d.rd 0xB000 0x0A)
  let late := d.ticksOf 100000
  let c := d.recChannels
  let pairs := if w = 0 then [] else d.lanePairs
  let every := max 1 (100 / d.period)
  if sl.state = 2 then
    ⟨sl.trigTick - d.recN, sl.trigTick + d.recN, sl.trigTick - w, d.lastSnap sl.trigTick, c, pairs, every⟩
  else ⟨t - d.recN - late, t + 1, t - w - late, t, c, pairs, every⟩

/-- Store one recorder stream message, received while the tick number is `d.tick`; each slot that finds a gap counts it (R679). -/
def Device.storeStream (d : Device) (typ tickLo : Nat) (payload : List Nat) : Device :=
  let t := d.tick - (d.tick - tickLo) % 2 ^ 32
  let word := fun i => leNat ((payload.drop (4 * i)).take 4)
  let store := fun (sl : RecSlot) =>
    if sl.state ≠ 1 && sl.state ≠ 2 then sl
    else if typ = 1 then
      let sl := sl.storeTick (d.slotSpan sl (t - 2)) (t - 2) ((List.range 512).map word)
      sl.storeTick (d.slotSpan sl (t - 1)) (t - 1) ((List.range 512).map fun i => word (512 + i))
    else sl.storeSnap (d.slotSpan sl t) t payload
  let after := d.recorder.map store
  let sum := fun (l : List RecSlot) => l.foldl (fun n (x : RecSlot) => n + x.gaps) 0
  let found := decide (sum after > sum d.recorder)
  let d := { d with recorder := after }
  if found then d.stCount 0xB000 0x13 0x14 else d

end Sys2Proof.Machine
end

