-- ==== Sys2Proof/Machine/SdoRead.lean ====
section
/-! DEFINITION. The reading of entries by SDO (R9, R532 to R535, R547, R549): the judgement of a read, what it returns from the last tick
boundary, and the object-access messages that carry it over the barrier (R613, Table 18.4).
Choices of the model: assumption log 88. -/
namespace Sys2Proof.Machine

/-- The tick boundary of the present T0: what the plant half holds now is what SDO reads return until the next one (R9). -/
def Device.markBoundary (d : Device) : Device :=
  { d with boundary := ⟨d.od, d.barrier.chans, d.barrier.stationView⟩ }

/-- An SDO abort: its code and address are shown in 0x2002.08 and .09 (R538). -/
def Device.abort (d : Device) (idx sub code : Nat) : Device :=
  let d := (d.wr 0x2002 0x08 code).wr 0x2002 0x09 (idx * 2 ^ 16 + sub * 2 ^ 8)
  { d with station := { d.station with sdoResult := code } }

/-! ### The judgement -/

/-- The subindex of an entry's row for subindex 0 of an object without one of its own: the highest subindex in use (R532). -/
def OdObject.highest (o : OdObject) : Nat := o.entries.foldl (fun m e => max m e.hi) 0

/-- The judgement of an SDO read of one entry at an access level: the abort code, or none (R532, R535, R537, R549). -/
def readAbort (level idx sub : Nat) : Option Nat :=
  match odObject? odObjects idx with
  | none => some 0x06020000
  | some (o, _) =>
    match odRow? o.entries sub with
    | none => if sub = 0 then none else some 0x06090011
    | some e =>
      if e.acc == .wo then some 0x06010001
      else if sub ≥ 0x40 && level < 2 then some 0x06010000
      else none

/-! ### What a read returns -/

/-- The wrap count of an accumulator, by its subindex (Table 0.5). -/
def wrapOf (idx sub : Nat) : Option Nat :=
  if (idx == 0x6010 || idx == 0x6011) && 1 ≤ sub && sub ≤ 0x12 then some (sub + 0x12)
  else if 0x5550 ≤ idx && idx < 0x5570 && sub == 1 then some 2
  else if idx == 0x9010 && sub == 0x41 then some 0x42
  else if 0x6060 ≤ idx && idx < 0x6068 && sub == 8 then some 9
  else if idx == 0x5700 && sub == 7 then some 8
  else if idx == 0x5B00 && sub == 5 then some 6
  else if 0x4000 ≤ idx && idx < 0x4C00 && idx % 0x100 == 4 && sub == 0x0F then some 0x10
  else none

/-- The sticky bit of an event counter, by its subindex (Table 0.5). -/
def stickyOf (idx sub : Nat) : Option Nat :=
  match odObject? odObjects idx with
  | none => none
  | some (o, _) => (clearRows.find? fun r => r.base == o.base && r.ctr == sub).map (·.sticky)

/-- The entry that a read of a counter returns with it: the wrap count of an accumulator, the sticky bit of an event counter (R9). -/
def companionOf (idx sub : Nat) : Option Nat :=
  match wrapOf idx sub with
  | some w => some w
  | none => stickyOf idx sub

/-- The barrier's channel table, from the channels of a boundary, is the one entry that is not held as a value (R630, R631). -/
def chanTableKey : Nat := 0x5A0005

/-- The poles and arms that an entry is an instance of, by the arms of which one must be present: every arm of the pole, or the arm
itself; none for other entries (R533). -/
def instanceArms (idx : Nat) : List Nat :=
  if 0x3000 ≤ idx && idx < 0x4000 then armsOf (if idx ≥ 0x3800 then 1 else 0)
  else if 0x4000 ≤ idx && idx < 0x4C00 then [(idx - 0x4000) / 0x100]
  else if 0x5001 ≤ idx && idx ≤ 0x5002 then armsOf (idx - 0x5001)
  else if 0x5100 ≤ idx && idx < 0x5110 then armsOf (idx % 4)
  else if 0x5200 ≤ idx && idx ≤ 0x5201 then armsOf (idx - 0x5200)
  else if 0x5301 ≤ idx && idx ≤ 0x530C then [idx - 0x5301]
  else if 0x5401 ≤ idx && idx ≤ 0x540C then [idx - 0x5401]
  else []

/-- What an entry reads: its value, or its default while its instance is absent (R533) (assumption log 88). -/
def odShown (od : List (Nat × Nat)) (key : Nat) : Nat :=
  let arms := instanceArms (key / 256)
  if arms.isEmpty || arms.any fun a => odGet od (odKey (armIdx 0x4000 a) 2) != 0 then odGet od key else odDefault key

/-- The bytes of one entry in a store, `table` being those of the channel table. -/
def entryBytes (od : List (Nat × Nat)) (table : List Nat) (idx sub : Nat) : List Nat :=
  match odObject? odObjects idx with
  | none => []
  | some (o, _) =>
    match odRow? o.entries sub with
    | none => [o.highest]
    | some e => if odKey idx sub = chanTableKey then table else leBytes e.ty.bytes (odShown od (odKey idx sub))

/-- The bytes that a read of one entry returns: its value, and after it that of its companion, from the same boundary (R9, R547). -/
def readEntry (od : List (Nat × Nat)) (table : List Nat) (idx sub : Nat) : List Nat :=
  entryBytes od table idx sub ++
    (match companionOf idx sub with
     | some c => entryBytes od table idx c
     | none => [])

/-- The bytes that a complete-access read returns: every entry of the object that the level may read, in ascending subindex, from the
same boundary (R547). -/
def readObject (od : List (Nat × Nat)) (table : List Nat) (level idx : Nat) : List Nat :=
  match odObject? odObjects idx with
  | none => []
  | some (o, _) =>
    (List.range (o.highest + 1)).flatMap fun sub =>
      match readAbort level idx sub with
      | none => entryBytes od table idx sub
      | some _ => []

/-! ### Over the barrier -/

/-- One entry of the channel table, Table 18.9, as a 384-bit number. Counters kept at the station interface come from the
last link-status block. -/
def chanEntry (c : Nat) (ch st : Chan) : Nat :=
  let b := (binding? c).getD ⟨0xFF, 0, 0xFF, 0, 0, 0, 0⟩
  let tx := if isStationId b.sender then st else ch
  let rx := if isStationId b.recvr then st else ch
  b.sender * 2 ^ 376 + b.spairs * 2 ^ 372 + b.rpairs * 2 ^ 368 + b.recvr * 2 ^ 360 + ch.state * 2 ^ 358
    + b.slots * 2 ^ 336 + rx.queue.length * 2 ^ 320 + tx.seqTx * 2 ^ 288 + rx.seqRx * 2 ^ 256 + tx.sent * 2 ^ 224
    + tx.sentWrap * 2 ^ 192 + tx.discards * 2 ^ 160 + tx.fulls * 2 ^ 128 + tx.viols * 2 ^ 96 + rx.gaps * 2 ^ 64
    + ch.presets * 2 ^ 32 + b2n tx.discStk * 16 + b2n tx.fullStk * 8 + b2n tx.violStk * 4 + b2n rx.gapStk * 2 + b2n ch.prStk

/-- The channel table 0x5A00.05 as the bytes of its sixteen entries. -/
def chanTable (chans view : List Chan) : List Nat :=
  (List.range 16).flatMap fun c => beBytes 48 (chanEntry c (chans.getD c Chan.reset) (view.getD c Chan.reset))

/-- The answer of the plant half to a read: the abort code, or the bytes of the last tick boundary (R547). -/
def Device.readAnswer (d : Device) (whole : Bool) (level idx sub : Nat) : Nat ⊕ List Nat :=
  match readAbort level idx (if whole then 0 else sub) with
  | some code => .inl code
  | none =>
    let table := chanTable d.boundary.chans d.boundary.view
    .inr (if whole then readObject d.boundary.od table level idx else readEntry d.boundary.od table idx sub)

/-- The plant half answers on channel 1: the first bytes in the reply, the others kept for the segments that are asked for. -/
def Device.sendAnswer (d : Device) (typ : Nat) (head bytes : List Nat) : Device :=
  let n := 1024 - head.length
  let d := { d with barrier := { d.barrier with upload := bytes.drop n } }
  (d.send 1 1 typ 2 (head ++ bytes.take n)).dev

/-- The plant half serves an object-access request that core pair 2 has taken from channel 0: READ, the next SEGMENT of an answer, or
ABORT (Table 18.4). The request and the answer have the layout of CoE. -/
def Device.serveAccess (d : Device) (m : Msg) : Device :=
  let idx := leNat ((m.payload.drop 1).take 2)
  let sub := m.payload.getD 3 0
  let addr := leBytes 2 idx ++ [sub % 256]
  if m.cls ≠ 1 then d
  else
    match m.typ with
    | 1 =>
      match d.readAnswer (bit (m.payload.headD 0) 4) (m.payload.getD 4 0) idx sub with
      | .inl code => (d.send 1 1 0x84 2 ([0x80] ++ addr ++ leBytes 4 code)).dev
      | .inr bytes => d.sendAnswer 0x81 ([0x41] ++ addr ++ leBytes 4 bytes.length) bytes
    | 3 => d.sendAnswer 0x83 [b2n (decide (d.barrier.upload.length ≤ 1023))] d.barrier.upload
    | 4 => { d with barrier := { d.barrier with upload := [] } }
    | _ => d

/-- The station half takes an answer from channel 1: an abort is shown, the bytes of a read are collected. -/
def Device.takeAnswer (d : Device) (typ : Nat) (bytes : List Nat) : Device :=
  match typ with
  | 0x81 =>
    let data := bytes.drop 8
    let more := decide (data.length < leNat ((bytes.drop 4).take 4))
    { d with station := { d.station with sdoBusy := more, sdoResult := 0, sdoData := data, sdoMore := more } }
  | 0x83 =>
    let more := decide (bytes.headD 1 % 2 = 0)
    { d with station := { d.station with sdoBusy := more, sdoData := d.station.sdoData ++ bytes.drop 1, sdoMore := more } }
  | 0x84 =>
    let d := d.abort (leNat ((bytes.drop 1).take 2)) (bytes.getD 3 0) (leNat ((bytes.drop 4).take 4))
    { d with station := { d.station with sdoBusy := false, sdoData := [], sdoMore := false } }
  | _ => { d with station := { d.station with sdoBusy := false } }

end Sys2Proof.Machine
end

