-- ==== Sys2Proof/Machine/Barrier.lean ====
section
/-! DEFINITION. The barrier commands (spec/18_barrier_channels.md): sending, receiving and taking messages, doorbells, lane
failure and training, partner reset. -/
namespace Sys2Proof.Machine

/-- An access by the bound sender (R610, R612). -/
def Binding.sendsBy (b : Binding) (ident pair : Nat) : Bool :=
  b.sender == ident && (ident != 2 || bit b.spairs pair)

/-- An access by the bound receiver. -/
def Binding.takenBy (b : Binding) (ident pair : Nat) : Bool :=
  b.recvr == ident && (ident != 2 || bit b.rpairs pair)

/-- The default doorbell mask of Table 18.5: all bits but MSG, URGENT and ABORT. -/
def maskDefault : Nat := 0xFFFFFFF8

/-- Enter OPEN (Table 18.6): SEQ 0, queue empty, credits full, doorbells 0, masks default, sender interrupt under R622. -/
def Chan.bind (ch : Chan) (slots : Nat) : Chan :=
  { ch with
    state := 2, stState := 2, nextTx := 0, seqTx := 0, expect := 0, seqRx := 0, flight := [], part := 0, fails := 0, queue := []
    credits := slots
    bells := 0, mask := maskDefault, txIrq := ch.txIrq || ch.emptyEn, rxIrq := false }

/-- Saturating add of `n` to a 32-bit event counter. -/
def satAdd (v n : Nat) : Nat := min (v + n) (2 ^ 32 - 1)

/-- Enter PARTNER-RESET. With the receiver's domain faulted every message not yet taken is discarded (R624); with the
sender's, what the receiving queue holds stays and what was on its way is discarded (R625). -/
def Chan.partnerReset (ch : Chan) (recvFaulted : Bool) : Chan :=
  let lost := ch.flight.length + (if recvFaulted then ch.queue.length else 0)
  { ch with
    state := 3
    stState := 3
    flight := []
    part := 0
    fails := 0
    queue := if recvFaulted then [] else ch.queue
    discards := satAdd ch.discards lost
    discStk := ch.discStk || decide (ch.discards + lost ≥ 2 ^ 32 - 1)
    presets := satInc ch.presets
    prStk := satStk ch.presets ch.prStk
    txIrq := ch.txIrq || ch.emptyEn
    rxIrq := ch.rxIrq || (!recvFaulted && ch.queue.isEmpty) }

/-- One channel of a list goes to PARTNER-RESET if it is OPEN and `sel` names it; an event is recorded (R626). The
station half takes channel 4 as a recorder trigger (R676). -/
def resetChan (sel : Binding → Bool) (recv : Binding → Bool) (d : Device) (c : Nat) : Device :=
  match binding? c with
  | none => d
  | some b =>
    if (d.chan c).state = 2 && sel b then
      let d := (d.setChan c ((d.chan c).partnerReset (recv b))).event 0x5A00 0x05 lvWarn []
      if c = 4 then d.recPartnerReset else d
    else d

/-- Every ring entry not delivered is again to be sent (R627). -/
def unqueue (es : List RingEntry) : List RingEntry := es.map fun e => { e with queued := e.delivered }

/-- Work in progress over the barrier is given up: the SDO transfer aborts, and a validation ends with result 3 and leaves its
slot STAGED (R591, R628, Table 1.2). -/
def Device.giveUpTransfers (d : Device) : Device :=
  let d := if d.boot.validating.isSome then d.wr 0xA000 0x09 3 else d
  let d := { d with boot := { d.boot with validating := none } }
  if d.station.sdoBusy then
    let d := (d.wr 0x2002 0x08 0x08000022)
    { d with station := { d.station with sdoBusy := false } }
  else d

/-- The station half is lost to the plant half: partner reset on every channel (Table 1.2); stale process data. -/
def Device.stationLost (d : Device) : Device :=
  let d := (List.range 12).foldl (resetChan (fun _ => true) (fun b => isStationId b.recvr)) d
  let d := { d with ring := { d.ring with entries := unqueue d.ring.entries } }
  d.giveUpTransfers

/-- A lock-step fault: the channels of PAIRS go to PARTNER-RESET with the core pairs as the faulted domain (Table 18.6). -/
def Device.pairsLost (d : Device) : Device :=
  let d := (List.range 12).foldl (resetChan (fun b => b.sender == 2 || b.recvr == 2) (fun b => b.recvr == 2)) d
  let d := { d with ring := { d.ring with entries := unqueue d.ring.entries } }
  d.giveUpTransfers

/-- What the sender's end of a channel holds returns to its reset values: its half enters reset (R11, R14). -/
def Chan.txReset (ch : Chan) : Chan :=
  { ch with
    nextTx := 0, seqTx := 0, flight := [], part := 0, fails := 0, credits := 0, sent := 0, sentWrap := 0, discards := 0, fulls := 0
    viols := 0, discStk := false, fullStk := false, violStk := false, emptyEn := false, txIrq := false }

/-- What the receiver's end of a channel holds returns to its reset values. -/
def Chan.rxReset (ch : Chan) : Chan :=
  { ch with expect := 0, seqRx := 0, queue := [], gaps := 0, gapStk := false, bells := 0, mask := 0, rxIrq := false }

/-- The plant half enters reset: its end of channel `c` is UNBOUND with its counters at 0; the station half sees the partner reset and
keeps its own end (Table 1.2, Table 18.6, R14, R624, R625) (assumption log 24). -/
def Chan.plantEnters (c : Nat) (ch : Chan) : Chan :=
  match binding? c with
  | none => { ch with state := 0 }
  | some b =>
    let up := ch.stState
    let ch := if ch.state = 2 then ch.partnerReset (!isStationId b.recvr) else ch
    let ch := if isStationId b.sender then ch else ch.txReset
    let ch := if isStationId b.recvr then ch else ch.rxReset
    { ch with state := 0, stState := if up = 2 then 3 else up, presets := 0, prStk := false }

/-- The station half enters reset: its end of channel `c` is UNBOUND with its counters at 0 (Table 18.6, R14). -/
def Chan.stationEnters (c : Nat) (ch : Chan) : Chan :=
  match binding? c with
  | none => { ch with stState := 0 }
  | some b =>
    let ch := if isStationId b.sender then ch.txReset else ch
    let ch := if isStationId b.recvr then ch.rxReset else ch
    { ch with stState := 0 }

/-- Change every channel by its number. -/
def Device.mapChans (d : Device) (f : Nat → Chan → Chan) : Device :=
  let cs := (numbered 0 d.barrier.chans).map fun x => f x.1 x.2
  { d with barrier := { d.barrier with chans := cs } }.wr 0x5A00 0x03 (chanStates cs)

/-- Lanes down, link control forgotten: a half has entered reset. -/
def Barrier.downWith (b : Barrier) : Barrier :=
  { b with p2s := [false, false], s2p := [false, false], exchanged := false, p2sOn := [], s2pOn := [] }

/-- The plant half enters reset: its ends are UNBOUND, those of the station half in PARTNER-RESET; the lanes are down (Table 18.6). -/
def Device.plantChansUnbound (d : Device) : Device :=
  let d := if (d.chan 4).state = 2 then d.giveUpTransfers.recPartnerReset else d.giveUpTransfers
  let d := d.mapChans Chan.plantEnters
  { d with
    barrier := { d.barrier.downWith with upload := [], stationView := [] }
    ring := { d.ring with entries := unqueue d.ring.entries } }

/-- The plant half's reset is released: its ends of the bound channels go to BINDING (Table 18.6). -/
def Device.plantBinding (d : Device) : Device :=
  d.mapChans fun c ch => if c < 12 && ch.state = 0 then { ch with state := 1 } else ch

/-- The station half's reset is released: its ends of the bound channels go to BINDING (Table 18.6). -/
def Device.stationBinding (d : Device) : Device :=
  d.mapChans fun c ch => if c < 12 && ch.stState = 0 then { ch with stState := 1 } else ch

/-- The lanes a direction may use: the trained ones, cut by the lane test 0x5A00.40. -/
def laneUsable (test : Nat) (ls : List Bool) : Bool :=
  match test with
  | 1 => ls.getD 0 false
  | 2 => ls.getD 1 false
  | _ => ls.any id

/-- Both directions carry traffic. -/
def Device.barrierUp (d : Device) : Bool :=
  laneUsable (d.rd 0x5A00 0x40) d.barrier.p2s && laneUsable (d.rd 0x5A00 0x40) d.barrier.s2p

/-- Show the lanes trained and the link state in 0x5A00.02 and .01. -/
def Device.showBarrier (d : Device) : Device :=
  let g := fun (l : List Bool) (i : Nat) => b2n (l.getD i false)
  let m := g d.barrier.p2s 0 + 2 * g d.barrier.p2s 1 + 4 * g d.barrier.s2p 0 + 8 * g d.barrier.s2p 1
  let st := if m = 15 then 3 else if d.barrier.p2s.any id && d.barrier.s2p.any id then 2 else if m = 0 then 0 else 1
  (d.wr 0x5A00 0x02 m).wr 0x5A00 0x01 st

/-- The current state objects of a STATE-RESEND message: device, unit and pole states. -/
def Device.stateBytes (d : Device) : List Nat :=
  [d.boot.plState % 256, d.unit, d.poleState 0, d.poleState 1]

/-- A channel binds when both its ends are in BINDING or PARTNER-RESET and the tables match; PAIRS channels stay back while the core pairs are halted (R623). -/
def bindChan (d : Device) (c : Nat) : Device :=
  match binding? c with
  | none => d
  | some b =>
    let ch := d.chan c
    let pairs := b.sender == 2 || b.recvr == 2
    let waits := fun (st : Nat) => st == 1 || st == 3
    if waits ch.state && waits ch.stState && !(d.boot.pairsHalted && pairs) then d.setChan c (ch.bind b.slots) else d

/-- Enter OPEN on every channel that can, then resend states and undelivered events on channel 4 (R623, R627). -/
def Device.openChannels (d : Device) : Device :=
  if d.barrierUp && d.barrier.crcEqual && !d.boot.stationHeld && !d.boot.stationDown && !d.boot.plantHeld then
    let was := (d.chan 4).state
    let d := (List.range 12).foldl bindChan d
    if was ≠ 2 && (d.chan 4).state = 2 then
      let d := { d with ring := { d.ring with entries := unqueue d.ring.entries } }
      (d.send 4 0x03 0x02 0 d.stateBytes).dev.pump
    else d
  else d

/-- The plant half is reachable while channel 0 is OPEN (Table 1.2). -/
def Device.plantReachable (d : Device) : Bool := (d.chan 0).state == 2

/-- 0x2000.03 and bit 0 of 0x2030.01 follow the partner reset; 0x2000.01 shows the plant half's state or OFF (R554, R557). -/
def Device.showReach (d : Device) : Device :=
  let r := d.plantReachable
  let shown :=
    if r then d.boot.plState
    else if d.station.faulted then 12
    else if d.boot.stState = 1 || d.boot.stState = 2 then d.boot.stState else 0
  ((d.wrB 0x2000 0x03 r).wrBit 0x2030 0x01 0 (!r)).wr 0x2000 0x01 shown

/-- MESSAGE_SEND (R610 to R614, R619, R620, R624): a master of identity `ident`, core pair `pair`, sends on channel `c`. -/
def execMessageSend (ident pair c cls typ : Nat) (payload : List Nat) (s : State) : Out :=
  s.run fun d =>
    match binding? c with
    | none => if c < 16 then d.setChan c (d.chan c).violate else d
    | some b =>
      if b.sendsBy ident pair then
        let r := d.send c cls typ pair payload
        if r.status = 0 && c = 0 then { r.dev with station := { r.dev.station with sdoBusy := true } } else r.dev
      else d.setChan c (d.chan c).violate

/-- The message on its way of channel `c` has arrived, or starts again: the transmitter goes on with the channel that is served next, and a
message that it left for this one at a boundary of 256 bytes has one chunk more behind it (R619). -/
def Device.serveOn (d : Device) (c : Nat) : Device :=
  let up := toStation c
  let d := match d.onLanes up with
    | [x] => if x = c then d else d.setChan x { d.chan x with part := (d.chan x).part + 1 }
    | _ => d
  d.setOnLanes up []

/-- Put a message into the receiving queue: a SEQ newer than the expected one is a gap; the MSG doorbell is set (R615,
R616, Table 18.5). -/
def Chan.enqueue (ch : Chan) (m : Msg) (rest : List Msg) : Chan :=
  let gap := newer 32 ch.expect m.seq
  { ch with
    flight := rest
    part := 0
    fails := 0
    queue := ch.queue ++ [m]
    expect := (m.seq + 1) % 2 ^ 32
    gaps := if gap then satInc ch.gaps else ch.gaps
    gapStk := if gap then satStk ch.gaps ch.gapStk else ch.gapStk
    bells := setBit ch.bells 0 true
    rxIrq := ch.rxIrq || !bit ch.mask 0 }

/-- MESSAGE_RECEIVED (R615, R616, R619): the oldest message on its way on channel `c` arrives whole, if the transmitter of the direction
serves that channel; `crcOk` says whether its CRC passes. A failed one is sent again up to four times, and discarded when it fails a
fifth time (assumption log 23, 87). -/
def execMessageReceived (c : Nat) (crcOk : Bool) (s : State) : Out :=
  s.run fun d =>
    let ch := d.chan c
    if ch.state ≠ 2 || !(d.mayArrive (toStation c)).contains c then d
    else
      let d := d.serveOn c
      match ch.flight with
      | [] => d
      | m :: rest =>
        if crcOk then d.setChan c (ch.enqueue m rest)
        else if ch.fails < 4 then (d.setChan c { ch with part := 0, fails := ch.fails + 1 }).bump 0x5A00 0x08 0x09
        else d.setChan c { ch with flight := rest, part := 0, fails := 0 }

/-- Deliver one event message to the event log and the EMCY queue, and mark the ring entry delivered, unless the plant half is in reset and
learns of no credit (R570, R627, R672). -/
def Device.deliver (d : Device) (m : Msg) : Device :=
  if m.typ = 1 then
    let seq := beNat (m.payload.take 4)
    match d.ring.entries.find? (fun e => e.seq == seq && !e.delivered) with
    | none => d
    | some e =>
      let es := d.ring.entries.map fun x => if x.seq == seq then { x with delivered := !d.boot.plantHeld } else x
      let d := { d with ring := { d.ring with entries := es } }
      let d := { d with station := { d.station with tqSeen := e.tq } }
      (d.logAppend e).emcyQueue (emcyOf e.event e.seq)
  else d

/-- A message of the station cores for an extension task: payload byte 0 names the task. It enters the inbox of a task that is not
ABSENT, or is discarded and counted where 16 wait (R475). -/
def Device.taskInbox (d : Device) (m : Msg) : Device :=
  let t := m.payload.headD 8
  let x := d.tasks.getD t TaskCtl.reset
  if t ≥ 8 || d.rd (0x9030 + t) 1 = 0 then d
  else if x.inbox.length ≥ 16 then d.bump (0x9030 + t) 0x0E 0x0F
  else { d with tasks := d.tasks.set t { x with inbox := x.inbox ++ [m.payload.drop 1] } }

/-- What the receiver does with the message it takes, by channel. -/
def Device.consume (d : Device) (c : Nat) (m : Msg) : Device :=
  match c with
  | 0 => d.serveAccess m
  | 1 => if m.cls = 1 then d.takeAnswer m.typ m.payload else d
  | 3 =>
    let img : Image := ⟨leNat (m.payload.take 8), m.payload.drop 8⟩
    { d with station := { d.station with image := some img, imageSeen := true, imageAge := 0 } }
  | 4 => (d.deliver m).pump
  | 7 => d.storeStream m.typ m.tickLo m.payload
  | 11 => d.taskInbox m
  | _ => d

/-- The receiver takes the oldest message of a channel's queue and a credit is returned. -/
def Device.takeMessage (d : Device) (c : Nat) : Device :=
  let ch := d.chan c
  match ch.queue with
  | [] => d
  | m :: rest =>
    let last := rest.isEmpty
    let ch := { ch with
      queue := rest
      seqRx := m.seq
      credits := if ch.state = 2 then ch.credits + 1 else ch.credits
      txIrq := ch.txIrq || (last && ch.emptyEn && ch.state = 2)
      rxIrq := ch.rxIrq || (last && (if toStation c then ch.stState else ch.state) = 3) }
    (d.setChan c ch).consume c m

/-- MESSAGE_TAKE (R620, R622, R625, R627): the receiver takes the oldest message of its queue and a credit is returned
(assumption log 23). -/
def execMessageTake (ident pair c : Nat) (s : State) : Out :=
  s.run fun d =>
    match binding? c with
    | none => if c < 16 then d.setChan c (d.chan c).violate else d
    | some b => if b.takenBy ident pair then d.takeMessage c else d.setChan c (d.chan c).violate

/-- TASK_MESSAGE_RECEIVED (R475): core pair 3 takes the oldest message of channel 11 for the task it names. -/
def execTaskMessageReceived (s : State) : Out :=
  s.run fun d => if d.boot.plantHeld || d.boot.pairsHalted then d else d.takeMessage 11

/-- DOORBELL_SET (R612, R621, R624): the sender sets bits; a reserved bit is refused and counted, and MSG is the
interface's own (assumption log 24). -/
def execDoorbellSet (ident pair c bits : Nat) (s : State) : Out :=
  s.run fun d =>
    match binding? c with
    | none => if c < 16 then d.setChan c (d.chan c).violate else d
    | some b =>
      let ch := d.chan c
      if !b.sendsBy ident pair then d.setChan c ch.violate
      else if ch.state ≠ 2 then d
      else if bits &&& 0xFFFF00F0 ≠ 0 then d.setChan c ch.violate
      else
        let new := bits &&& 0x0000FF0E
        let bells := ch.bells ||| new
        d.setChan c { ch with bells := bells, rxIrq := ch.rxIrq || decide (new &&& (0xFFFFFFFF ^^^ ch.mask) ≠ 0) }

/-- DOORBELL_CLEAR (R621): the receiver clears bits by writing 1; the interrupt falls when no unmasked bit is left. -/
def execDoorbellClear (ident pair c bits : Nat) (s : State) : Out :=
  s.run fun d =>
    match binding? c with
    | none => if c < 16 then d.setChan c (d.chan c).violate else d
    | some b =>
      let ch := d.chan c
      if !b.takenBy ident pair then d.setChan c ch.violate
      else
        let bells := ch.bells &&& (0xFFFFFFFF ^^^ (bits % 2 ^ 32))
        d.setChan c { ch with bells := bells, rxIrq := decide (bells &&& (0xFFFFFFFF ^^^ ch.mask) ≠ 0) }

/-- Mark a lane of a direction. -/
def Device.markLane (d : Device) (toStation : Bool) (lane : Nat) (up : Bool) : Device :=
  let b := d.barrier
  let b := if toStation then { b with p2s := b.p2s.set lane up } else { b with s2p := b.s2p.set lane up }
  { d with barrier := b }.showBarrier

/-- A safety session ends without a commit: the pending set is discarded (R517). -/
def Device.closeSession (d : Device) : Device :=
  if d.rd 0x7001 0x04 = 1 then
    let d := { d with session := { d.session with pendingSet := [] } }
    (d.wr 0x7001 0x04 0).wr 0x7001 0x08 0
  else d

/-- The lanes that the two directions may use have changed: a direction without one is the partner reset of both halves, which ends the
safety session (R21, R517, R617, R631); with both, channels open. -/
def Device.lanesChanged (d : Device) : Device :=
  if d.barrierUp then d.openChannels.showReach else (d.stationLost.closeSession).showReach

/-- BARRIER_LANE_FAILURE (R21, R617, R623 to R626): a lane fails; when its direction has none left, both halves take it as
a partner reset of the other, and the safety session ends (R517) (assumption log 24). -/
def execBarrierLaneFailure (toStation : Bool) (lane : Nat) (s : State) : Out :=
  s.run fun d =>
    let ls := if toStation then d.barrier.p2s else d.barrier.s2p
    if ls.getD lane false then
      let d := (d.markLane toStation lane false).bumpEvent 0x5A00 0x06 0x07 lvWarn []
      if d.barrierUp then d else d.lanesChanged
    else d

/-- BARRIER_LANE_TRAINED (R611, R618, R623, R627): a lane has trained; `crcEqual` is the outcome of the comparison of the
binding tables made when both directions first train after a reset. Unequal tables leave every channel in BINDING, with an
event (assumption log 24). -/
def execBarrierLaneTrained (toStation : Bool) (lane : Nat) (crcEqual : Bool) (s : State) : Out :=
  s.run fun d =>
    if d.boot.stationHeld || d.boot.stationDown || d.boot.plantHeld then d
    else
      let d := d.markLane toStation lane true
      let first := d.barrier.p2s.any id && d.barrier.s2p.any id && !d.barrier.exchanged
      let d := if first then { d with barrier := { d.barrier with exchanged := true, crcEqual := crcEqual } } else d
      let d := if first && !crcEqual then d.event 0x5A00 0x04 lvWarn [] else d
      d.openChannels.showReach

/-- LINK_STATUS_BLOCK (R618): the station interface sends the counters it keeps; the plant interface shows them in
0x5A00.05 until the next block. -/
def execLinkStatusBlock (s : State) : Out :=
  s.run fun d => if d.barrierUp then { d with barrier := { d.barrier with stationView := d.barrier.chans } } else d

/-- The channel table 0x5A00.05 as it stands. -/
def Device.chanTable (d : Device) : List Nat := Sys2Proof.Machine.chanTable d.barrier.chans d.barrier.stationView

/-- A write to 0x5A00.0B clears every counter of each named channel with its sticky bit (R630). -/
def Chan.clearCounters (ch : Chan) : Chan :=
  { ch with discards := 0, fulls := 0, viols := 0, gaps := 0, presets := 0, discStk := false, fullStk := false,
            violStk := false, gapStk := false, prStk := false }

/-- Clear the counters of the channels named by `mask`. -/
def Device.clearChannels (d : Device) (mask : Nat) : Device :=
  (List.range 16).foldl (fun d c => if bit mask c then d.setChan c (d.chan c).clearCounters else d) d

end Sys2Proof.Machine
end

