-- ==== Sys2Proof/Machine/Recorder.lean ====
section
/-! DEFINITION. Time base, disturbance recorder, event log files, memory and service life (spec/20_recorder_and_health.md).
Choices of the model: assumption log 75. -/
namespace Sys2Proof.Machine

/-! ### Time -/

/-- The UTC second a time source's reading names (R666): IRIG-B time plus the offset in minutes, or the DC system time's
whole seconds plus the DC offset. -/
def Device.sourceSecond (d : Device) (mode reading : Nat) : Nat :=
  if mode = 3 then (reading / 1000000000 + d.rd 0x9000 0x06) % 2 ^ 32
  else ((reading : Int) + 60 * d.rdI 0x9000 0x05).toNat % 2 ^ 32

/-- TIME_EDGE (R666, R667): an edge of the source of mode `mode`; `reading` is the IRIG-B second or the DC system time in ns,
`offUs` how far the edge lies from a whole second after the last accepted edge, `delay` the ns from the edge to the send.
A valid edge sends a time message on channel 6; an edge more than 10 µs off is rejected and counted. -/
def execTimeEdge (mode reading offUs delay : Nat) (s : State) : Out :=
  s.run fun d =>
    if mode = 0 || mode ≠ d.rd 0x9000 0x03 || d.boot.stationHeld || d.boot.stationDown then d
    else
      let sec := d.sourceSecond mode reading
      let follows := mode ≠ 1 || (d.time.lastSec + 1 == sec)
      if d.time.accepted && offUs > 10 then
        (d.bump 0x9000 0x07 0x08).stEvent 0x9000 0x07 lvWarn []
      else
        let ok := follows
        let d := { d with time := { d.time with lastSec := sec, accepted := d.time.accepted || ok } }
        if ok then
          let d := d.wr 0x2000 0x05 sec
          (d.send 6 0x06 mode 0 (leBytes 4 sec ++ leBytes 4 delay ++ [mode, 0, 0, 0])).dev
        else d

/-- TIME_MESSAGE (R667, R668): the plant half receives a time message `sinceT0` ns after the present T0; the edge lies DELAY
and 1.0 µs earlier, and the pair (n_s, u) is stored (assumption log 82). -/
def execTimeMessage (sec delay sinceT0 : Nat) (s : State) : Out :=
  s.run fun d =>
    if d.boot.plantHeld then d
    else
      let back := delay + 1000
      let ticks := if back ≤ sinceT0 then 0 else (back - sinceT0 + 1000 * d.period - 1) / (1000 * d.period)
      let d := { d with time := { d.time with ns := d.tick - ticks, us := sec % 2 ^ 32, known := true, missing := 0 } }
      d.wr 0x9000 0x04 1

/-- TIME_HOLDOVER (R668): three consecutive expected edges missing or rejected. -/
def execTimeHoldover (s : State) : Out :=
  s.run fun d => if d.rd 0x9000 0x04 = 1 then { d with time := { d.time with missing := 3 } }.wr 0x9000 0x04 2 else d

/-! ### Recorder slots -/

/-- RECORDER_TRIGGER (R676, R678, R679): a trigger event reaches the station cores. -/
def execRecorderTrigger (src t : Nat) (s : State) : Out :=
  s.run fun d => if d.boot.stationHeld || d.boot.stationDown then d else d.recTrigger src t

/-- A slot ends its recording. -/
def Device.recEnd (d : Device) (trunc : Bool) : Device :=
  let end1 := fun (sl : RecSlot) =>
    if sl.state = 2 then { sl with state := 3, flags := if trunc then setBit sl.flags 3 true else sl.flags } else sl
  { d with recorder := d.recorder.map end1 }.armRecorder

/-- The record of a slot is stored: its last tick, and the last snapshot of each lane pair where snapshots are kept. -/
def Device.recorded (d : Device) (sl : RecSlot) : Bool :=
  let last := match sl.ticks.getLast? with
    | some x => x.tick
    | none => 0
  let snapLast := d.lastSnap sl.trigTick
  let snaps := (sl.snaps.filter fun x => x.tick == snapLast).length
  sl.state == 2 && decide (last + 1 ≥ sl.trigTick + d.recN)
    && (d.rd 0xB000 0x0A == 0 || decide (snaps ≥ d.lanePairs.length))

/-- RECORDING_END (R678): tick t + N - 1 and the last snapshot are stored. -/
def execRecordingEnd (s : State) : Out :=
  s.run fun d =>
    if d.recorder.any d.recorded then d.recEnd false else d

/-- RECORDING_STREAM_TIMEOUT (R678): no stream for 10 ms ends the recording with TRUNC. -/
def execRecordingStreamTimeout (s : State) : Out :=
  s.run fun d => if d.recorder.any (fun sl => sl.state == 2) then d.recEnd true else d

/-- FoE access: the mailbox serves it in every state but INIT, and the password must be 0 (R528, R567). -/
def Device.foeOk (d : Device) (password : Nat) : Bool := d.station.al != 1 && password == 0

/-- Leave an FoE error for the master. -/
def Device.foeError (d : Device) (e : Nat) : Device := { d with station := { d.station with foeErr := e, foeOut := [] } }

/-- Leave an FoE file for the master. -/
def Device.foeFile (d : Device) (bs : List Nat) : Device := { d with station := { d.station with foeErr := 0, foeOut := bs } }

/-- The header of a record file, Table 20.5, 256 bytes with byte 0 in bits [2047:2040] and fields little-endian. -/
def Device.recHeader (d : Device) (i : Nat) (sl : RecSlot) : List Nat :=
  let pairs := d.lanePairs.foldl (fun m p => m + 2 ^ p) 0
  leBytes 4 0x4B524543 ++ [1, i, sl.flags % 256, d.rd 0x2010 0x02] ++ leBytes 2 sl.trigSrc ++ leBytes 8 sl.trigTick
    ++ leBytes 4 sl.utc ++ leBytes 4 sl.subsec ++ leBytes 8 (sl.oldest sl.trigTick) ++ leBytes 4 sl.ticks.length
    ++ leBytes 4 (sl.snaps.length / max 1 d.lanePairs.length) ++ leBytes 2 d.recChannels ++ leBytes 2 pairs ++ leBytes 2 (d.rd 0xB000 0x0A)
    ++ [sl.retrig.length % 256] ++ leBytes 4 sl.cfgVer ++ leBytes 4 sl.cfgCrc ++ leBytes 4 sl.gaps ++ leBytes 195 0

/-- The record file of a slot (R680). -/
def Device.recFile (d : Device) (i : Nat) (sl : RecSlot) : List Nat :=
  let c := d.recChannels
  let retr := (List.range 16).flatMap fun k =>
    match sl.retrig[k]? with
    | some (m, t) => leBytes 2 m ++ leBytes 6 0 ++ leBytes 8 t
    | none => leBytes 16 0
  let body := d.recHeader i sl ++ retr ++ leBytes 2048 (d.rd 0xB000 0x09)
    ++ sl.ticks.flatMap (fun t => (t.vals.take c).flatMap (leBytes 4)) ++ sl.snaps.flatMap (·.reports)
  body ++ leBytes 4 (crc32c body)

/-- FOE_READ_RECORD (R680): slot `i` is read whole and marked EXPORTED; a slot not HELD or EXPORTED gives 0x8006. -/
def execFoeReadRecord (i password : Nat) (s : State) : Out :=
  s.run fun d =>
    if d.station.al = 1 then d
    else if !d.foeOk password then d.foeError 0x8004
    else
      match d.recorder[i]? with
      | none => d.foeError 0x8006
      | some sl =>
        if sl.state = 3 || sl.state = 4 then
          let d := d.foeFile (d.recFile i sl)
          { d with recorder := d.recorder.set i { sl with state := 4 } }.armRecorder
        else d.foeError 0x8006

/-- FOE_READ_EVENT_LOG (R672): tk_evt is the event log as it stands, oldest first, 64 bytes per entry. -/
def execFoeReadEventLog (password : Nat) (s : State) : Out :=
  s.run fun d =>
    if d.station.al = 1 then d
    else if !d.foeOk password then d.foeError 0x8004
    else d.foeFile (d.station.log.flatMap RingEntry.bytes)

/-- Set the slots up at the plant restart that brings the list and the span into force; a changed size discards what is HELD
or EXPORTED (R675, R681). -/
def Device.recorderSetup (d : Device) : Device :=
  let size := slotMiB d.period d.recChannels (d.rd 0xB000 0x0A) d.lanePairs.length
  let old := d.rd 0xB000 0x03
  let d := (d.wr 0xB000 0x03 size).wr 0xB000 0x02 (slotCount size)
  if old ≠ 0 && old ≠ size then
    let kept := fun (sl : RecSlot) => sl.state == 3 || sl.state == 4
    let lost := (d.recorder.filter kept).length
    let d : Device := { d with recorder := d.recorder.map fun sl => if kept sl then RecSlot.reset else sl }
    ((List.range lost).foldl (fun (d : Device) _ => d.stCount 0xB000 0x11 0x12) d).armRecorder
  else d.armRecorder

/-- The recorder at a reset of the station half: every slot FREE, each HELD or RECORDING record lost (Table 20.4). -/
def Device.recorderStationReset (d : Device) : Device :=
  let lost := (d.recorder.filter fun (sl : RecSlot) => sl.state == 3 || sl.state == 2).length
  ({ d with recorder := d.recorder.map fun _ => RecSlot.reset }.bumpBy 0xB000 0x11 0x12 lost).showSlots

/-! ### Memory and service life -/

/-- MEMORY_SCRUB (R683): a pass of the scrubber writes back and counts the corrected words of plant memory; `dram` words of the station
DRAM were corrected meanwhile. -/
def execMemoryScrub (corrected dram : Nat) (s : State) : Out :=
  s.run fun d =>
    let d := if d.boot.plantHeld then d else d.bumpBy 0x9000 0x0B 0x0C corrected
    if dram = 0 || d.boot.stationHeld || d.boot.stationDown then d
    else (d.bumpBy 0x9000 0x0F 0x10 dram).stEvent 0x9000 0x0F lvWarn []

/-- The acceleration factor a(T) of R684 for a temperature in thousandths of a degree Celsius. -/
def accel (mC : Int) : Rat :=
  let t : Rat := (mC : Rat) / 1000 + 27315 / 100
  Config.realExp (7 / 10 / (8617 / 100000000) * (100 / 34315 - 1 / t))

/-- LIFE_ACCOUNTING (R684): once per second the case temperature is estimated and a(T)/3,600 h is added; events at 90 %, at
100 % and when the temperature leaves the recommended range of -40 to +95 °C (R707, Table 21.9). The
second also counts in the operating hours, in the station half's uptime, in the remaining lockout of its logins (R539) and in the age of the store's measurement (assumption log 76). -/
def execLifeAccounting (mC : Int) (s : State) : Out :=
  s.run fun d =>
    let up := d.life.upSecs + 1
    let d := if d.boot.stationHeld || d.boot.stationDown then d
             else { d with life := { d.life with upSecs := up } }.wr 0x2000 0x04 up
    let d := if d.boot.stationHeld || d.boot.stationDown || d.rd 0x2002 0x0B = 0 then d else d.wr 0x2002 0x0B (d.rd 0x2002 0x0B - 1)
    let age := d.rd 0x5900 5
    let d := if age = 0xFFFFFFFF || !d.power.retention then d else d.wr 0x5900 5 (min (age + 1) 0xFFFFFFFE)
    if d.boot.plantHeld then d
    else
      let before := d.life.eqHours
      let after := before + accel mC / 3600
      let secs := d.life.opSecs + 1
      let out := decide (mC < -40000) || decide (mC > 95000)
      let left := out && !d.life.tempOut
      let d := { d with life := { d.life with eqHours := after, opSecs := secs, tempOut := out } }
      let d := ((d.wrF 0x9000 0x09 ((mC : Rat) / 1000)).wr 0x9000 0x11 (secs / 3600)).wr 0x9000 0x12 (ratFloor after).toNat
      let d := d.wrF 0x9000 0x13 (100 * after / 262980)
      let crossed := fun (p : Rat) => decide (before < 262980 * p ∧ 262980 * p ≤ after)
      let d := if crossed (9 / 10) then d.event 0x9000 0x13 lvWarn [] else d
      let d := if crossed 1 then d.event 0x9000 0x13 lvWarn [] else d
      if left then d.bumpEvent 0x9000 0x14 0x15 lvWarn [] else d

end Sys2Proof.Machine
end

