-- ==== Sys2Proof/Machine/Reactions.lean ====
section
/-! DEFINITION. Reactions that several commands share: trips of poles (R188, R584), the arbiter port and the release of the
lease (R410 to R416), changes of unit state (R407, R408), the entry to FAULT, the plant safe state (R460, Table 14.2), and
the resets of the two halves (R11, Table 1.2). -/
namespace Sys2Proof.Machine

/-! ### Poles -/

/-- The control of a pole. -/
def Device.pole (d : Device) (p : Nat) : PoleCtl := d.poles.getD p PoleCtl.reset

/-- Change the control of a pole. -/
def Device.modPole (d : Device) (p : Nat) (f : PoleCtl → PoleCtl) : Device :=
  { d with poles := d.poles.set p (f (d.pole p)) }

/-- A pole that is not blocked, or has accepted ENERGISE for the next tick boundary. -/
def Device.poleLive (d : Device) (p : Nat) : Bool := !d.poleBlocked p || (d.pole p).goto == some 2

/-- A trip cause found for a pole: it acts at the next tick boundary (R188). -/
def Device.tripPole (d : Device) (p cause : Nat) : Device :=
  if d.poleLive p then
    d.modPole p fun c => if c.trips.contains cause then c else { c with trips := c.trips ++ [cause] }
  else d

/-- Trip every pole that is not blocked. -/
def Device.tripAll (d : Device) (cause : Nat) : Device := (d.tripPole 0 cause).tripPole 1 cause

/-- Safe Block in force (R496). -/
def Device.safeBlock (d : Device) : Bool := d.rd 0x7000 0x01 != 0

/-! ### The arbiter port -/

/-- An arbiter message of this unit (R416, Table 13.4); `body` is bits [95:32]. -/
def Device.arbMessage (d : Device) (typ body : Nat) : Nat :=
  let head := typ % 256 * 2 ^ 88 + d.rd 0x2020 0x01 % 2 * 2 ^ 86 + field (d.rd 0xA000 0x01) 1 6 * 2 ^ 80
    + d.lease.nextSeq % 2 ^ 16 * 2 ^ 64 + body % 2 ^ 64
  head * 2 ^ 32 + crc32c (beBytes 12 head)

/-- Send a message to the arbiter; its SEQ is the port's message counter. -/
def Device.arbSend (d : Device) (typ body : Nat) : Device :=
  { d with lease := { d.lease with tx := d.arbMessage typ body, nextSeq := (d.lease.nextSeq + 1) % 2 ^ 16 } }

/-- Show the role entries that follow the lease: 0x2020.04 and bits 3 and 4 of 0x2020.06 (Table 13.15). -/
def Device.showRole (d : Device) : Device :=
  let d := d.wrB 0x2020 0x04 d.lease.valid
  let d := d.wrBit 0x2020 0x06 3 (d.twinProfile && d.isActive && !d.lease.valid)
  d.wrBit 0x2020 0x06 4 d.lease.stalemate

/-- The breaker requests computed (0x510C + p .03) are shown in .01 only while single-actor actions are open (R202). -/
def Device.showBreakers (d : Device) : Device :=
  let f := fun (d : Device) (p : Nat) => d.wr (0x510C + p) 0x01 (if d.holds then d.rd (0x510C + p) 0x03 else 0)
  f (f d 0) 1

/-- An activation whose COMMIT record is not written yet is abandoned when its holder's lease falls (R598). -/
def Device.leaseFell (d : Device) : Device :=
  let act := d.boot.act
  if act.pending && act.holder && act.myCommit.isNone then { d with boot := { d.boot with act := { act with abandon := true } } } else d

/-- Release the lease if it is held (Table 13.5, R598). -/
def Device.releaseLease (d : Device) (handover : Bool) : Device :=
  if d.lease.valid then
    let d := d.arbSend 0x12 (b2n handover * 2 ^ 63 + d.lease.epoch % 256 * 2 ^ 48)
    let d := { d with lease := { d.lease with valid := false } }
    ((d.leaseFell.wr 0x8001 0x01 0).wr 0x8001 0x04 0).showRole.showBreakers
  else d

/-- The loss tracker of a present pole follows the peer's: FOLLOWING, with its own windows begun afresh (R357, R363). -/
def Device.lossFollow (d : Device) (p : Nat) : Device :=
  let i := 0x5001 + p
  let was := d.rd i 1
  if d.poleState p = 0 || was = 6 then d
  else
    (d.wr i 1 6).modPole p fun c => { c with
      loss := { c.loss with fwd := was, win := none, closed := none, toOpen := false, bad := false } }

/-- The loss tracker of a unit that leaves STANDBY-SYNC holds the values last forwarded, in FROZEN (R357, R363). -/
def Device.lossHold (d : Device) (p : Nat) : Device := if d.rd (0x5001 + p) 1 = 6 then d.wr (0x5001 + p) 1 1 else d

/-- A change of unit state at a tick boundary (R407): it is a recorder source, and in STANDBY-UNSYNC and RESYNC every pole
reports trip cause 0 (R408). Leaving STANDBY-SYNC ends bridging; leaving its role ends a pending castling. -/
def Device.setUnit (d : Device) (st : Nat) : Device :=
  if d.unit = st then d
  else
    let d := ((d.wr 0x2020 0x03 st).wr 0x2020 0x08 d.tick).noteTrigger 9
    let d := if st = 0 || st = 1 then (d.wr 0x3000 0x04 0).wr 0x3800 0x04 0 else d
    let d := if st = 0 then { d with poles := d.poles.map fun c => { c with trips := [], goto := none, deblockAt := none } } else d
    let d := { d with twin := { d.twin with castle := 0, castleWait := false } }
    let d := (d.wrBit 0x2020 0x06 1 false).wrBit 0x2020 0x06 2 false
    let d := if st = 2 then (d.lossFollow 0).lossFollow 1 else (d.lossHold 0).lossHold 1
    d.showRole.showBreakers

/-- A newer epoch becomes the known epoch (R412, R10); 0x00 names none. -/
def Device.learnEpoch (d : Device) (e : Nat) : Device :=
  if e % 256 ≠ 0 && (d.rd 0x2020 0x05 = 0 || newer 8 (d.rd 0x2020 0x05) e) then d.wr 0x2020 0x05 e else d

/-- The epoch window (R330): twice the lease duration in ticks, at most 65,535; 0 stand-alone. -/
def Device.epwin (d : Device) : Nat := if d.twinProfile then min 65535 (d.ticksOf (2 * d.rd 0x8001 0x02)) else 0

/-- SELFTEST, 1 = pass (Table 13.10). Bits 0 to 3, 6 and 7 come from the latest tests and faults. -/
def Device.selfTestBits (d : Device) : Nat :=
  let failed := d.rd 0x5700 0x02
  let pairBad := (List.range 24).any fun k => bit failed k && d.flag (0x7020 + k / 2) 0x01
  let t := d.boot.selfTest
  b2n (bit t 0 && !d.flag 0x9010 0x40) + 2 * b2n (bit t 1) + 4 * b2n (bit t 2) + 8 * b2n (bit t 3 && d.boot.plantClock)
    + 16 * b2n (d.rd 0x5600 0x01 == 2) + 32 * b2n (!pairBad) + 64 * b2n (bit t 6)
    + 128 * b2n (d.rd 0x5800 0x01 == 3 && d.rd 0x5800 0x04 == 0)
    + 256 * b2n (d.barrier.p2s.all id && d.barrier.s2p.all id) + 512 * b2n (d.rd 0x8001 0x10 == 1)
    + 1024 * b2n (d.rd 0x8002 0x01 == 3) + 2048 * b2n (bit (d.rd 0x2010 0x07) 7) + 4096 * b2n (d.rd 0x5900 0x06 == 0)
    + 0xE000

/-- A unit with any of bits 0 to 7 failed is unfit (R434). -/
def Device.fit (d : Device) : Bool := d.selfTestBits % 256 == 255

/-! ### FAULT and the safe state -/

/-- Entry to FAULT: the lease is released, FAULT_N asserted, every live pole trips with cause 6 at the next tick boundary, and
in the twin profile the unit is OUT-OF-SERVICE (R60, R584, Table 13.2) (assumption log 66). -/
def Device.enterFault (d : Device) : Device :=
  let d := (d.releaseLease false).tripAll 6
  let d := { d with boot := { d.boot with plState := 12, faultSince := true, faultN := false } }
  (if d.twinProfile then d.setUnit 4 else d).showReach

/-- Release every permissive output: neither channel is commanded nor conducts (R505, R508). -/
def Device.releaseOutputs (d : Device) : Device :=
  (List.range 4).foldl (fun d o => d.wr (0x7018 + o) 0x03 (d.rd (0x7018 + o) 0x03 &&& 8)) d

/-- Every lane transmitter is quiet: rate code 0 in force and no message (R293, R310). -/
def Device.lanesQuiet (d : Device) : Device :=
  let d := (List.range 32).foldl (fun d l => d.wr (0x5530 + l) 6 0) d
  { d with lanes := d.lanes.map fun (x : Lane) => { x with message := 0 } }

/-- The plant safe state of Table 14.2: core pairs halted, lanes, Rolpor and arbiter transmitters quiet after the RELEASE,
outputs driven by firmware released, channels of the core pairs in PARTNER-RESET, FAULT. -/
def Device.plantSafeState (d : Device) : Device :=
  let d := d.enterFault
  let d := { d with boot := { d.boot with pairsHalted := true, safeState := true } }
  (d.closeSession.releaseOutputs.pairsLost).lanesQuiet.showReach

/-! ### Resets -/

/-- Entries of the station-served objects whose value the plant half keeps and loses at its reset. -/
def plantHeldServed (key : Nat) : Bool :=
  [0x900004, 0x900009, 0x90000B, 0x90000C, 0x90000D, 0x90000E, 0x900013, 0x900014, 0x900015, 0xB00015, 0xB00016].contains key

/-- Entries held in MRAM, which keep their values (R11): metering registers and pulse backlogs are restored from the save
slots instead (R389). -/
def mramHeld (key : Nat) : Bool := [0x700105, 0xA00006, 0x900011, 0x900012, 0xB00017].contains key

/-- Entries of the retention domain, which a reset of the core-rail domain leaves running (R632): the regulator and the store. The latched
switches are held in the regulator record (R649). -/
def retentionHeld (key : Nat) : Bool :=
  (0x580001 ≤ key && key ≤ 0x580004) || key == 0x580006 || key == 0x580007 || key == 0x58001C
    || (0x580020 ≤ key && key ≤ 0x580025) || (0x590001 ≤ key && key ≤ 0x590006)

/-- What of the dictionary stays over a reset of the plant half (assumption log 65). -/
def plantKeeps (key : Nat) : Bool := mramHeld key || retentionHeld key || (stationServed' (key / 256) && !plantHeldServed key)
where
  /-- the objects of R552 -/
  stationServed' (idx : Nat) : Bool :=
    (0x1000 ≤ idx && idx ≤ 0x2002) || (0x2030 ≤ idx && idx ≤ 0x2041) || idx == 0x9000 || idx == 0xA000 || idx == 0xB000

/-- What of the dictionary stays over a reset of the station half: everything the plant half holds, and in 0xA000 what the
flash and the running configuration hold (assumption log 65). -/
def stationKeeps (key : Nat) : Bool :=
  mramHeld key || plantHeldServed key || !(plantKeeps.stationServed' (key / 256))
    || (key / 256 == 0xA000 && !((0x0E ≤ key % 256 && key % 256 ≤ 0x11) || key % 256 == 0x09 || key % 256 == 0x0A))
    || (key / 256 == 0x2000 && (key % 256 == 0x01 || key % 256 == 0x02))

/-- Sum of the values that a configuration gives the station-served entries. -/
def servedValues (cfg : List (Nat × Nat)) : List (Nat × Nat) := cfg.filter fun kv => plantKeeps.stationServed' (kv.1 / 256)

/-- Write a list of (address, value) pairs. -/
def Device.wrAll (d : Device) (l : List (Nat × Nat)) : Device :=
  { d with od := l.foldl (fun m kv => odPut m kv.1 kv.2) d.od }

/-- The plant half enters reset: everything it holds returns to its reset value, but what R11 and the flash keep. Commands
that wait at the station half, the recorder slots, the event log and the station's own state stay, its edge qualification (R666) and its
ends of the channels among it (R14). -/
def Device.plantHold (d : Device) : Device :=
  let d := d.closeSession.plantChansUnbound
  { Device.reset with
    od := d.od.filter fun kv => plantKeeps kv.1
    ring := { entries := d.ring.entries, fresh := [], nextSeq := d.ring.nextSeq }
    recorder := d.recorder
    time := { Device.reset.time with accepted := d.time.accepted, lastSec := d.time.lastSec }
    life := d.life
    meter := d.meter.kept
    power := { d.power with shed := none, rise := none, added := 0, braking := false }
    barrier := d.barrier
    station := d.station
    boot := { d.boot with
      plantHeld := true, plState := 0, faultSince := false, act := Activation.reset, readyDone := false, selfTest := 0
      selfEntered := 0, mismatchTicks := 0, pairsHalted := false, faultN := false, plantClock := false, safeState := false
      validating := none, trial := false }
    session := { d.session with pendingSet := [], setupOnly := false, effect := false, lock := ⟨0, false⟩ }
    free := d.free }.showReach

/-- A reset request of the plant half: the endgame save first, held off until it ends (R385). -/
def Device.plantReset (d : Device) : Device := d.endgameSave.plantHold

/-- The station half enters reset: partner reset in the plant half, its records and work in progress lost, S_REG_EN_DRV
high-impedance; credentials, event log and flash stay (Table 1.2, Table 20.4, R591). -/
def Device.stationReset (d : Device) : Device :=
  let d : Device := { d with boot := { d.boot with stationHeld := true } }
  let d := d.stationLost
  let d := match d.boot.writing with
    | some i => d.wr 0xA000 (0x18 + i) (if i < 8 then 0 else d.rd 0xA000 (0x18 + i))
    | none => d
  let d := d.closeSession
  let st := d.station
  let d := { d with
    od := d.od.filter fun kv => stationKeeps kv.1
    barrier := d.barrier.downWith
    station := { Station.reset with log := st.log, logSeq := st.logSeq, creds := st.creds }
    boot := { d.boot with
      stationHeld := true, stState := 0, writing := none, validating := none, stationClock := false } }
  let d := (d.wrAll (servedValues d.boot.running)).mapChans Chan.stationEnters
  d.recorderStationReset.showBarrier.showReach

end Sys2Proof.Machine
end

