-- ==== Sys2Proof/Machine/Sdo.lean ====
section
/-! DEFINITION. The judgement of an SDO write (R532 to R546, Table 16.6), PDO mapping (R559 to R561), the completion of an
accepted write (R542, R544, R429) and its effect at a T0 (R64, R8). -/
namespace Sys2Proof.Machine

/-! ### Process data mapping -/

/-- Key of the entry that a mapping value names: index * 256 + subindex (Table 16.9). -/
def mapKey (m : Nat) : Nat := m / 256

/-- Bit length that a mapping value states. -/
def mapBits (m : Nat) : Nat := m % 256

/-- Entries that an RxPDO may map (R560). -/
def rxMappable (key : Nat) : Bool :=
  [0x300101, 0x380101, 0x204001].contains key || (0x300201 ≤ key && key ≤ 0x300206) || (0x380201 ≤ key && key ≤ 0x380206)

/-- Basic ro or rw entries of a number type in 0x2000 to 0x9FFF, and 0x2041.01 (R560). -/
def txMappable (key : Nat) : Bool :=
  key == 0x204101 ||
  (0x200000 ≤ key && key < 0xA00000 && 1 ≤ key % 256 && key % 256 < 0x40 &&
    match odEntry? key with
    | some (e, _) =>
      (e.acc == .ro || e.acc == .rw) &&
        (match e.ty with
         | .str => false
         | .octets _ => false
         | .domain _ => false
         | _ => true)
    | none => false)

/-- A mapping entry is permitted: unused, padding of 1 to 32 bits, or a mappable entry with its own length. -/
def mapOk (tx : Bool) (m : Nat) : Bool :=
  if m = 0 then true
  else if m / 2 ^ 16 = 0 then 1 ≤ mapBits m && mapBits m ≤ 32
  else (if tx then txMappable (mapKey m) else rxMappable (mapKey m)) && odBits (mapKey m) == mapBits m

/-- The values of a mapping object in order, unused entries left out. -/
def Device.mapping (d : Device) (pdo : Nat) : List Nat :=
  ((List.range 64).map fun i => d.rd pdo (i + 1)).filter (· != 0)

/-- The PDOs assigned in 0x1C12 or 0x1C13. -/
def Device.assigned (d : Device) (tx : Bool) : List Nat :=
  let base := if tx then 0x1A00 else 0x1600
  ((List.range 4).map fun i => d.rd (if tx then 0x1C13 else 0x1C12) (i + 1)).filter fun x => base ≤ x && x < base + 4

/-- The mapping values of every assigned PDO in order. -/
def Device.pdoEntries (d : Device) (tx : Bool) : List Nat := (d.assigned tx).flatMap d.mapping

/-- Bits of a mapping; none where an entry that is neither BOOL nor padding does not stand at a byte (R559). -/
def mapLength : List Nat → Nat → Option Nat
  | [], n => some n
  | m :: r, n =>
    if m / 2 ^ 16 = 0 || mapBits m = 1 || n % 8 = 0 then mapLength r (n + mapBits m) else none

/-- An assignment keeps R559 and R560. -/
def Device.pdoOk (d : Device) (tx : Bool) : Bool :=
  let es := d.pdoEntries tx
  es.all (mapOk tx) &&
    match mapLength es 0 with
    | some n => n ≤ 8192
    | none => false

/-- The entry at `key` is mapped in an assigned PDO. -/
def Device.mapped (d : Device) (tx : Bool) (key : Nat) : Bool := (d.pdoEntries tx).any fun m => mapKey m == key

/-- An order or command of a pole written by process data (R161, R561). -/
def Device.pdoOwned (d : Device) (key : Nat) : Bool := rxMappable key && key != 0x204001 && d.mapped false key

/-- A pole has at least one order in process data (R163). -/
def Device.hasPdoOrder (d : Device) (p : Nat) : Bool :=
  (d.pdoEntries false).any fun m => m / 2 ^ 16 == poleIdx 0x3002 p

/-! ### The judgement -/

/-- The mailbox serves SDO: station half running, EtherCAT state PREOP, SAFEOP or OP (Table 16.2). -/
def Device.mailbox (d : Device) : Bool :=
  !d.boot.stationHeld && !d.boot.stationDown && (d.station.al == 2 || d.station.al == 4 || d.station.al == 8)

/-- An SDO write that is accepted. -/
def Device.done (d : Device) : Device := { d with station := { d.station with sdoResult := 0 } }

/-- The access level in force. -/
def Device.level (d : Device) : Nat := d.rd 0x2002 0x01

/-- A safety session is open. -/
def Device.sessionOpen (d : Device) : Bool := d.rd 0x7001 0x04 == 1

/-- From the acceptance of an activation until its switch or abandon, entries of configuration images are refused (R546). -/
def Device.windowShut (d : Device) : Bool := d.boot.act.pending

/-- Entries of BLOCKED objects whose writes are held instead of refused (R319). -/
def heldEntry (idx sub : Nat) : Bool :=
  0x5530 ≤ idx && idx < 0x5550 && ((1 ≤ sub && sub ≤ 4) || sub == 0x47)

/-- Mapping and assignment entries of 0x1600 to 0x1A03, 0x1C12 and 0x1C13. -/
def isMapping (idx : Nat) : Bool :=
  (0x1600 ≤ idx && idx ≤ 0x1603) || (0x1A00 ≤ idx && idx ≤ 0x1A03) || idx == 0x1C12 || idx == 0x1C13

/-- The judgement of a mapping or assignment write: only in PREOP, of mappable entries, within the limits. -/
def Device.mappingAbort (d : Device) (idx sub v : Nat) : Option Nat :=
  if d.station.al ≠ 2 then some 0x08000022
  else if idx < 0x1C00 && !mapOk (idx ≥ 0x1A00) v then some 0x06040041
  else if idx ≥ 0x1C00 && v ≠ 0 && !((if idx = 0x1C13 then 0x1A00 else 0x1600) ≤ v && v < (if idx = 0x1C13 then 0x1A04 else 0x1604))
    then some 0x06090030
  else if !((d.wr idx sub v).pdoOk (idx == 0x1C13 || (0x1A00 ≤ idx && idx < 0x1C00))) then some 0x06040042
  else none

/-- The lease judgement of a shared write (R409, R428): in the twin profile only the holder of a valid lease writes. -/
def Device.leaseAbort (d : Device) (idx sub : Nat) : Option Nat :=
  if unitLocal idx sub || d.holds then none else some 0x08000020

/-- The level judgement (R537, R549), the session of rws entries and the full change log (R515, R519). -/
def Device.levelAbort (d : Device) (idx sub v : Nat) (acc : OdAccess) : Option Nat :=
  if acc == .rws then
    if !d.sessionOpen || (d.session.setupOnly && !(idx == 0x7001 && sub == 3)) then some 0x08000020
    else if d.session.log.length ≥ 4096 && !(idx == 0x7002 && sub == 3) && !(idx == 0x7001 && sub == 7 && v == 1) then
      some 0x08000020
    else none
  else if d.level < max (writeLevel idx sub v) (if sub ≥ 0x40 then 2 else 0) then some 0x06010000
  else none

/-- Writes of objects that other states refuse: R224, and the orders of pole 1 under BIPOLE (R177). -/
def Device.stateAbort (d : Device) (idx sub : Nat) : Option Nat :=
  if 0x5104 ≤ idx && idx ≤ 0x5105 && sub ≠ 0x11 && d.rd idx 0x10 ≠ 0 then some 0x08000022
  else if idx = 0x3802 && sub = 1 && d.rd 0x3004 0x0F = 1 then some 0x08000020
  else if 0x5530 ≤ idx && idx < 0x5550 && sub = 0x4B && d.rd idx 5 = 8 then some 0x08000022
  else none

/-- A write to the buffer enable that needs no blocked pole: any under automatic sequencing, and one of 1 (R88, R89). -/
def Device.enableFree (d : Device) (idx sub v : Nat) : Bool :=
  idx == 0x5600 && sub == 0x41 && (v == 1 || d.rd 0x5600 0x40 == 1)

/-- The first of several judgements that refuses (assumption log 12). -/
def firstSome : List (Option Nat) → Option Nat
  | [] => none
  | some a :: _ => some a
  | none :: r => firstSome r

/-- The entries whose strings have the lengths of R515 and R539 instead of a fixed one (assumption log 15). -/
def shortString (idx sub : Nat) : Bool :=
  (idx == 0x7001 && (sub == 1 || sub == 3)) || (idx == 0x2002 && (sub == 2 || sub == 0x0A))

/-- The judgement of an SDO write of `len` bytes with value `v`: the abort code, or none where it is accepted; `free` for a command
that its own rule judges for the lease (R428). The order of the checks is the model's own (assumption log 12). -/
def Device.judgeAs (d : Device) (free : Bool) (idx sub len v : Nat) : Option Nat :=
  match odObject? odObjects idx with
  | none => some 0x06020000
  | some (o, i) =>
    if sub = 0 && !(o.entries.any fun e => e.lo == 0) then some 0x06010002
    else
      match odRow? o.entries sub with
      | none => some 0x06090011
      | some e =>
        let _ := i
        firstSome [
          if e.acc == .ro || e.acc == .const || isMirror idx sub || poleZeroOnly idx sub || meterOnly idx sub
              || d.sealed idx sub then some 0x06010002 else none,
          if !stationServed idx && !d.plantReachable then some 0x08000022 else none,
          d.levelAbort idx sub v e.acc,
          if (if shortString idx sub then len > e.ty.bytes else len ≠ e.ty.bytes) then some 0x06070010 else none,
          if e.ty == .f32 && !f32Special v && neutralBroken idx sub v then some 0x06090030 else none,
          rangeAbort e.ty e.range v,
          if d.pdoOwned (odKey idx sub) then some 0x08000021 else none,
          if e.cls == .restart then some 0x08000022 else none,
          if e.cls == .blocked && !heldEntry idx sub && !d.enableFree idx sub v && !d.scopeBlocked idx && e.acc != .rws then
            some 0x08000022 else none,
          if imageCarried idx sub e && d.windowShut then some 0x08000022 else none,
          d.stateAbort idx sub,
          if isMapping idx then d.mappingAbort idx sub v else none,
          if free then none else d.leaseAbort idx sub,
          d.relationAbort idx sub v]

/-- The judgement of an SDO write. -/
def Device.judge (d : Device) (idx sub len v : Nat) : Option Nat := d.judgeAs false idx sub len v

/-- A write that the mailbox serves: refused with its abort, or taken by `f`. -/
def Device.sdo (d : Device) (idx sub len v : Nat) (f : Device → Device) : Device :=
  if !d.mailbox then d
  else
    match d.judge idx sub len v with
    | some code => d.abort idx sub code
    | none => f d.done

/-- An SDO read (R9, R547, R552): the station half answers for its own entries from what it holds, the plant half for its own from the
last tick boundary; the abort code on the left. A plant half out of reach aborts (R554, Table 1.2). -/
def Device.sdoRead (d : Device) (whole : Bool) (idx sub : Nat) : Nat ⊕ List Nat :=
  if stationServed idx then
    match readAbort d.level idx (if whole then 0 else sub) with
    | some code => .inl code
    | none => .inr (if whole then readObject d.od [] d.level idx else readEntry d.od [] idx sub)
  else if !d.plantReachable then .inl 0x08000022
  else d.readAnswer whole d.level idx sub

/-- The holder forwards a record of a type of Table 13.6 to the standby. -/
def Device.forward (d : Device) (typ : Nat) (args : List Nat) : Device :=
  if d.twinProfile && d.isActive then
    { d with twin := { d.twin with txSeq := (d.twin.txSeq + 1) % 2 ^ 32, lastTx := typ :: args } }
  else d

/-- A CONTROL record of the Rolpor link. -/
def Device.control (d : Device) (args : List Nat) : Device :=
  if d.twinProfile then
    { d with twin := { d.twin with txSeq := (d.twin.txSeq + 1) % 2 ^ 32, lastTx := 5 :: args } }
  else d

/-! ### The effect of a write -/

/-- The sticky bits of the dictionary that are set, found among the listed values. -/
def Device.stickies (d : Device) : List Nat :=
  (d.od.filter fun kv =>
    match odObject? odObjects (kv.1 / 256) with
    | none => false
    | some (o, _) => kv.2 == 1 && clearRows.any (fun r => r.base == o.base && r.sticky == kv.1 % 256)).map (·.1)

/-- The sticky summary 0x9000.01 (R682). -/
def Device.stickySummary (d : Device) : Nat :=
  let m := d.stickies.foldl (fun m k => setBit m (stickyFamily (k / 256)) true) 0
  if d.barrier.chans.any fun c => c.discStk || c.fullStk || c.violStk || c.gapStk || c.prStk then setBit m 12 true else m

/-- Show the sticky summary again after a clear. -/
def Device.showStickies (d : Device) : Device := if d.rd 0x9000 0x01 = 0 then d else d.wr 0x9000 0x01 d.stickySummary

/-- What a write of `v` to a clear entry sets to 0 beside its counters: the largest debt of an arm (Table 7.9), 0x5001.14 and 0x9030.08. -/
def alsoZeroed (idx sub v : Nat) : Option Nat :=
  if 0x4000 ≤ idx && idx < 0x4C00 && idx % 0x100 = 4 && sub = 0x1C && bit v 1 then some 0x15
  else if 0x5001 ≤ idx && idx ≤ 0x5002 && sub = 0x12 && bit v 3 then some 0x14
  else if 0x9030 ≤ idx && idx < 0x9038 && sub = 0x11 && bit v 0 then some 8
  else none

/-- Clear what the bits of a write to a clear entry name (R8), with the events of an arm that its counters do not show yet (R262)
(assumption log 14). -/
def Device.clearBits (d : Device) (idx sub v : Nat) : Device :=
  let d := (clearRowsFor idx sub).foldl (fun d r => if v &&& r.mask ≠ 0 then d.clearCtr idx r.ctr r.sticky else d) d
  let d := if 0x4000 ≤ idx && idx < 0x4C00 && idx % 0x100 = 4 then
      d.modArm ((idx - 0x4000) / 0x100) fun x => { x with
        newByp := if bit v 3 then 0 else x.newByp, newFault := if bit v 4 then 0 else x.newFault }
    else d
  match alsoZeroed idx sub v with
  | some s => d.wr idx s 0
  | none => d

/-- Put an accepted write in force: a clear entry clears its counters, any other entry takes its value. -/
def Device.putLive (d : Device) (key v : Nat) : Device :=
  let idx := key / 256
  let sub := key % 256
  if idx = 0x5A00 && sub = 0x0B then (d.clearChannels v).showStickies
  else if isClear idx sub then (d.clearBits idx sub v).showStickies
  else (d.wr idx sub v).deriveEntry idx sub

/-- An accepted write completes: a plant-side entry joins the LIVE set of the next T0 while ticks run; otherwise it is in
force at once. A shared write of a lease holder is forwarded (R429). -/
def Device.accept (d : Device) (idx sub v : Nat) : Device :=
  let key := odKey idx sub
  let d := if unitLocal idx sub then d else d.forward 0x02 [key, d.tick + 1, v]
  if stationServed idx || !d.timer.running then d.putLive key v
  else { d with live := d.live ++ [(key, v)] }

/-- COUNTER_CLEAR (R8): a write of `v` to the clear entry (idx, sub). -/
def execCounterClear (idx sub v : Nat) (s : State) : Out :=
  s.run fun d =>
    if !isClear idx sub then d
    else
      let len := match odEntry? (odKey idx sub) with
        | some (e, _) => e.ty.bytes
        | none => 0
      d.sdo idx sub len v fun d => d.accept idx sub v

/-- Counters that CLEAR_ALL does not clear: those with an rws clear entry (0x6070), and those of R462 and R658. -/
def clearAllSkips (idx : Nat) : Bool := idx == 0x6070

/-- Clear every event counter of the unit with its sticky bit (R682). -/
def Device.clearEverything (d : Device) : Device :=
  let cleared := fun (kv : Nat × Nat) =>
    !clearAllSkips (kv.1 / 256) && (isCleared (kv.1 / 256) (kv.1 % 256) || kv.1 / 256 == 0x5520 || kv.1 / 256 == 0x5521)
  let d := { d with od := d.od.filter fun kv => !cleared kv }
  (d.clearChannels 0xFFFF).wr 0x9000 0x01 0

/-- CLEAR_ALL (R682): a write of `v` to 0x9000.02; 0x01 clears every event counter at one tick boundary. -/
def execClearAll (v : Nat) (s : State) : Out :=
  s.run fun d => d.sdo 0x9000 0x02 1 v fun d => if v = 1 then d.clearEverything else d

/-- SDO_RESPONSE_TIMEOUT (R544): the plant half did not answer the access to (idx, sub) within 50 ms. -/
def execSdoResponseTimeout (idx sub : Nat) (s : State) : Out :=
  s.run fun d =>
    if d.mailbox && !stationServed idx then
      let d := d.abort idx sub 0x05040000
      { d with station := { d.station with sdoBusy := false } }
    else d

end Sys2Proof.Machine
end

