-- ==== Sys2Proof/Machine/Twin.lean ====
section
/-! DEFINITION. Twin operation (spec/13_twin_and_lease.md): the lease and the arbiter's messages, the Rolpor link and its
records, health, bridging, castling, resynchronisation up to the load of the state, and disputes.
Choices of the model: assumption log 60. -/
namespace Sys2Proof.Machine

/-- A record's 64 bytes as a domain value, byte 0 = bits [511:504]. -/
def domainOf (n body : Nat) : Nat := leNat (beBytes n body)

/-- The last peer record as a number, bit 511 first. -/
def Device.peerBody (d : Device) : Nat := domainOf 64 (d.rd 0x8011 0x01)

/-! ### Leaving and entering roles at the next tick boundary -/

/-- Change the twin part. -/
def Device.modTwin (d : Device) (f : Twin → Twin) : Device := { d with twin := f d.twin }

/-- Change the lease part. -/
def Device.modLease (d : Device) (f : Lease → Lease) : Device := { d with lease := f d.lease }

/-- A failed resynchronisation: it is counted, and the unit leaves RESYNC at the next tick boundary (R444). -/
def Device.resyncFail (d : Device) : Device :=
  if d.unit = 1 && !d.twin.leaveSync then
    let n := d.rd 0x8000 0x05
    let d := (d.bump 0x8000 0x0A 0x0B).wr 0x8000 0x05 (min 255 (n + 1))
    d.modTwin fun t => { t with leaveSync := true, resyncCmd := false, resyncReq := false }
  else d

/-- A request of the standby that no snapshot has answered is dropped. -/
def Device.dropRequest (d : Device) : Device :=
  if d.unit = 0 then d.modTwin fun t => { t with resyncReq := false, snapTick := 0 } else d

/-- A condition of R432 fails: a STANDBY-SYNC unit leaves at the next tick boundary, an attempt in RESYNC fails. -/
def Device.loseSync (d : Device) : Device :=
  if d.unit = 2 then d.modTwin fun t => { t with leaveSync := true }
  else d.resyncFail

/-- An ACTIVE unit leaves its role at the next tick boundary: withdrawal, newer epoch, or an ACTIVE peer with the lease. -/
def Device.leaveRole (d : Device) : Device :=
  if d.twinProfile && d.isActive then d.modTwin fun t => { t with leaveActive := true } else d

/-- Forget a castling (R439). -/
def Device.dropCastling (d : Device) : Device :=
  ((d.modTwin fun t => { t with castle := 0, noRelease := false }).wr 0x8000 0x03 0).wrBit 0x2020 0x06 2 false

/-- What a resynchronisation has buffered is dropped. -/
def Device.forgetResync (d : Device) : Device :=
  d.modTwin fun t => { t with
    buffered := [], bufWrites := [], bufBlocks := [], bufState := [], bufReports := [], resyncCmd := false }

/-- The unit-state transitions due at a tick boundary, Table 13.2. A GRANT prevails over a resumed TICK record (R448), and a castling completes
at the first boundary after its GRANT (Table 13.12) (assumption log 64). -/
def Device.unitBoundary (d : Device) : Device :=
  if !d.twinProfile then d
  else
    let t := d.twin
    let u := d.unit
    let d1 :=
      if u = 3 then
        if t.leaveActive then ((d.releaseLease false).dropCastling).setUnit 0
        else if t.grantReady && t.castleWait then
          ((d.bump 0x8000 0x06 0x07).modTwin fun t => { t with castleWait := false }).showBreakers
        else d
      else if u = 2 then
        if t.grantReady then (d.setUnit 3).wr 0x8000 0x13 d.tick
        else if t.unitGo = some 4 then d.dropCastling.setUnit 4
        else if t.leaveSync then d.dropCastling.setUnit 0 else d
      else if u = 1 then
        if t.unitGo = some 4 then d.resyncFail.setUnit 4
        else if t.leaveSync then d.setUnit 0
        else if t.unitGo = some 2 then ((d.setUnit 2).wr 0x8000 0x05 0).forgetResync
        else d
      else if u = 0 then
        if t.coldGrant then d.setUnit 3 else if t.unitGo = some 4 then d.setUnit 4 else d
      else if t.unitGo = some 0 && !d.boot.faultSince then d.setUnit 0 else d
    d1.modTwin fun t => { t with
      leaveActive := false, leaveSync := false, grantReady := false, coldGrant := false, unitGo := none }

/-! ### Disputes -/

/-- A dispute condition was seen or not: consecutive sightings confirm it (R446); the first confirmed one begins a dispute
(R447). -/
def Device.disputeStep (d : Device) (b : Nat) (seen : Bool) (confirm : Nat) : Device :=
  let c := if seen then d.twin.dispCnt.getD b 0 + 1 else 0
  let d := d.modTwin fun t => { t with dispCnt := t.dispCnt.set b c, dispQuiet := if seen then 0 else t.dispQuiet }
  let conf := decide (c ≥ confirm)
  let d := d.wrBit 0x2020 0x07 b conf
  if conf && !bit (d.rd 0x2020 0x06) 0 then (d.wrBit 0x2020 0x06 0 true).bumpEvent 0x8000 0x10 0x11 lvWarn [] else d

/-- The role is disputed. -/
def Device.disputed (d : Device) : Bool := bit (d.rd 0x2020 0x06) 0

/-- DISPUTE_END (R447): no condition has held for 1,000 ticks. -/
def execDisputeEnd (s : State) : Out :=
  s.run fun d =>
    if d.disputed && d.twin.dispQuiet ≥ 1000 then
      ((d.wrBit 0x2020 0x06 0 false).wr 0x2020 0x07 0).event 0x2020 0x06 lvInfo []
    else d

/-! ### The arbiter -/

/-- A valid arbiter message: the link is up (R421). -/
def Device.arbiterUp (d : Device) : Device := (d.wr 0x8001 0x10 1).modLease fun l => { l with heard := d.tick }

/-- An arbiter message that is ignored, and counted (R421). -/
def Device.arbiterBad (d : Device) : Device := d.bump 0x8001 0x11 0x12

/-- GRANT_RECEIVED (R410, R412, R421, R437): `since` is the time in µs since the first character of the REQUEST it answers. The
lease is valid until `duration` from then. A GRANT to a unit that asked in no role leaves the lease alone. -/
def execGrantReceived (seq epoch : Nat) (isNew : Bool) (duration since : Nat) (crcOk : Bool) (s : State) : Out :=
  s.run fun d =>
    if !d.twinProfile || d.boot.safeState then d
    else if !crcOk || !d.lease.sent.contains seq || since > 100 then d.arbiterBad
    else
      let d := (d.arbiterUp).learnEpoch epoch
      let bridging := d.unit = 2 && bit (d.rd 0x2020 0x06) 1
      let cold := d.unit = 0 && d.lease.cold
      if !(d.unit = 3 || bridging || cold) then d
      else
        let d := if isNew then d.bump 0x8001 0x07 0x08 else d
        let d := d.modLease fun l => { l with valid := true, epoch := epoch % 256, stalemate := false, noLease := 0, cold := false }
        let d := ((d.wr 0x8001 0x02 duration).wr 0x8001 0x04 (duration - since)).wr 0x8001 0x01 2
        let d := if bridging then (d.bump 0x8000 0x08 0x09).modTwin fun t => { t with grantReady := true }
                 else if cold then d.modTwin fun t => { t with coldGrant := true }
                 else if d.twin.castleWait then d.modTwin fun t => { t with grantReady := true }
                 else d
        d.showRole.showBreakers

/-- A DENY or NOTICE that proves the active unit alive ends bridging (Table 13.11a): the holder's last GRANT, at the receipt
instant less 1.44 µs less AGE, was sent after T0 of the tick in which bridging began. `sinceT0` is the receipt in ns from the
present T0. -/
def Device.holderSeen (d : Device) (holder age sinceT0 : Nat) : Device :=
  let rel : Int := ((d.tick : Int) - (d.twin.bridgeFrom : Int)) * ((1000 * d.period : Nat) : Int) + (sinceT0 : Int)
  if d.unit = 2 && bit (d.rd 0x2020 0x06) 1 && holder ≠ 0 && age ≠ 0xFFFFFFFF
      && decide (rel - 1440 - 1000 * (age : Int) > 0) then d.loseSync
  else d

/-- DENY_RECEIVED (R412, R418, R436). -/
def execDenyReceived (epoch holder age sinceT0 : Nat) (crcOk : Bool) (s : State) : Out :=
  s.run fun d =>
    if !d.twinProfile then d
    else if !crcOk then d.arbiterBad
    else ((((d.arbiterUp).learnEpoch epoch).bump 0x8001 0x09 0x0A).holderSeen holder age sinceT0)

/-- The holder as both units' health records show it: 0 none, 1 A, 2 B. -/
def Device.healthHolder (d : Device) : Nat :=
  let own := d.rd 0x2020 0x01
  if d.lease.valid then own + 1
  else if bit (d.peerBody) 430 then (1 - own) + 1 else 0

/-- NOTICE_RECEIVED (R412, R414, R436, R446). -/
def execNoticeReceived (epoch holder age sinceT0 : Nat) (crcOk : Bool) (s : State) : Out :=
  s.run fun d =>
    if !d.twinProfile then d
    else if !crcOk then d.arbiterBad
    else
      let d := (((d.arbiterUp).learnEpoch epoch).wr 0x8001 0x05 holder).wr 0x8001 0x06 age
      let d := d.modLease fun l => { l with noticed := true, noHolder := if holder = 0 then l.noHolder else 0 }
      let peer := decide (d.rd 0x8011 0x02 ≤ 8)
      (d.holderSeen holder age sinceT0).disputeStep 3 (peer && holder != d.healthHolder) 3

/-- Send a REQUEST (Table 13.5) and remember its SEQ as answerable. -/
def Device.request (d : Device) (prio : Nat) (renew castle : Bool) : Device :=
  let seq := d.lease.nextSeq
  let body := prio * 2 ^ 56 + b2n renew * 2 ^ 55 + b2n castle * 2 ^ 54 + d.rd 0x2020 0x05 * 2 ^ 40 + d.unit * 2 ^ 32
  let d := d.arbSend 0x11 body
  d.modLease fun l => { l with sent := (seq :: l.sent).take 8, cold := prio == 1 }

/-- The conditions of the priority 1 row of Table 13.3. -/
def Device.coldOk (d : Device) : Bool :=
  let wait := d.ticksOf (1000 * d.rd 0x8000 0x43)
  let free := fun p => d.poleState p == 0 || d.poleState p == 1 || d.poleState p == 3
  d.unit == 0 && d.fit && d.lease.noticed && d.rd 0x8001 0x05 == 0 && decide (d.lease.noHolder ≥ wait)
    && decide (d.lease.noTick ≥ wait) && free 0 && free 1

/-- LEASE_RENEWAL (R410, R411, R414): at each renewal instant the unit sends the REQUEST of Table 13.3, or STATUS. The REQUEST of a cold
start is COLD_START_REQUEST's. -/
def execLeaseRenewal (s : State) : Out :=
  s.run fun d =>
    if !d.twinProfile || d.unit = 4 || d.boot.safeState then d
    else
      let bridging := d.unit = 2 && bit (d.rd 0x2020 0x06) 1
      if d.fit && d.unit = 3 then
        let d := d.request 3 d.lease.valid false
        if d.lease.valid || d.rd 0x8001 0x01 = 3 then d else d.wr 0x8001 0x01 1
      else if d.fit && bridging then (d.request 2 false false).wr 0x8001 0x01 1
      else if d.coldOk then d
      else d.arbSend 0x13 (d.unit * 2 ^ 56 + d.rd 0x2020 0x05 * 2 ^ 48 + d.selfTestBits * 2 ^ 32)

/-- COLD_START_REQUEST (R414). -/
def execColdStartRequest (s : State) : Out :=
  s.run fun d => if d.twinProfile && d.coldOk then (d.request 1 false false).wr 0x8001 0x01 1 else d

/-- The peer's last health record shows a unit state and passes self-test bits 0 to `n` - 1. -/
def Device.peerShows (d : Device) (st n : Nat) : Bool :=
  let h := d.peerBody
  d.rd 0x8011 0x02 ≤ 8 && field h 440 8 == st && field h 240 n == 2 ^ n - 1

/-- FLAG_FALL (R411, R441, R598): the lease expires at its holder; with the arbiter link down it abdicates to a fit
STANDBY-SYNC peer. -/
def Device.flagFall (d : Device) : Device :=
  if d.twinProfile && d.lease.valid then
    let d := d.modLease fun l => { l with valid := false, noLease := 0 }
    let d := (((d.bump 0x8001 0x0B 0x0C).wr 0x8001 0x01 3).wr 0x8001 0x04 0)
    let d := d.leaseFell
    let d := if d.isActive && d.rd 0x8001 0x10 = 0 && d.peerShows 2 10 then
        let c := d.tick + 2
        ((d.control [6, c]).wr 0x8000 0x03 c).modTwin fun t => { t with castle := 2, noRelease := true }
      else d
    d.showRole.showBreakers
  else d

/-- FLAG_FALL (R411): the lease ends within the tick in progress. -/
def execFlagFall (s : State) : Out := s.run fun d => if d.rd 0x8001 4 ≤ d.period then d.flagFall else d

/-- ARBITER_LINK_DOWN (R421): no valid message for 300 µs. -/
def execArbiterLinkDown (s : State) : Out := s.run fun d => if d.twinProfile && d.tick ≥ d.lease.heard + d.ticksOf 300 then d.wr 0x8001 0x10 0 else d

/-- STALEMATE (R415): EPWIN ticks without a holder frame trip every pole that is not blocked. -/
def execStalemate (s : State) : Out :=
  s.run fun d =>
    if d.twinProfile && d.isActive && !d.lease.valid && !d.lease.stalemate && d.lease.noLease ≥ d.epwin then
      let d := d.modLease fun l => { l with stalemate := true }
      ((d.bump 0x8001 0x0D 0x0E).tripAll 6).showRole.showBreakers
    else d

/-! ### The Rolpor link -/

/-- ROLPOR_LINK_UP (R422, R578): the link trains on the lanes given, transmit in bits [3:0] and receive in [7:4]; `straps` is the
peer's strap word, `delay` the cable delay in ns. Units that do not match stay apart. -/
def execRolporLinkUp (straps lanes delay : Nat) (s : State) : Out :=
  s.run fun d =>
    if !d.twinProfile || d.unit = 4 && d.boot.plState ≠ 5 && d.boot.plState ≠ 4 || d.boot.safeState then d
    else
      let own := d.rd 0xA000 0x01
      if field own 1 6 ≠ field straps 1 6 || bit own 0 == bit straps 0 then (d.wr 0x8002 0x01 0).event 0x8002 0x01 lvWarn []
      else
        let grp := fun lo => field lanes lo 2 == 3
        let st := if grp 0 && grp 2 && grp 4 && grp 6 then 3
                  else if (grp 0 || grp 2) && (grp 4 || grp 6) then 2 else 1
        ((d.wr 0x8002 0x01 st).wr 0x8002 0x02 lanes).wr 0x8002 0x04 delay

/-- ROLPOR_LINK_DOWN (R422): no group of a direction stays trained. -/
def execRolporLinkDown (s : State) : Out :=
  s.run fun d => if d.twinProfile then ((d.wr 0x8002 0x01 0).wr 0x8002 0x02 0).resyncFail.dropRequest else d

/-- The sequence number of a received record: a missing one is a gap (R423), which a standby cannot survive (R430, R444). -/
def Device.recordSeq (d : Device) (rseq : Nat) (single : Bool) : Device :=
  let gap := match d.twin.rxSeq with
    | some last => newer 32 ((last + 1) % 2 ^ 32) rseq
    | none => false
  let d := d.modTwin fun t => { t with rxSeq := some rseq }
  let d := if single then d.bump 0x8002 0x07 0x08 else d
  if gap then (d.bump 0x8002 0x05 0x06).loseSync else d

/-- A hash mismatch in STANDBY-SYNC (R431). -/
def Device.hashMismatch (d : Device) : Device :=
  (d.bump 0x8000 0x0C 0x0D).loseSync.modTwin fun t => { t with diverged := true }

/-- Conditions of R442 on the standby's side, but for those on lanes, which `lanesOk` states. -/
def Device.resyncWanted (d : Device) (lanesOk : Bool) : Bool :=
  let h := d.peerBody
  d.twinProfile && d.unit == 0 && !d.boot.faultSince && d.peerShows 3 0 && d.rd 0x8002 0x01 ≥ 2
    && decide (d.rdI 0x8002 0x03 ≥ 0) && bit (d.rd 0x2010 0x07) 7 && lanesOk
    && field h 352 32 == d.rd 0xA000 0x03 && field h 320 32 == d.rd 0xA000 0x04
    && field h 288 32 == (d.rd 0xA000 (0x16 + d.rd 0xA000 0x15)) && field h 256 32 == d.rd 0x1018 0x02
    && (d.rd 0x8000 0x05 < d.rd 0x8000 0x44 || d.twin.resyncCmd)

/-- Every lane carrying cells is OPERATIONAL (8 of Table 9.3). -/
def Device.lanesUp (d : Device) : Bool :=
  (List.range 32).all fun l => d.laneCells l == 0 || d.laneState l == 8

/-- Ask for resynchronisation when R442 allows it: no request is open, or its snapshot tick has passed. -/
def Device.askResync (d : Device) : Device :=
  if (!d.twin.resyncReq || (d.twin.snapTick ≠ 0 && d.tick > d.twin.snapTick)) && d.resyncWanted d.lanesUp then
    (d.control [1]).modTwin fun t => { t with resyncReq := true, snapTick := 0 }
  else d

/-- ROLPOR_TICK_RECORD (R412, R425, R431, R435, R436, R442): `margin` is the arrival against T0 + 0.20 µs in ns, negative
when late (assumption log 64). -/
def execRolporTickRecord (r : TickRec) (rseq : Nat) (single crcOk : Bool) (margin : Int) (s : State) : Out :=
  s.run fun d =>
    if !d.twinProfile || d.isActive || d.unit = 4 || !crcOk || d.rd 0x8002 0x01 < 2 then d
    else
      let d := ((d.recordSeq rseq single).learnEpoch r.epoch).modLease fun l => { l with noTick := 0 }
      let ms := (margin :: d.twin.margins).take 1024
      let worst := ms.foldl (fun a b => if b < a then b else a) margin
      let d := (d.modTwin fun t => { t with margins := ms }).wrI 0x8002 0x03 worst
      if d.unit = 2 then
        if bit (d.rd 0x2020 0x06) 1 then
          if r.tick > d.twin.bridgeFrom then d.loseSync else d
        else if r.tick = d.tick && margin ≥ 0 then
          let d := d.modTwin fun t => { t with tickRec := some r }
          if r.hash ≠ d.twin.prevHash then d.hashMismatch else d
        else d
      else if d.unit = 1 then
        let d := d.modTwin fun t => { t with
          buffered := t.buffered ++ [r], tickRec := if r.tick = d.tick then some r else t.tickRec }
        if d.twin.loaded && d.twin.ownBlocks && r.tick = d.tick then
          if r.hash ≠ d.twin.prevHash then d.resyncFail
          else d.modTwin fun t => { t with verified := t.verified + 1 }
        else d
      else
        let d := if r.tick ≠ d.tick then d.modTwin fun t => { t with takeUp := some (r.tick + 1) } else d
        d.askResync

/-- WRITE_RECORD (R429, R430): a forwarded write takes effect at the T0 of tick `eff`; one that is late makes the standby
leave. -/
def execWriteRecord (rseq idx sub eff v : Nat) (single : Bool) (s : State) : Out :=
  s.run fun d =>
    if !d.twinProfile || d.isActive then d
    else
      let d := d.recordSeq rseq single
      if d.unit = 2 then
        if eff ≤ d.tick then d.loseSync
        else d.modTwin fun t => { t with writes := t.writes ++ [(eff, odKey idx sub, v)] }
      else if d.unit = 1 then d.modTwin fun t => { t with bufWrites := t.bufWrites ++ [(eff, odKey idx sub, v)] }
      else d

/-- The body of the unit's own health record, Table 13.9. -/
def Device.healthBody (d : Device) : Nat :=
  let laneop := (List.range 32).foldl (fun m l => if d.laneState l = 8 then m + 2 ^ l else m) 0
  let hi := d.tick * 2 ^ 448 + d.unit * 2 ^ 440 + d.rd 0x2020 0x05 * 2 ^ 432 + d.rd 0x2020 0x01 * 2 ^ 431
    + b2n d.lease.valid * 2 ^ 430 + b2n d.disputed * 2 ^ 429 + b2n (bit (d.rd 0x2020 0x06) 1) * 2 ^ 428
    + d.rd 0x8001 0x10 * 2 ^ 427 + b2n (bit (d.rd 0x2010 0x07) 7) * 2 ^ 426 + field (d.rd 0x8002 0x02) 4 4 * 2 ^ 422
  let mid := laneop * 2 ^ 384 + d.rd 0xA000 0x03 * 2 ^ 352 + d.rd 0xA000 0x04 * 2 ^ 320
    + d.rd 0xA000 (0x16 + d.rd 0xA000 0x15) * 2 ^ 288 + d.rd 0x1018 0x02 * 2 ^ 256
  hi + mid + d.selfTestBits * 2 ^ 240 + d.poleState 0 * 2 ^ 232 + d.poleState 1 * 2 ^ 236 + d.boot.plState * 2 ^ 224

/-- HEALTH_RECORD_SEND (R433). -/
def execHealthRecordSend (s : State) : Out :=
  s.run fun d =>
    if !d.twinProfile || d.boot.safeState || d.boot.plantHeld then d
    else
      let b := d.healthBody
      (d.wr 0x8010 0x01 (domainOf 64 b)).modTwin fun t =>
        { t with txSeq := (t.txSeq + 1) % 2 ^ 32, lastTx := 4 :: beBytes 64 b }

/-- TICK_RECORD_SEND (R424): the active unit's TICK record of the tick, from the result registers `snap`, the latch map and the
digest of the latched reports. -/
def Device.sendTickRecord (d : Device) (snap : List Nat) (lmap ldig : Nat) : Device :=
  if d.twinProfile && d.isActive && !d.boot.safeState then
    d.modTwin fun t =>
      { t with
        txSeq := (t.txSeq + 1) % 2 ^ 32
        lastTx := [1, b2n d.lease.valid, d.rd 0x2020 0x05, d.tick, (t.txSeq + 1) % 2 ^ 32] ++ snap ++ [lmap, ldig, t.prevHash] }
  else d

/-- An unfit or lane-poor ACTIVE unit whose peer can carry the station withdraws (R434). -/
def Device.withdrawIfUnfit (d : Device) : Device :=
  let cells := (List.range 32).all fun l => d.laneCells l == 0 || bit (d.peerBody) (384 + l)
  if d.twinProfile && d.isActive && !d.fit && d.peerShows 2 8 && cells then d.leaveRole
  else if d.unit = 2 && !d.fit then d.loseSync else d

/-- HEALTH_RECORD (R433, R434, R442, R446, R498, R599): a valid record of the peer, `body` with bit 511 first. -/
def execHealthRecord (rseq body : Nat) (single crcOk : Bool) (s : State) : Out :=
  s.run fun d =>
    if !d.twinProfile || !crcOk then d
    else
      let d := d.recordSeq rseq single
      let d := ((d.wr 0x8011 0x01 (domainOf 64 body)).wr 0x8011 0x02 0).wr 0x2020 0x09 (field body 440 8)
      let st := field body 440 8
      let sec := d.ticksOf 1000000
      let good := st == 2 && field body 240 12 == 0xFFF
      let safe := field body 224 8 == 11
      let differs := field body 352 32 != d.rd 0xA000 0x03 || field body 320 32 != d.rd 0xA000 0x04
      let d := d.modTwin fun t => { t with
        goodPeer := if good then min sec (t.goodPeer + 1) else 0
        peerSafe := if safe then min 3 (t.peerSafe + 1) else 0 }
      let d := { d with boot := { d.boot with mismatchTicks := if differs && st = 3 then d.boot.mismatchTicks + 1 else 0 } }
      -- R4: a different product code or firmware version keeps the standby unsynchronised; a request that is pending is dropped
      let other := field body 256 32 != d.rd 0x1018 0x02 || field body 288 32 != d.rd 0xA000 (0x16 + d.rd 0xA000 0x15)
      let d := if other && d.unit = 0 then
          (if d.twin.unlike then d else d.event 0x2020 0x09 lvWarn []).modTwin fun t =>
            { t with unlike := true, resyncReq := false, resyncCmd := false, snapTick := 0 }
        else if !other then d.modTwin fun t => { t with unlike := false } else d
      let d := if other || (differs && !d.boot.act.pending) then d.loseSync else d
      let d := d.disputeStep 4 (d.unit = 3 && st = 3) 3
      let d := if bit (d.rd 0x2020 0x07) 4 && d.unit = 3 && !d.lease.valid then d.leaveRole else d
      let d := if d.unit = 3 && st = 3 && bit body 430 then d.leaveRole else d
      let d := if st ≠ 3 then d.resyncFail.dropRequest else d
      d.withdrawIfUnfit.askResync

/-- PEER_HEALTH_STALE (R433, R498, R598): a peer record older than 8 ticks counts as none. -/
def execPeerHealthStale (s : State) : Out :=
  s.run fun d =>
    if d.twinProfile && d.rd 0x8011 0x02 > 8 then
      let d := ((d.wr 0x2020 0x09 0xFF).modTwin fun t => { t with goodPeer := 0, peerSafe := 0 }).dropRequest
      if d.boot.act.pending && d.boot.act.peer then
        { d with boot := { d.boot with act := { d.boot.act with abandon := true } } } else d
    else d

/-! ### Bridging -/

/-- TICK_RECORD_DEADLINE (R435): a STANDBY-SYNC unit without the tick's record bridges. -/
def execTickRecordDeadline (s : State) : Out :=
  s.run fun d =>
    let have_ := match d.twin.tickRec with
      | some r => r.tick == d.tick
      | none => false
    if d.twinProfile && !have_ then
      if d.unit = 2 && !bit (d.rd 0x2020 0x06) 1 then
        let d := (d.wrBit 0x2020 0x06 1 true).bump 0x8000 0x0E 0x0F
        let d := d.modTwin fun t => { t with bridgeFrom := d.tick }
        if d.fit then (d.request 2 false false).wr 0x8001 0x01 1 else d
      else d
    else d

/-- BRIDGING_TIMEOUT (R436): EPWIN ticks bridged without a grant. -/
def execBridgingTimeout (s : State) : Out :=
  s.run fun d =>
    if d.unit = 2 && bit (d.rd 0x2020 0x06) 1 && d.tick ≥ d.twin.bridgeFrom + d.epwin then d.loseSync else d

/-! ### Castling -/

/-- The first of conditions 1 to 5 of R438 that fails, counted from 1; 0 when all hold. -/
def Device.castleFails (d : Device) : Nat :=
  let busy := fun p => d.poleState p == 2 || bit (d.rd (poleIdx 0x3000 p) 2) 0 || bit (d.rd (poleIdx 0x3000 p) 2) 1
  if d.twin.goodPeer < d.ticksOf 1000000 || d.rd 0x8011 0x02 > 8 then 1
  else if d.rd 0x8001 0x10 = 0 || !bit (d.peerBody) 427 then 2
  else if d.disputed then 3
  else if busy 0 || busy 1 then 4
  else if d.rd 0x2010 0x04 ≠ 0 || (d.pole 0).deblockAt.isSome || (d.pole 1).deblockAt.isSome || d.boot.act.pending then 5
  else 0

/-- Refuse a command of 0x8000.01 with a result and its abort. -/
def Device.twinRefuse (d : Device) (result reason : Nat) : Device :=
  ((d.wr 0x8000 0x02 result).wr 0x8000 0x04 reason).abort 0x8000 0x01 (if result = 2 then 0x08000020 else 0x08000022)

/-- A write of `code` to 0x8000.01. -/
def Device.twinCommand (d : Device) (code : Nat) (f : Device → Device) : Device :=
  d.sdo 0x8000 0x01 1 code fun d => if d.twinProfile then f d else d.twinRefuse 1 0

/-- CASTLE (R438, R439, R447); while a castling is pending another shows 4 (assumption log 13). -/
def execCastle (s : State) : Out :=
  s.run fun d => d.twinCommand 1 fun d =>
    if d.unit = 2 then d.twinRefuse 2 0
    else if d.unit ≠ 3 then d.twinRefuse 1 0
    else if !d.lease.valid then d.twinRefuse 2 0
    else if d.twin.castle ≠ 0 then d.twinRefuse 4 0
    else if d.castleFails ≠ 0 then d.twinRefuse 3 d.castleFails
    else
      let c := d.futureTick 1024 256
      let d := ((d.wr 0x8000 0x02 0).wr 0x8000 0x04 0).wr 0x8000 0x03 c
      ((d.wrBit 0x2020 0x06 2 true).control [2, c]).modTwin fun t => { t with castle := 1, noRelease := false }

/-- RESYNC (R442, R447). -/
def execResync (s : State) : Out :=
  s.run fun d => d.twinCommand 2 fun d =>
    if d.unit ≠ 0 then d.twinRefuse 1 0
    else if d.disputed then d.twinRefuse 3 0
    else ((d.wr 0x8000 0x02 0).modTwin fun t => { t with resyncCmd := true }).askResync

/-- OUT_OF_SERVICE (R407). -/
def execOutOfService (s : State) : Out :=
  s.run fun d => d.twinCommand 3 fun d =>
    if d.unit = 3 then d.twinRefuse 1 0
    else (d.wr 0x8000 0x02 0).modTwin fun t => { t with unitGo := some 4, oos := true }

/-- RETURN (R407, R468). -/
def execReturn (s : State) : Out :=
  s.run fun d => d.twinCommand 4 fun d =>
    if d.unit ≠ 4 then d.twinRefuse 1 0
    else if d.boot.faultSince || !d.fit || d.boot.plState < 5 then d.twinRefuse 3 0
    else (d.wr 0x8000 0x02 0).modTwin fun t => { t with unitGo := some 0, oos := false }

/-- Both drop a pending castling, with an event (R439). -/
def Device.abandonCastling (d : Device) (tell : Bool) : Device :=
  if d.twin.castle ≠ 0 then
    let d := d.dropCastling.event 0x8000 0x03 lvWarn []
    if tell then d.control [4] else d
  else d

/-- ABANDON_CASTLING (R439): command 5 of 0x8000.01. -/
def execAbandonCastling (s : State) : Out :=
  s.run fun d => d.twinCommand 5 fun d =>
    if d.unit = 3 && d.twin.castle ≠ 0 && !d.twin.noRelease then (d.wr 0x8000 0x02 0).abandonCastling true
    else d.twinRefuse 1 0

/-- Conditions 1 to 3 of R438 as a STANDBY-SYNC unit judges them from its side (R439). -/
def Device.standbyCastles (d : Device) : Bool :=
  d.peerShows 3 0 && d.selfTestBits % 4096 == 0xFFF && d.rd 0x8001 0x10 == 1 && bit (d.peerBody) 427 && !d.disputed

/-- CASTLE_PROPOSE (R439): the standby judges conditions 1 to 3 from its side. -/
def execCastlePropose (c : Nat) (s : State) : Out :=
  s.run fun d =>
    if d.unit = 2 then
      if d.standbyCastles then
        (((d.control [3, c]).wr 0x8000 0x03 c).wrBit 0x2020 0x06 2 true).modTwin fun t => { t with castle := 2, noRelease := false }
      else d.control [4]
    else if d.twinProfile then d.control [4] else d

/-- CASTLE_ACK (R439). -/
def execCastleAck (c : Nat) (s : State) : Out :=
  s.run fun d =>
    if d.unit = 3 && d.twin.castle = 1 && d.rd 0x8000 0x03 = c then d.modTwin fun t => { t with castle := 2 } else d

/-- CASTLE_ABANDON (R439). -/
def execCastleAbandon (s : State) : Out := s.run fun d => d.abandonCastling false

/-- ABDICATE (R441): the standby receives the tick of an abdication. -/
def execAbdicate (c : Nat) (s : State) : Out :=
  s.run fun d =>
    if d.unit = 2 then (d.wr 0x8000 0x03 c).modTwin fun t => { t with castle := 2, noRelease := true } else d

/-- The re-check of R438 in every tick from the acceptance to c - 1 (R439); a standby that bridges abandons the castling (R448). -/
def Device.castleRecheck (d : Device) : Device :=
  if d.twin.castle ≠ 0 && !d.twin.noRelease && d.tick < d.rd 0x8000 0x03 then
    let bad := if d.unit = 3 then !d.lease.valid || d.castleFails ≠ 0
               else !d.standbyCastles || bit (d.rd 0x2020 0x06) 1
    if bad then d.abandonCastling true else d
  else d

/-- CASTLING_TICK (R439, R441, Table 13.12): at the T0 of tick c the roles swap. -/
def execCastlingTick (s : State) : Out :=
  s.run fun d =>
    if d.twin.castle = 2 && d.tick ≥ d.rd 0x8000 0x03 then
      if d.unit = 3 then
        let d := if d.twin.noRelease then d else d.releaseLease true
        (d.dropCastling).setUnit 2
      else if d.unit = 2 then
        let abd := d.twin.noRelease
        let d := (d.dropCastling).setUnit 3
        let d := d.modTwin fun t => { t with castleWait := !abd, castleAt := d.tick }
        if d.fit then d.request 3 false (!abd) else d
      else d.dropCastling
    else if d.twin.castle = 1 && d.tick ≥ d.rd 0x8000 0x03 then d.abandonCastling true
    else d

/-- CASTLING_GRANT_TIMEOUT (R440): no grant by 0x8000.41 after the T0 of tick c. -/
def execCastlingGrantTimeout (s : State) : Out :=
  s.run fun d =>
    if d.unit = 3 && d.twin.castleWait && !d.lease.valid && d.tick ≥ d.twin.castleAt + d.ticksOf (d.rd 0x8000 0x41) then
      ((d.event 0x8000 0x06 lvWarn []).wr 0x8001 0x01 3).modTwin fun t => { t with castleWait := false }
    else d

/-! ### Resynchronisation -/

/-- RESYNC_REQUEST (R443): the active unit answers with the snapshot tick. -/
def execResyncRequest (s : State) : Out :=
  s.run fun d =>
    if d.twinProfile && d.isActive then
      let c := d.futureTick 256 64
      (d.control [7, c]).modTwin fun t => { t with snapTick := c }
    else d

/-- RESYNC_ACK (R443): the standby learns the snapshot tick. -/
def execResyncAck (c : Nat) (s : State) : Out :=
  s.run fun d =>
    if d.unit = 0 && d.twin.resyncReq then d.modTwin fun t => { t with snapTick := c } else d

/-- SNAPSHOT_TICK (R443): at T0 of the snapshot tick the standby enters RESYNC and begins to buffer. -/
def execSnapshotTick (s : State) : Out :=
  s.run fun d =>
    if d.twin.snapTick ≠ 0 && d.tick = d.twin.snapTick then
      if d.unit = 0 && d.twin.resyncReq && !d.twin.unlike then
        (d.setUnit 1).modTwin fun t => { t with
          resyncReq := false, buffered := [], bufWrites := [], bufBlocks := [], bufState := [], bufReports := []
          loaded := false, gotOuter := false, ownBlocks := false, verified := 0 }
      else if d.isActive then d.modTwin fun t => { t with lastTx := [6, t.snapTick] }
      else d
    else d

/-- REFBLK_RECORD (R443): the reference blocks in force of the two poles in tick `n` are buffered. -/
def execRefblkRecord (rseq n : Nat) (blocks : List RefBlock) (single : Bool) (s : State) : Out :=
  s.run fun d =>
    let d := if d.twinProfile && !d.isActive then d.recordSeq rseq single else d
    if d.unit = 1 then d.modTwin fun t => { t with bufBlocks := t.bufBlocks ++ [(n, blocks)] } else d

/-- RESYNC_VERIFIED (R407, R443): equal hashes for the verification length take the standby to STANDBY-SYNC at the next tick
boundary. -/
def execResyncVerified (s : State) : Out :=
  s.run fun d =>
    if d.unit = 1 && d.twin.loaded && !d.twin.leaveSync && d.twin.verified ≥ d.rd 0x8000 0x40 then
      d.modTwin fun t => { t with unitGo := some 2 }
    else d

/-- RESYNC_TIMEOUT (R444): more than 1 s from the snapshot tick. -/
def execResyncTimeout (s : State) : Out :=
  s.run fun d => if d.tick > d.twin.snapTick + d.ticksOf 1000000 then d.resyncFail else d

end Sys2Proof.Machine
end

