-- ==== Sys2Proof/Machine/Validate.lean ====
section
/-! DEFINITION. Configuration images (R585 to R588): the header and the records of an image, the values it gives a unit, and the
checks of Table 17.9 that reject one (R592).
Choices of the model: assumption log 68. -/
namespace Sys2Proof.Machine

/-! ### Images -/

/-- A record of an image's body (R586). -/
structure CfgRec where
  idx  : Nat
  sub  : Nat
  unit : Nat
  data : List Nat
  deriving DecidableEq, Repr

/-- The little-endian field of `n` bytes at byte `i`. -/
def bytesAt (bs : List Nat) (i n : Nat) : Nat := leNat ((bs.drop i).take n)

/-- The body of an image: what follows its 256-byte header. -/
def imageBody (im : List Nat) : List Nat := im.drop 256

/-- The records of a body, in order; none where its bytes are no sequence of records. The fuel is the body's length. -/
def parseRecs : Nat → List Nat → Option (List CfgRec)
  | _, [] => some []
  | 0, _ => none
  | f + 1, bs =>
    let len := bytesAt bs 4 4
    let size := 8 + (len + 3) / 4 * 4
    if bs.length < size then none
    else
      match parseRecs f (bs.drop size) with
      | none => none
      | some r => some (⟨bytesAt bs 0 2, bytesAt bs 2 1, bytesAt bs 3 1, (bs.drop 8).take len⟩ :: r)

/-- The records of an image. -/
def imageRecs (im : List Nat) : List CfgRec := (parseRecs im.length (imageBody im)).getD []

/-- A record of a task image (R586). -/
def CfgRec.isTask (r : CfgRec) : Bool := 0x9030 ≤ r.idx && r.idx < 0x9038 && r.sub == 0xFF

/-- A record that applies to the unit of identity `id` (R586). -/
def CfgRec.applies (r : CfgRec) (id : Nat) : Bool := r.unit == 0 || r.unit == id + 1

/-- The values that a list of records gives a unit. -/
def recValues (id : Nat) (rs : List CfgRec) : List (Nat × Nat) :=
  (rs.filter fun r => r.applies id && !r.isTask).map fun r => (odKey r.idx r.sub, leNat r.data)

/-- The task images that a list of records gives a unit, by task number. -/
def recTasks (id : Nat) (rs : List CfgRec) : List (Nat × List Nat) :=
  (rs.filter fun r => r.applies id && r.isTask).map fun r => (r.idx - 0x9030, r.data)

/-- An address that images carry (R587). -/
def carriedKey (key : Nat) : Bool :=
  match odEntry? key with
  | some (e, _) => imageCarried (key / 256) (key % 256) e
  | none => false

/-- The carried entries whose default the straps set: 0x2010.03 and .05 (R41, R72, Table 17.1) (assumption log 10). -/
def Device.strapDefaults (d : Device) : List (Nat × Nat) :=
  let w := d.rd 0xA000 1
  [(0x201003, field w 7 2), (0x201005, if bit w 12 then 3 else 1)]

/-- The carried entries whose default is one of the pole's ratings or follows from one (Table 5.6, R390) (assumption log 10). -/
def Device.ratingDefaults (d : Device) : List (Nat × Nat) :=
  [0, 1].flatMap fun p =>
    let r := poleIdx 0x3004 p
    let o := poleIdx 0x3002 p
    let l := poleIdx 0x3003 p
    let pr := d.rdF r 4
    [(odKey o 3, d.rd r 5), (odKey o 4, d.rd r 6), (odKey o 5, f32Of (d.rd r 7 : Rat)), (odKey l 6, d.rd r 4), (odKey l 7, f32Of (-pr)),
      (odKey l 8, f32Of (pr / 2)), (odKey l 9, f32Of (-pr / 2)), (odKey (0x6001 + p) 8, f32Of (6 / 5 * pr))]

/-- Pole 1 shows the entries marked pole 0 as pole 0 has them (R192, R193). -/
def Device.poleZeroCopies (d : Device) : List (Nat × Nat) :=
  [(0x380310, d.rd 0x3003 0x10), (0x38040B, d.rd 0x3004 0x0B), (0x38040D, d.rd 0x3004 0x0D), (0x38040F, d.rd 0x3004 0x0F)]

/-- The device with the values of a configuration in force: a carried entry that the configuration does not name takes its
default (R587). -/
def Device.withConfig (d : Device) (vals : List (Nat × Nat)) : Device :=
  let c := ({ d with od := d.od.filter fun kv => !carriedKey kv.1 }).wrAll (d.strapDefaults ++ vals)
  let c := c.wrAll (c.ratingDefaults.filter fun kv => !(vals.any fun x => x.1 == kv.1))
  c.wrAll c.poleZeroCopies

/-- The carried addresses whose value would differ from the one in force. -/
def Device.differing (d : Device) (vals : List (Nat × Nat)) : List Nat :=
  let new := d.withConfig vals
  let keys := (d.od.map (·.1)).filter carriedKey ++ (new.ratingDefaults ++ new.poleZeroCopies ++ vals).map (·.1)
  keys.filter fun k => odGet d.od k != odGet new.od k

/-- The change class of an address. -/
def keyClass (key : Nat) : OdClass :=
  match odEntry? key with
  | some (e, _) => e.cls
  | none => .none

/-! ### The rules of reason 9

Each answers the lowest address among the entries it judges where it fails. -/

/-- The first index of a list at which a check answers. -/
def firstOf (l : List Nat) (f : Nat → Option Nat) : Option Nat := firstSome (l.map f)

/-- R23: at most 8,192 cells in all, and no pole 1 without pole 0. -/
def ruleR23 (c : Device) : Option Nat :=
  let total := ((List.range 12).map fun a => c.rd (armIdx 0x4000 a) 2).foldl (· + ·) 0
  if total > 8192 then some 0x400002
  else if c.polePresent 1 && !c.polePresent 0 then some (odKey (armIdx 0x4000 6) 2) else none

/-- R24: a cluster holds cells of at most two arms, both of one pole, and at most 256 cells. -/
def ruleR24 (c : Device) : Option Nat :=
  firstOf (List.range 32) fun l =>
    let arms := c.armsOnLane l
    if arms.length > 2 || (arms.map poleOf).eraseDups.length > 1 || c.laneCells l > 256 then
      some (odKey (armIdx 0x4000 (arms.headD 0)) 2) else none

/-- The (lane, position) words of an arm's map within its cell count. -/
def Device.mapWords (c : Device) (a : Nat) : List Nat := (List.range (c.rd (armIdx 0x4000 a) 2)).map (c.cellAt a)

/-- R26, R255: every index below the count is assigned to one position inside its cluster, none twice, and entries beyond the
count are 0xFFFF. -/
def ruleR26 (c : Device) : Option Nat :=
  let all := (List.range 12).flatMap c.mapWords
  firstOf (List.range 12) fun a =>
    let n := c.rd (armIdx 0x4000 a) 2
    let ws := c.mapWords a
    let bad := ws.any (fun g => g ≥ 8192 || g % 256 ≥ c.laneCells (g / 256))
      || ws.any (fun g => decide ((all.filter (· == g)).length > 1))
    let rest := (List.range (1024 - n)).any fun i => c.cellAt a (n + i) != 0xFFFF
    if bad || rest then some (odKey (armIdx 0x4000 a) 2) else none

/-- R66, R157: outer-loop periods. Range and multiple of 100 µs are judged for both poles, present or not; that T_s is a multiple of T_f
for each present pole (assumption log 37). -/
def ruleR157 (c : Device) : Option Nat :=
  let ts := c.rd 0x3004 0x0D
  firstOf [0, 1] fun p =>
    let tf := c.rd (poleIdx 0x3004 p) 0x0C
    let own := tf < 100 || tf > 1000 || tf % 100 ≠ 0 || ts > 10000 || ts % 100 ≠ 0
    let pair := c.polePresent p && (ts < tf || ts % tf ≠ 0)
    if own || pair
    then some (odKey (poleIdx 0x3004 p) 0x0C) else none

/-- R84: a triggered burst ends within 4,000 ENG cycles. -/
def ruleR84 (c : Device) : Option Nat :=
  firstOf (List.range 32) fun ch =>
    let i := 0x5601 + ch
    let dly := (c.rd i 2 + 19) / 20 * 20
    if c.rd i 1 = 2 && dly + 400 * c.rd i 3 > 4000 then some (odKey i 1) else none

/-- R107 on a configuration. -/
def ruleR107 (c : Device) : Option Nat :=
  firstOf (List.range 32) fun ch =>
    let i := 0x5601 + ch
    if (c.windowAbort i 0 0).isSome then some (odKey i 0x0A) else none

/-- R113: legs and arm-current channels. -/
def ruleR113 (c : Device) : Option Nat :=
  let leg := firstOf [0, 1, 2, 6, 7, 8] fun a =>
    let u := armIdx 0x4010 a
    let l := armIdx 0x4010 (a + 3)
    let both := c.armPresent a && c.armPresent (a + 3)
    if (c.armPresent a != c.armPresent (a + 3)) then some (odKey (armIdx 0x4000 a) 2)
    else if both && [2, 3, 4, 5].any (fun s => c.rd u s != c.rd l s) then some (odKey u 2) else none
  let chan := firstOf (List.range 12) fun a =>
    let i := armIdx 0x4010 a
    let ch := c.rd i 1
    let twice := (List.range 12).any fun b => b != a && c.rd (armIdx 0x4010 b) 1 == ch
    if c.armPresent a && (ch > 31 || c.rd (0x5601 + ch) 1 == 0 || c.rd (0x5601 + ch) 7 != 1 || twice) then some (odKey i 1) else none
  firstSome [leg, chan]

/-- R143: no table of a current target is in LEARNING. -/
def ruleR143 (c : Device) : Option Nat :=
  firstOf (List.range 96) fun k =>
    let i := armIdx 0x4020 (k / 8) + k % 8
    if c.rd i 1 = 2 && c.rd i 2 = 1 then some (odKey i 1) else none

/-- R264: no redundancy floor above the arm's cell count. -/
def ruleR264 (c : Device) : Option Nat :=
  firstOf (List.range 12) fun a =>
    if c.rd (0x5301 + a) 6 > c.rd (armIdx 0x4000 a) 2 then some (odKey (0x5301 + a) 6) else none

/-- R147: the lower arm-voltage limit lies below the upper one. -/
def ruleR147 (c : Device) : Option Nat :=
  firstOf (List.range 12) fun a =>
    let i := armIdx 0x4010 a
    if c.rdF i 0x0A ≥ c.rdF i 0x09 then some (odKey i 0x09) else none

/-- R150: neutral amplitude up to the ceiling. -/
def ruleR150 (c : Device) : Option Nat :=
  firstOf (List.range 12) fun a =>
    let i := armIdx 0x4014 a
    if c.rdF i 2 > c.rdF i 3 then some (odKey i 2) else none

/-- R153: one pair of bases per pole. -/
def ruleR153 (c : Device) : Option Nat :=
  firstOf [0, 1] fun p =>
    let arms := (armsOf p).filter c.armPresent
    match arms with
    | [] => none
    | a :: r =>
      if r.any fun b => c.rd (armIdx 0x4010 b) 2 != c.rd (armIdx 0x4010 a) 2 || c.rd (armIdx 0x4010 b) 3 != c.rd (armIdx 0x4010 a) 3
      then some (odKey (armIdx 0x4010 a) 2) else none

/-- R155: the five channels of a present pole. -/
def ruleR155 (c : Device) : Option Nat :=
  firstOf [0, 1] fun p =>
    let i := poleIdx 0x3004 p
    let ac := c.rd i 8
    let missing := [field ac 0 8, field ac 8 8, field ac 16 8, c.rd i 9, c.rd i 0x0A].any (· > 31)
    if c.polePresent p && missing then some (odKey i 8) else none

/-- R177: BIPOLE needs both poles in POWER mode. -/
def ruleR177 (c : Device) : Option Nat :=
  if c.rd 0x3004 0x0F = 1 && (c.rd 0x3004 1 ≠ 0 || c.rd 0x3804 1 ≠ 0) then some 0x300401 else none

/-- R210: a valid ride-through profile of pole `p`. -/
def Device.profileOk (c : Device) (p : Nat) : Bool :=
  let i := poleIdx 0x3008 p
  let n := c.rd i 1
  let dip := c.rdF (0x5100 + p) 2
  let swell := c.rdF (0x5100 + p) 3
  c.rd i 0x10 == 0 &&
    ((List.range (n - 1)).all fun k => decide (c.rd i (0x10 + k) < c.rd i (0x11 + k))) &&
    (List.range n).all fun k =>
      decide (0 ≤ c.rdF i (0x20 + k)) && decide (c.rdF i (0x20 + k) ≤ dip) &&
      decide (swell ≤ c.rdF i (0x30 + k)) && decide (c.rdF i (0x30 + k) ≤ 2)

/-- R210 on a configuration. -/
def ruleR210 (c : Device) : Option Nat :=
  firstOf [0, 1] fun p => if c.profileOk p then none else some (odKey (poleIdx 0x3008 p) 1)

/-- R235: no exclusion bit beyond the cell count. -/
def ruleR235 (c : Device) : Option Nat :=
  firstOf (List.range 12) fun a =>
    if c.rd (armIdx 0x4002 a) 1 ≥ 2 ^ c.rd (armIdx 0x4000 a) 2 then some (odKey (armIdx 0x4002 a) 1) else none

/-- R256: every position below a cluster's count belongs to one cell. -/
def ruleR256 (c : Device) : Option Nat :=
  let all := (List.range 12).flatMap c.mapWords
  firstOf (List.range 32) fun l =>
    if (List.range (c.laneCells l)).all fun k => (all.filter (· == 256 * l + k)).length == 1 then none else some 0x400002

/-- R271: B + W at most 255. -/
def ruleR271 (c : Device) : Option Nat :=
  firstOf (List.range 12) fun a => if c.rd (0x5401 + a) 1 + c.rd (0x5401 + a) 2 > 255 then some (odKey (0x5401 + a) 1) else none

/-- R335: the overvoltage threshold of every present arm at most 8,000 V. -/
def ruleR335 (c : Device) : Option Nat :=
  firstOf (List.range 12) fun a =>
    if c.armPresent a && c.rdF 0x5300 1 * c.rdF (armIdx 0x4010 a) 4 > 8000 then some (odKey (armIdx 0x4010 a) 4) else none

/-- R352 on a configuration. -/
def ruleR352 (c : Device) : Option Nat := if c.boundAbort 0 0 0 then some 0x500007 else none

/-- The full scale of a channel (R367). -/
def Device.fullScale (c : Device) (ch : Nat) : Rat :=
  131072 * ratAbs (c.rdF (0x5601 + ch) 5) + ratAbs (c.rdF (0x5601 + ch) 6)

/-- R367: metering points. -/
def ruleR367 (c : Device) : Option Nat :=
  let both := (c.meterChannels 0 ++ c.meterChannels 1).filter (· < 32)
  firstOf [0, 1] fun p =>
    if !c.metered p then none
    else
      let ms := c.meterChannels p
      let m := fun i => ms.getD i 255
      let set := ms.filter (· < 32)
      let fs : List Nat → Rat := fun l => l.foldl (fun x ch => ratMax x (c.fullScale ch)) 0
      let ac := (ms.take 6).filter (· < 32)
      let bad := ac.any (· ≥ 12) || ac.length != 6
        || both.eraseDups.length != both.length
        || set.any (fun ch => c.rd (0x5601 + ch) 1 != 1)
        || ((ms.take 3) ++ [m 6]).any (fun ch => ch < 32 && c.rd (0x5601 + ch) 7 != 0)
        || ((ms.drop 3).take 3 ++ [m 7]).any (fun ch => ch < 32 && c.rd (0x5601 + ch) 7 != 1)
        || decide (3 * fs ((ms.take 3).filter (· < 32)) * fs (((ms.drop 3).take 3).filter (· < 32)) > 8000000000)
        || decide (fs ([m 6].filter (· < 32)) * fs ([m 7].filter (· < 32)) > 8000000000)
      if bad then some (odKey (0x5601 + set.foldl min 31) 1) else none

/-- R393: pulse width against the pulse rate. -/
def ruleR393 (c : Device) : Option Nat :=
  firstOf (List.range 8) fun o =>
    if 2 * c.rdF (0x6060 + o) 4 * (c.rd (0x6060 + o) 5 : Rat) > 1000000 then some (odKey (0x6060 + o) 4) else none

/-- R647: the hard threshold lies above the soft one. -/
def ruleR647 (c : Device) : Option Nat := if c.rdF 0x5800 0x46 ≤ c.rdF 0x5800 0x45 then some 0x580045 else none

/-- R673: recorder channels name entries that a TxPDO may map, not 64 bits wide, or an expert entry of 0x4015. -/
def ruleR673 (c : Device) : Option Nat :=
  let dom := c.rd 0xB000 0x09
  firstOf (List.range 512) fun i =>
    let w := field dom (32 * i) 32
    let key := w / 256
    let idx := key / 256
    let ok := w == 0 || (w % 256 == 0 &&
      ((txMappable key && odBits key != 64)
        || (0x4000 ≤ idx && idx < 0x4C00 && idx % 0x100 == 0x15 && 0x40 ≤ key % 256 && odBits key != 0)))
    if ok then none else some 0xB00009

/-- The rules of reason 9 in ascending order of their labels. -/
def configRules : List (Device → Option Nat) :=
  [ruleR23, ruleR24, ruleR26, ruleR157, ruleR84, ruleR107, ruleR113, ruleR143, ruleR147, ruleR150, ruleR153, ruleR155, ruleR177, ruleR210,
   ruleR235, ruleR256, ruleR264, ruleR271, ruleR335, ruleR352, ruleR367, ruleR393, ruleR647, ruleR673]

/-! ### Reasons 7, 8, 10 and 11 -/

/-- Reason 7: an entry that images do not carry, or a UNIT that R586 forbids. -/
def recForbidden (r : CfgRec) : Bool :=
  if r.isTask then decide (r.unit > 2)
  else !carriedKey (odKey r.idx r.sub) || r.unit > 2 || (r.unit != 0 && !unitLocal r.idx r.sub)

/-- Reason 8: a single value that a write would refuse for its length or its range (R536, R138, R141). -/
def recRefused (r : CfgRec) : Bool :=
  if r.isTask then false
  else
    match odEntry? (odKey r.idx r.sub) with
    | none => true
    | some (e, _) => r.data.length != e.ty.bytes || (rangeAbort e.ty e.range (leNat r.data)).isSome
        || (isMapping r.idx && r.idx < 0x1C00 && !mapOk (r.idx ≥ 0x1A00) (leNat r.data))

/-- The header fields of a task image that are checked (R470, Table 14.4). -/
structure TaskHead where
  slot   : Nat
  period : Nat
  phase  : Nat
  budget : Nat
  codesz : Nat
  datasz : Nat
  entry  : Nat
  ver    : Nat
  deriving DecidableEq, Repr

/-- Read a task image's header; none for a wrong MAGIC or FORMAT or an image shorter than its header. -/
def taskHead (im : List Nat) : Option TaskHead :=
  if im.length < 256 || bytesAt im 0 4 ≠ 0x4B585431 || bytesAt im 4 1 ≠ 1 then none
  else some ⟨bytesAt im 5 1, bytesAt im 6 2, bytesAt im 8 2, bytesAt im 10 2, bytesAt im 12 4, bytesAt im 16 4, bytesAt im 20 4,
    bytesAt im 24 4⟩

/-- The periods a task may have: 1, 2, 4 up to 1,024. -/
def taskPeriods : List Nat := (List.range 11).map (2 ^ ·)

/-- R471 on one task image, against the key slots in force. -/
def Device.taskRefused (d : Device) (im : List Nat) : Bool :=
  match taskHead im with
  | none => true
  | some h =>
    let key := d.rd 0x9020 (0x40 + h.slot)
    h.slot > 3 || key == 0 || !Config.ed25519 key (im.take 192 ++ (im.drop 256)) (bytesAt im 192 64)
      || !taskPeriods.contains h.period || h.phase ≥ h.period || h.budget < 1 || h.budget > 480 || h.codesz > 262144
      || h.datasz > 262144 || h.entry ≥ h.codesz || im.length ≠ 256 + h.codesz + h.datasz

/-- R472: the budgets due in tick residue `r` of 1,024. -/
def dueBudget (ts : List (Nat × List Nat)) (r : Nat) : Nat :=
  ts.foldl (fun n t =>
    match taskHead t.2 with
    | some h => if h.period ≠ 0 && (r + 1024 * 1024 - h.phase) % h.period = 0 then n + h.budget else n
    | none => n) 0

/-- The first task, in ascending number, whose image R471 refuses, or which takes the budgets of some tick above 480. -/
def Device.taskFault (d : Device) (ts : List (Nat × List Nat)) : Option Nat :=
  firstOf (List.range 8) fun t =>
    match ts.find? (fun x => x.1 == t) with
    | none => none
    | some x =>
      let upTo := ts.filter fun y => y.1 ≤ t
      if d.taskRefused x.2 || (List.range 1024).any (fun r => decide (dueBudget upTo r > 480)) then some t else none

/-! ### The verdict -/

/-- What a check of an image yields: the reason of Table 17.9, 0 for none, and the address 0xA000.31 shows. -/
structure Verdict where
  reason : Nat
  addr   : Nat
  deriving DecidableEq, Repr

/-- 0xA000.31 for an address. -/
def shownAddr (key : Nat) : Nat := key * 256

/-- Version of the firmware that runs. -/
def Device.fwVersion (d : Device) : Nat := d.rd 0xA000 (0x16 + d.rd 0xA000 0x15)

/-- Reasons 1 to 6, judged on the header; `boot` leaves out reasons 3 and 6 (R581), `old` reason 6 (R594, R599). -/
def Device.headVerdict (d : Device) (im : List Nat) (boot old : Bool) : Nat :=
  let len := bytesAt im 16 4
  let slot := bytesAt im 5 1
  let key := d.rd 0xA000 (0x40 + slot)
  if im.length < 256 || bytesAt im 0 4 ≠ 0x4B434647 || bytesAt im 4 1 ≠ 1 || len > 16776960 || len ≠ im.length - 256 then 1
  else if crc32c (imageBody im) ≠ bytesAt im 20 4 then 2
  else if !boot && (slot > 3 || key == 0 || !Config.ed25519 key (im.take 192 ++ imageBody im) (bytesAt im 192 64)) then 3
  else if !bit (bytesAt im 6 1) (if d.sealedPart then 1 else 0) then 4
  else if bytesAt im 12 4 > d.fwVersion then 5
  else if !boot && !old && bytesAt im 8 4 ≤ d.rd 0xA000 0x06 then 6
  else 0

/-- The body checks, reasons 7 to 11, in the order of R592. -/
def Device.bodyVerdict (d : Device) (im : List Nat) : Verdict :=
  match parseRecs im.length (imageBody im) with
  | none => ⟨7, 0⟩
  | some rs =>
    match rs.find? (fun r => recForbidden r || recRefused r) with
    | some r => ⟨if recForbidden r then 7 else 8, shownAddr (odKey r.idx r.sub)⟩
    | none =>
      let id := d.rd 0x2020 1
      let vals := recValues id rs
      let c := { d with live := [] }.withConfig vals
      match firstSome (configRules.map fun f => f c) with
      | some k => ⟨9, shownAddr k⟩
      | none =>
        let locked := (vals.map (·.1) ++ d.differing vals).find? fun k =>
          d.sealed (k / 256) (k % 256) && odGet d.od k != odGet c.od k
        match locked with
        | some k => ⟨10, shownAddr k⟩
        | none =>
          match d.taskFault (recTasks id rs) with
          | some t => ⟨11, shownAddr (odKey (0x9030 + t) 0xFF)⟩
          | none => ⟨0, 0⟩

/-- A whole image judged in the order of R592. -/
def Device.verdict (d : Device) (im : List Nat) (boot old : Bool) : Verdict :=
  match d.headVerdict im boot old with
  | 0 => d.bodyVerdict im
  | n => ⟨n, 0⟩

end Sys2Proof.Machine
end

