-- ==== Sys2Proof/Machine/ConfigStore.lean ====
section
/-! DEFINITION. The configuration store of the station half (R585 to R606): slots and firmware images, validation, the
activation exchange up to its commit point, and the ring of commit records.
Choices of the model: assumption log 68. -/
namespace Sys2Proof.Machine

/-- Change the start-up and configuration part. -/
def Device.modBoot (d : Device) (f : Boot → Boot) : Device := { d with boot := f d.boot }

/-- Change the activation in progress. -/
def Device.modAct (d : Device) (f : Activation → Activation) : Device :=
  d.modBoot fun b => { b with act := f b.act }

/-! ### Commit records (R596, R600) -/

/-- The governing record of a target: the newest COMMIT, ROLLBACK or CHECKPOINT that no later ABANDON names. -/
def governing (cs : List CommitRec) (target : Nat) : Option CommitRec :=
  (cs.filter fun r => r.target == target && [1, 4, 5].contains r.kind
    && !cs.any (fun a => a.kind == 2 && a.target == target && a.named == r.seq)).getLast?

/-- A READY record names it, or it is a CHECKPOINT that carries the ready flag. -/
def recordReady (cs : List CommitRec) (r : CommitRec) : Bool :=
  (r.kind == 5 && bit r.flags 2) || cs.any fun a => a.kind == 3 && a.target == r.target && a.named == r.seq

/-- A boot under this record is a trial boot (R600). -/
def recordTrial (cs : List CommitRec) (r : CommitRec) : Bool :=
  (r.kind == 1 || r.kind == 4) && bit r.flags 1 && !recordReady cs r

/-- Append a record under the next SEQ; the ring holds 4,096. -/
def Device.ringCommit (d : Device) (r : CommitRec) : Device :=
  d.modBoot fun b =>
    let cs := b.commits ++ [{ r with seq := b.commitSeq, utc := d.utc }]
    { b with commits := cs.drop (cs.length - 4096), commitSeq := (b.commitSeq + 1) % 2 ^ 32 }

/-- The CHECKPOINT of a target. -/
def Device.checkpoint (d : Device) (target : Nat) : Device :=
  match governing d.boot.commits target with
  | none => d
  | some g =>
    d.ringCommit { g with kind := 5, flags := g.flags % 4 + 4 * b2n (recordReady d.boot.commits g), named := 0 }

/-- Write a record; where the write position returns to the start of the ring the CHECKPOINT records go first (R596). -/
def Device.commit (d : Device) (r : CommitRec) : Device :=
  let d := if (d.boot.commitSeq + 2 ^ 32 - 1) % 4096 = 0 && !d.boot.commits.isEmpty then (d.checkpoint 0).checkpoint 1 else d
  d.ringCommit r

/-! ### Slots and images in flash -/

/-- State of a slot, codes of R589: 0 EMPTY, 1 STAGED, 2 VALIDATED, 3 ACTIVE, 4 PREVIOUS, 5 REJECTED. -/
def Device.slotState (d : Device) (s : Nat) : Nat := d.rd 0xA000 (0x18 + s)

/-- Change a slot's state. -/
def Device.setSlot (d : Device) (s st : Nat) : Device := if s < 8 then d.wr 0xA000 (0x18 + s) st else d

/-- The image a slot holds. -/
def Device.slotImage (d : Device) (s : Nat) : SlotStore := d.boot.slots.getD s ⟨[], true⟩

/-- Version of a slot. -/
def Device.slotVersion (d : Device) (s : Nat) : Nat := d.rd 0xA000 (0x20 + s)

/-- Configuration CRC of a slot. -/
def Device.slotCrc (d : Device) (s : Nat) : Nat := d.rd 0xA000 (0x28 + s)

/-- Put an image into a slot, with the version and the CRC of its header. -/
def Device.putSlot (d : Device) (s st : Nat) (im : List Nat) : Device :=
  let d := d.modBoot fun b => { b with slots := b.slots.set s ⟨im, true⟩ }
  ((d.setSlot s st).wr 0xA000 (0x20 + s) (bytesAt im 8 4)).wr 0xA000 (0x28 + s) (bytesAt im 20 4)

/-- The firmware image that a write of tk_fw goes into: the one no governing record names (R604). -/
def Device.otherImage (d : Device) : Nat :=
  match governing d.boot.commits 1 with
  | some g => 1 - g.slot
  | none => 1 - d.rd 0xA000 0x15

/-- A firmware image of the flash. -/
def Device.fwImage (d : Device) (i : Nat) : FwImage := d.boot.images.getD i ⟨false, 0, 0, 0, true⟩

/-- Put a firmware image in its region. -/
def Device.putImage (d : Device) (i : Nat) (im : FwImage) : Device :=
  (d.modBoot fun b => { b with images := b.images.set i im }).wr 0xA000 (0x16 + i) im.version

/-- The slot whose judgement a slot's flash decides: blocks that fail their rewrite make the image fail its CRC (R709). -/
def Device.slotVerdict (d : Device) (s : Nat) (boot old : Bool) : Verdict :=
  let v := d.verdict (d.slotImage s).image boot old
  if (d.slotImage s).flashOk || v.reason = 1 then v else ⟨2, 0⟩

/-- FOE_WRITE_SEGMENT (R567, R589 to R591): the first segment of a write of tk_cfg_0 to tk_cfg_7 (`file` 0 to 7) or tk_fw (8)
erases the region. -/
def execFoeWriteSegment (file password : Nat) (s : State) : Out :=
  s.run fun d =>
    if d.station.al = 1 then d
    else if file > 8 then d.foeError 0x8006
    else if !d.foeOk password then d.foeError 0x8004
    else if file < 8 then
      if d.level < 2 || d.slotState file = 3 || d.slotState file = 4
          || (d.boot.act.pending && !d.boot.act.fwTarget && d.boot.act.slot = file) then d.foeError 0x8004
      else ((d.putSlot file 0 []).foeFile []).modBoot fun b => { b with writing := some file }
    else if d.level < 3 || !(d.station.al = 2 || d.station.al = 3) then d.foeError 0x8004
    else
      let i := d.otherImage
      ((d.putImage i ⟨false, 0, 0, 0, true⟩).foeFile []).modBoot fun b => { b with writing := some (8 + i) }

/-- FOE_CONFIG_COMPLETE (R589 to R591): the write of a slot completes with the bytes `im`. -/
def execFoeConfigComplete (slot : Nat) (im : List Nat) (s : State) : Out :=
  s.run fun d =>
    if slot < 8 && d.boot.writing == some slot then
      let d := d.modBoot fun b => { b with writing := none }
      if im.length > 16777216 then d.foeError 0x8003 else d.putSlot slot 1 (im.map (· % 256))
    else d

/-- FOE_FIRMWARE_COMPLETE (R3, R604): the write of tk_fw completes; the station half has found its version, its CRC-32C, its
sealed metering version, and whether the signature and the product code pass. -/
def execFoeFirmwareComplete (version crc meter : Nat) (sigOk productOk : Bool) (s : State) : Out :=
  s.run fun d =>
    match d.boot.writing with
    | some w =>
      if w < 8 then d
      else
        let i := w - 8
        let d := d.modBoot fun b => { b with writing := none }
        let seal_ := !d.sealedPart || meter == (d.fwImage (d.rd 0xA000 0x15)).meterVersion
        if sigOk && productOk && seal_ then d.putImage i ⟨true, version % 2 ^ 32, crc % 2 ^ 32, meter, true⟩
        else (d.putImage i ⟨false, 0, 0, 0, true⟩).stEvent 0xA000 (0x16 + i) lvWarn []
    | none => d

/-- FLASH_REFRESH (R709): every block of an image or a slot is rewritten; bit i of `failed` marks firmware image i, bit 2 + s
slot s, whose rewrite failed: it records an event and fails its CRC from then on. -/
def execFlashRefresh (failed : Nat) (s : State) : Out :=
  s.run fun d =>
    (List.range 10).foldl (fun d k =>
      if bit failed k then
        if k < 2 then (d.modBoot fun b => { b with images := b.images.modify k fun im => { im with flashOk := false } }).stEvent
          0xA000 (0x16 + k) lvWarn []
        else (d.modBoot fun b => { b with slots := b.slots.modify (k - 2) fun sl => { sl with flashOk := false } }).stEvent
          0xA000 (0x18 + (k - 2)) lvWarn []
      else d) d

/-! ### Commands of 0xA000.07 -/

/-- Refuse a command of 0xA000.07 with a result and, for an activation, the failed condition of R594 (assumption log 13). -/
def Device.storeRefuse (d : Device) (result reason : Nat) : Device :=
  ((d.wr 0xA000 0x09 result).wr 0xA000 0x0A reason).abort 0xA000 0x07 (if result = 2 then 0x08000020 else 0x08000022)

/-- A write of `code` to 0xA000.07. -/
def Device.storeCommand (d : Device) (code : Nat) (f : Device → Device) : Device := d.sdo 0xA000 0x07 1 code f

/-- VALIDATE (R592). -/
def execValidate (s : State) : Out :=
  s.run fun d => d.storeCommand 1 fun d =>
    let t := d.rd 0xA000 0x08
    if d.boot.validating.isSome || !d.plantReachable then d.storeRefuse 3 0
    else if d.slotState t ≠ 1 then d.storeRefuse 1 0
    else ((d.wr 0xA000 0x09 4).wr 0xA000 0x0A 0).modBoot fun b => { b with validating := some t }

/-- VALIDATION_COMPLETE (R592, Tables 17.8 and 17.9). -/
def execValidationComplete (s : State) : Out :=
  s.run fun d =>
    match d.boot.validating with
    | none => d
    | some t =>
      let d := d.modBoot fun b => { b with validating := none }
      if d.slotState t ≠ 1 then d.wr 0xA000 0x09 3
      else
        let v := d.slotVerdict t false false
        let d := d.wr 0xA000 0x09 0
        if v.reason = 0 then d.setSlot t 2
        else (((d.setSlot t 5).wr 0xA000 0x30 v.reason).wr 0xA000 0x31 v.addr).wr 0xA000 0x32 t

/-- ERASE (Table 17.8). -/
def execErase (s : State) : Out :=
  s.run fun d => d.storeCommand 4 fun d =>
    let t := d.rd 0xA000 0x08
    if !([1, 2, 5].contains (d.slotState t)) then d.storeRefuse 1 0
    else if d.boot.act.pending && !d.boot.act.fwTarget && d.boot.act.slot = t then d.storeRefuse 3 0
    else ((d.putSlot t 0 []).wr 0xA000 0x09 0).wr 0xA000 0x0A 0

/-! ### Activation -/

/-- The values that a slot's image gives this unit. -/
def Device.slotValues (d : Device) (s : Nat) : List (Nat × Nat) :=
  recValues (d.rd 0x2020 1) (imageRecs (d.slotImage s).image)

/-- The kind of an activation of a slot (R593): RESTART (1) when an entry of class RESTART differs or the baseline runs, else
LIVE (0). -/
def Device.slotKind (d : Device) (s : Nat) : Nat :=
  if d.rd 0xA000 0x02 = 0xFF || (d.differing (d.slotValues s)).any (fun k => keyClass k == .restart) then 1 else 0

/-- Conditions 3 to 6 of R594 for an activation of kind `kind` of slot `s`: the first that fails, 0 when all hold. -/
def Device.actBusy (d : Device) (kind s : Nat) : Nat :=
  if d.boot.act.pending || d.twin.castle ≠ 0 || d.rd 0x2010 0x04 ≠ 0 || (d.pole 0).deblockAt.isSome
      || (d.pole 1).deblockAt.isSome then 3
  else if d.disputed then 4
  else if kind = 0 && !((d.differing (d.slotValues s)).all fun k => keyClass k != .blocked || d.scopeBlocked (k / 256)) then 5
  else if kind ≠ 0 && !d.allBlocked then 6
  else 0

/-- The peer rows of Table 17.10 apply. -/
def Device.peerInSync (d : Device) : Bool := d.twinProfile && d.isActive && d.peerShows 2 0

/-- An activation command (R593 to R595): `target` is the slot or image, `ok` condition 2. -/
def Device.activate (d : Device) (fw rollback ok : Bool) (target : Nat) : Device :=
  let kind := if fw then 2 else d.slotKind target
  if !d.holds then d.storeRefuse 2 1
  else if !ok then d.storeRefuse 1 2
  else
    let b := d.actBusy kind target
    if b ≠ 0 then d.storeRefuse 3 b
    else
      let a := d.futureTick 1024 512
      let peer := d.peerInSync
      let d := ((d.wr 0xA000 0x09 (if peer then 4 else 0)).wr 0xA000 0x0A 0).wr 0xA000 0x0B 1
      let d := (d.wr 0xA000 0x0C a).wr 0xA000 0x0D kind
      let d := d.modAct fun _ => { Activation.reset with
        pending := true, holder := true, slot := target, fwTarget := fw, rollback := rollback, peer := peer }
      let v := if fw then (d.fwImage target).version else d.slotVersion target
      let c := if fw then (d.fwImage target).crc else d.slotCrc target
      if peer then d.control [8, kind, v, c, a] else d

/-- ACTIVATE (R593, R594). -/
def execActivate (s : State) : Out :=
  s.run fun d => d.storeCommand 2 fun d =>
    let t := d.rd 0xA000 0x08
    d.activate false false (d.slotState t == 2) t

/-- ROLLBACK (R602): the PREVIOUS slot. -/
def execRollback (s : State) : Out :=
  s.run fun d => d.storeCommand 3 fun d =>
    let t := d.rd 0xA000 0x05
    d.activate false true (t < 8 && d.slotState t == 4) t

/-- ACTIVATE_FIRMWARE (R593, R605): the image that does not run. -/
def execActivateFirmware (s : State) : Out :=
  s.run fun d => d.storeCommand 6 fun d =>
    let i := 1 - d.rd 0xA000 0x15
    d.activate true false (d.fwImage i).present i

/-- ABANDON (R598): on the holder before tick a - 128. -/
def execAbandon (s : State) : Out :=
  s.run fun d => d.storeCommand 5 fun d =>
    if !d.boot.act.pending || !d.boot.act.holder then d.storeRefuse 1 0
    else if d.tick + 128 ≥ d.rd 0xA000 0x0C then d.storeRefuse 3 0
    else ((d.wr 0xA000 0x09 0).wr 0xA000 0x0A 0).modAct fun a => { a with abandon := true }

/-- The slot that holds a version and CRC in one of the states `sts`. -/
def Device.findSlot (d : Device) (sts : List Nat) (version crc : Nat) : Option Nat :=
  (List.range 8).find? fun s => sts.contains (d.slotState s) && d.slotVersion s == version && d.slotCrc s == crc

/-- ACT_PROPOSE (R595, R602, R605): the STANDBY-SYNC peer judges the proposal and answers. -/
def execActPropose (kind version crc a : Nat) (s : State) : Out :=
  s.run fun d =>
    if !d.twinProfile then d
    else
      let fw := kind == 2
      let i := 1 - d.rd 0xA000 0x15
      let found :=
        if fw then (if (d.fwImage i).present && (d.fwImage i).version == version then some i else none)
        else d.findSlot [2, 4] version crc
      match found with
      | none => d.control [10]
      | some t =>
        if d.unit ≠ 2 || d.actBusy kind t ≠ 0 then d.control [10]
        else
          let d := ((d.wr 0xA000 0x0B 1).wr 0xA000 0x0C a).wr 0xA000 0x0D kind
          let roll := !fw && d.slotState t == 4
          let d := d.modAct fun _ => { Activation.reset with
            pending := true, slot := t, fwTarget := fw, rollback := roll, peer := true, peerReady := true }
          d.control [9]

/-- ACT_READY (R594): the peer's answer ends the wait of condition 7. -/
def execActReady (s : State) : Out :=
  s.run fun d =>
    if d.boot.act.pending && d.boot.act.holder && d.boot.act.peer then
      (d.wr 0xA000 0x09 0).modAct fun a => { a with peerReady := true }
    else d

/-- ACT_REFUSE (R594, R598): condition 7 fails and the unit abandons. -/
def execActRefuse (s : State) : Out :=
  s.run fun d =>
    if d.boot.act.pending && d.boot.act.peer then
      let d := if d.boot.act.holder && !d.boot.act.peerReady then (d.wr 0xA000 0x09 3).wr 0xA000 0x0A 7 else d
      d.modAct fun a => { a with abandon := true }
    else d

/-- ACT_COMMITTED (R597): the peer has reached its commit point. -/
def execActCommitted (s : State) : Out :=
  s.run fun d => if d.boot.act.pending && d.boot.act.peer then d.modAct fun a => { a with peerDone := true } else d

/-- ACT_ABANDON (R598). -/
def execActAbandon (s : State) : Out :=
  s.run fun d => if d.boot.act.pending && d.boot.act.peer then d.modAct fun a => { a with abandon := true } else d

/-- SHADOW_LOAD (R581, R591, R595): from tick a - 256 on the new values are loaded over channels 1 and 5 into shadow storage and
boot validation is run on them. -/
def execShadowLoad (s : State) : Out :=
  s.run fun d =>
    let act := d.boot.act
    if !act.pending || act.abandon || d.rd 0xA000 0x0B ≠ 1 || d.tick + 256 < d.rd 0xA000 0x0C then d
    else
      let open_ := (d.chan 1).state == 2 && (d.chan 5).state == 2
      let ok := open_ &&
        (if act.fwTarget then (d.fwImage act.slot).present && (d.fwImage act.slot).flashOk
         else (d.slotVerdict act.slot true true).reason == 0)
      if ok then
        (d.wr 0xA000 0x0B 2).modAct fun x => { x with shadow := if x.fwTarget then [] else d.slotValues x.slot }
      else d.modAct fun x => { x with abandon := true }

/-- COMMIT_RECORD (R596, R602): from tick a - 128 on each unit writes its COMMIT record, a ROLLBACK record for a rollback, and
tells its peer. -/
def execCommitRecord (s : State) : Out :=
  s.run fun d =>
    let act := d.boot.act
    let a := d.rd 0xA000 0x0C
    if !act.pending || act.abandon || d.rd 0xA000 0x0B ≠ 2 || d.tick + 128 < a then d
    else
      let kind := d.rd 0xA000 0x0D
      let d := d.commit {
        seq := 0
        kind := if act.rollback then 4 else 1
        target := b2n act.fwTarget
        slot := act.slot
        flags := b2n act.peer + 2 * b2n (kind != 0)
        version := if act.fwTarget then (d.fwImage act.slot).version else d.slotVersion act.slot
        crc := if act.fwTarget then (d.fwImage act.slot).crc else d.slotCrc act.slot
        atick := a
        named := 0
        utc := 0 }
      let mine := (d.boot.commitSeq + 2 ^ 32 - 1) % 2 ^ 32
      let d := (d.wr 0xA000 0x0B 3).modAct fun x => { x with myCommit := some mine }
      if act.peer then d.control [11] else d

/-- COMMITTED_DEADLINE (R598): the T0 of tick a - 32 passes without the peer's ACT_COMMITTED. -/
def execCommittedDeadline (s : State) : Out :=
  s.run fun d =>
    if d.boot.act.pending && d.boot.act.peer && !d.boot.act.peerDone && d.tick + 32 ≥ d.rd 0xA000 0x0C then
      d.modAct fun a => { a with abandon := true }
    else d

/-- A unit that must abandon does so at a tick boundary (R598). -/
def Device.activationBoundary (d : Device) : Device :=
  let act := d.boot.act
  if act.pending && act.abandon then
    let d := match act.myCommit with
      | some q => d.commit ⟨0, 2, b2n act.fwTarget, act.slot, 0, 0, 0, d.rd 0xA000 0x0C, q, 0⟩
      | none => d
    let d := if d.twinProfile && act.peer then d.control [12] else d
    ((d.wr 0xA000 0x0B 4).bumpEvent 0xA000 0x0E 0x0F lvWarn []).modAct fun _ => Activation.reset
  else d

/-- CONFIG_ADOPTION (R599): a unit that is not ACTIVE activates the version its ACTIVE peer runs, alone. -/
def execConfigAdoption (s : State) : Out :=
  s.run fun d =>
    let h := d.peerBody
    let sts := if d.rd 0xA000 0x02 = 0xFF then [2, 3, 4] else [2, 4]
    match d.findSlot sts (field h 352 32) (field h 320 32) with
    | none => d
    | some t =>
      if d.twinProfile && !d.isActive && d.boot.mismatchTicks ≥ 1000 && d.rd 0x2020 0x09 = 3 && d.flag 0xA000 0x35
          && !d.boot.act.pending && d.boot.plState ≥ 5 then
        let kind := d.slotKind t
        let d := ((d.wr 0xA000 0x0B 1).wr 0xA000 0x0C (d.futureTick 1024 256)).wr 0xA000 0x0D kind
        d.modAct fun _ => { Activation.reset with
          pending := true, slot := t, rollback := d.slotState t == 4, adopt := true }
      else d

/-- The slot states after slot `t` switches in (Table 17.8), with the entries that show the active and the previous slot. -/
def Device.slotsSwitched (d : Device) (t : Nat) (rollback : Bool) : Device :=
  let old := (List.range 8).find? fun s => d.slotState s == 3
  let prev := (List.range 8).find? fun s => d.slotState s == 4
  let d :=
    if old == some t then d
    else
      let d := match prev with
        | some s => if s = t then d else d.setSlot s 2
        | none => d
      let d := match old with
        | some s => (d.setSlot s 4).wr 0xA000 0x05 s
        | none => d.wr 0xA000 0x05 0xFF
      d.setSlot t 3
  let d := ((d.wr 0xA000 0x02 t).wr 0xA000 0x03 (d.slotVersion t)).wr 0xA000 0x04 (d.slotCrc t)
  if !rollback && d.slotVersion t > d.rd 0xA000 0x06 then d.wr 0xA000 0x06 (d.slotVersion t) else d

/-! ### Automatic rollback (R603) -/

/-- The boot in progress is a trial boot that has not reached READY (R600, R601). -/
def Device.inTrial (d : Device) : Bool := d.boot.trial && !d.boot.readyDone

/-- The governing record of a target makes this boot a trial of it. -/
def Device.trialOf (d : Device) (target : Nat) : Bool :=
  match governing d.boot.commits target with
  | some g => recordTrial d.boot.commits g && !(target == 0 && d.rd 0xA000 0x02 == 0xFF)
  | none => false

/-- Roll the configuration back to the PREVIOUS slot, or to the baseline where there is none; the failed slot is REJECTED with
reason 12. -/
def Device.rollConfig (d : Device) : Device :=
  let prev := d.rd 0xA000 0x05
  let d := d.commit ⟨0, 4, 0, prev, 0, d.slotVersion prev, d.slotCrc prev, 0, 0, 0⟩
  let d := match (List.range 8).find? fun s => d.slotState s == 3 with
    | some t => (((d.setSlot t 5).wr 0xA000 0x30 12).wr 0xA000 0x31 0).wr 0xA000 0x32 t
    | none => d
  (d.setSlot prev 3).wr 0xA000 0x05 0xFF

/-- Roll the firmware back to the other image. -/
def Device.rollFirmware (d : Device) : Device :=
  let i := 1 - d.rd 0xA000 0x15
  d.commit ⟨0, 4, 1, i, 0, (d.fwImage i).version, (d.fwImage i).crc, 0, 0, 0⟩

/-- A trial boot is abandoned: the ROLLBACK record is written, the event recorded, and the plant half resets itself (assumption log 80). -/
def Device.automaticRollback (d : Device) : Device :=
  let d := if d.trialOf 0 then d.rollConfig else d
  let d := if d.trialOf 1 then d.rollFirmware else d
  ((d.bumpEvent 0xA000 0x10 0x11 lvWarn []).flushEvents).plantReset

end Sys2Proof.Machine
end

