-- ==== Sys2Proof/Machine/Fixed.lean ====
section
/-! DEFINITION. The arithmetic of the control engine (R116): 32-bit words of 24 fraction bits, rounded to nearest with ties away
from zero and saturated, each value carrying whether anything it came from was saturated; angles of one turn = 2^32.
Choices of the model: assumption log 33. -/
namespace Sys2Proof.Machine

/-- A per-unit value of the engine and whether a saturation went into it. -/
structure Fx where
  v : Int
  s : Bool
  deriving DecidableEq, Repr

/-- One per unit. -/
def fxOne : Int := 2 ^ 24

/-- Saturate an integer to the per-unit format. -/
def fxSat (i : Int) : Fx := ⟨satInt 32 i, decide (satInt 32 i ≠ i)⟩

/-- A stored word. -/
def fxRaw (i : Int) : Fx := ⟨i, false⟩

/-- A rational in the per-unit format. -/
def fxOf (x : Rat) : Fx := fxSat (ratRound (x * (2 ^ 24 : Nat)))

/-- A rational rounded and saturated to the per-unit format, as a word. -/
def q24 (x : Rat) : Int := (fxOf x).v

/-- The value of a per-unit word. -/
def q24Val (i : Int) : Rat := (i : Rat) / (2 ^ 24 : Nat)

/-- Join the saturation marks of the operands to a result. -/
def Fx.mark (r a b : Fx) : Fx := ⟨r.v, r.s || a.s || b.s⟩

/-- Quotient of integers, ties away from zero; 0 for a divisor of 0, which no caller gives. -/
def quot (n d : Int) : Int :=
  if d = 0 then 0 else if d > 0 then divRound n d.toNat else divRound (-n) (-d).toNat

/-- Sum. -/
def Fx.add (a b : Fx) : Fx := (fxSat (a.v + b.v)).mark a b

/-- Difference. -/
def Fx.sub (a b : Fx) : Fx := (fxSat (a.v - b.v)).mark a b

/-- Product of two per-unit values. -/
def Fx.mul (a b : Fx) : Fx := (fxSat (divRound (a.v * b.v) (2 ^ 24))).mark a b

/-- Quotient of two per-unit values. -/
def Fx.div (a b : Fx) : Fx := (fxSat (quot (a.v * 2 ^ 24) b.v)).mark a b

/-- Product with a factor of `f` fraction bits. -/
def Fx.scale (a : Fx) (k : Int) (f : Nat) : Fx := (fxSat (divRound (a.v * k) (2 ^ f))).mark a a

/-- Half of a value. -/
def Fx.half (a : Fx) : Fx := (fxSat (divRound a.v 2)).mark a a

/-- Clamp to a pair of words. -/
def Fx.clamp (a : Fx) (lo hi : Int) : Fx := ⟨min (max a.v lo) hi, a.s⟩

/-- The factor Ki × P of a per-tick integral coefficient: 32 fraction bits, 0 to 2^32 - 1. -/
def perTick (ki : Rat) (us : Nat) : Int := min (max (ratRound (ki * us / 1000000 * (2 ^ 32 : Nat))) 0) (2 ^ 32 - 1)

/-- An angle in degrees as a word of one turn = 2^32. -/
def degAngle (x : Rat) : Nat := ofInt 32 (ratRound (x * (2 ^ 32 : Nat) / 360))

/-- An angle word in degrees. -/
def angleDeg (a : Nat) : Rat := (a : Rat) * 360 / (2 ^ 32 : Nat)

/-- Angle addition modulo a turn. -/
def angAdd (a b : Nat) : Nat := (a + b) % 2 ^ 32

/-- Angle negation. -/
def angNeg (a : Nat) : Nat := (2 ^ 32 - a % 2 ^ 32) % 2 ^ 32

/-- The engine's sine table, 15 fraction bits (R117) (assumption log 32). -/
def engSin (a : Nat) : Int := satInt 16 (Config.sineTable (a % 2 ^ 32))

/-- The engine's cosine: the sine a quarter turn on. -/
def engCos (a : Nat) : Int := engSin (angAdd a (2 ^ 30))

/-- `d` × cos θ - `q` × sin θ. -/
def rotate (d q : Fx) (a : Nat) : Fx := (d.scale (engCos a) 15).sub (q.scale (engSin a) 15)

/-- The phase offset of phase x (R121). -/
def phaseOffset (x : Nat) : Nat := [0, 0x55555555, 0xAAAAAAAB].getD x 0

end Sys2Proof.Machine
end

