-- ==== Sys2Proof/Machine/Measure.lean ====
section
/-! DEFINITION. The measurement front end (spec/03_measurement.md): conversions and gain switching, the value that lands for the
window that ended at a T0, window comparators, the reference buffer and the overlap check.
Choices of the model: assumption log 30. -/
namespace Sys2Proof.Machine

/-- A converter channel. -/
def Device.conv (d : Device) (ch : Nat) : Conv := d.front.chans.getD ch Conv.reset

/-- Change a converter channel. -/
def Device.modConv (d : Device) (ch : Nat) (f : Conv → Conv) : Device :=
  { d with front := { d.front with chans := d.front.chans.set ch (f (d.conv ch)) } }

/-- A metering-class channel (Table 3.1). -/
def isMetering (ch : Nat) : Bool := ch < 12

/-- A conversion in ×1 codes (R90). -/
def Device.calibrate (d : Device) (ch : Nat) (x : Sample) : Rat :=
  let i := chIdx ch
  if x.hi then ((x.raw - d.rdI i 0x43 : Int) : Rat) * d.rdF i 0x44 * d.rdF i 0x45 / 16
  else ((x.raw - d.rdI i 0x41 : Int) : Rat) * d.rdF i 0x42

/-- A conversion at or beyond full scale (R81). -/
def isClipped (raw : Int) : Bool := raw ≤ -131072 || raw ≥ 131071

/-- The time a conversion stands for in the hold time of R100, in ns. -/
def Device.convNs (d : Device) (ch : Nat) : Nat :=
  if d.rd (chIdx ch) 1 = 2 then d.period * 1000 / max 1 (d.rd (chIdx ch) 3) else 500

/-- The gain after a conversion: the code of 0x5601 + ch .16 and whether it switched (R99, R100). -/
def nextGain (hi clip : Bool) (mag : Rat) (below hold : Nat) : Bool :=
  if hi then !(clip || decide (mag > 7680)) else decide (below ≥ hold)

/-- The overlap check takes a conversion of its channel: gains alternate in blocks of 256, ×1 first, the first conversion of a
block settles (R109). -/
def Overlap.take (o : Overlap) (x : Sample) (mag : Rat) : Overlap :=
  let o := { o with n := o.n + 1, clip := o.clip || x.clip }
  if x.drop then o
  else if x.hi then { o with sum16 := o.sum16 + mag, n16 := o.n16 + 1 } else { o with sum1 := o.sum1 + mag, n1 := o.n1 + 1 }

/-- The gain of the conversion after `n` conversions of an overlap check. -/
def overlapGain (n : Nat) : Bool := n / 256 % 2 = 1

/-- The overlap check that runs on a channel and still takes conversions. -/
def Device.overlapOf (d : Device) (ch : Nat) : Option Overlap := d.front.overlaps.find? fun o => o.ch == ch && decide (o.n < 4096)

/-- Put an overlap check in the place of the channel's last one. -/
def Device.putOverlap (d : Device) (o : Overlap) : Device :=
  { d with front := { d.front with overlaps := d.front.overlaps.filter (·.ch != o.ch) ++ [o] } }

/-- A conversion of channel `ch` completes with code `raw` (R81 to R83, R90, R98 to R104). The model's choices (assumption log 90): a
settling conversion that is clipped at ×1 is discarded under R101 and neither sets CLIP nor counts under R103; the gain changes that an
overlap check forces discard a conversion and so set GSW and SUBST, but are no switches and do not count in .17. -/
def Device.convert (d : Device) (ch : Nat) (raw : Int) : Device :=
  let i := chIdx ch
  if d.rd i 1 = 0 then d
  else
    let c := d.conv ch
    let ovl := d.overlapOf ch
    let auto := isMetering ch && (d.rd i 0x46 = 0 || ovl.isSome)
    let forced := isMetering ch && d.rd i 0x46 != 0 && ovl.isNone
    let hi := if forced then d.rd i 0x46 == 2 else d.rd i 0x16 == 1
    let clip := isClipped raw
    let drop := auto && (c.settle || (hi && clip))
    let x : Sample := ⟨raw, hi, clip, drop, auto && c.settle⟩
    let mag := ratAbs (d.calibrate ch x)
    let d := (d.wrI i 0x40 raw).wrB i 0x16 hi
    let d := if clip && !drop then d.bump i 0x14 0x15 else d
    let below := if !forced && !hi && mag < 6144 then c.belowNs + d.convNs ch else 0
    let c := { c with window := c.window ++ [x], settle := false, belowNs := below }
    match ovl with
    | some o =>
      let o := o.take x mag
      let g := if o.n < 4096 then overlapGain o.n else hi
      let d := d.modConv ch fun _ => { c with settle := g != hi, belowNs := 0 }
      (d.putOverlap o).wrB i 0x16 g
    | none =>
      let g := if auto then nextGain hi clip mag below (d.rd i 0x47 * 1000000) else hi
      if g = hi then d.modConv ch fun _ => c
      else ((d.modConv ch fun _ => { c with settle := true, belowNs := 0 }).bump i 0x17 0x18).wrB i 0x16 g

/-- CONVERSION_COMPLETE (R81, R90): channel `ch` completes a conversion with code `raw`. -/
def execConversionComplete (ch : Nat) (raw : Int) (s : State) : Out :=
  s.run fun d => if d.boot.plantHeld || ch ≥ 32 then d else d.convert ch (satInt 18 raw)

/-! ### The value of a window -/

/-- The first kept conversion of a list. -/
def firstKept : List Sample → Option Sample
  | [] => none
  | x :: r => if x.drop then firstKept r else some x

/-- The length of the run of discarded conversions that begins a list. -/
def runLength : List Sample → Nat
  | [] => 0
  | x :: r => if x.drop then runLength r + 1 else 0

/-- The calibrated conversions of a window with every run of discarded ones replaced (R101, R102): `prev` is the last kept value
before, `k` how many of the present run have been replaced, `m` that run's length. A run with no kept conversion before it, of which
the spec says nothing, takes the first kept one after it, or its own calibrated values where there is none (assumption log 90). -/
def substituted (cal : Sample → Rat) : Option Rat → Nat → Nat → List Sample → List Rat
  | _, _, _, [] => []
  | prev, k, m, x :: r =>
    if x.drop then
      let m := if k = 0 then runLength (x :: r) else m
      let next := (firstKept r).map cal
      let v := match prev, next with
        | some a, some b => a + (b - a) * ((k + 1 : Nat) : Rat) / ((m + 1 : Nat) : Rat)
        | some a, none => a
        | none, some b => b
        | none, none => cal x
      v :: substituted cal prev (k + 1) m r
    else cal x :: substituted cal (some (cal x)) 0 0 r

/-- The calibrated conversions of the window in progress, after substitution; a run that began in the window before keeps its
place (R101). -/
def Device.windowValues (d : Device) (ch : Nat) : List Rat :=
  let c := d.conv ch
  substituted (d.calibrate ch) (c.prev.map (d.calibrate ch)) c.tail (c.tail + runLength c.window) c.window

/-- Consumers whose taking counts: core pair 3 does not while it is halted, in the plant safe state or by the debugger (R95). -/
def Device.consumers (d : Device) (ch : Nat) : Nat :=
  let m := d.rd (chIdx ch) 4
  if d.boot.pairsHalted || bit (d.rd 0x9010 0x43) 3 then m % 4 else m

/-- How many discarded conversions end a window, those before it counted where it keeps none. -/
def Conv.tailRun (c : Conv) : Nat :=
  let n := runLength c.window.reverse
  if n = c.window.length then c.tail + n else n

/-- The value of the window that ended at the present T0 lands (R91 to R95); `us` is the period in force, `burst` the burst length of a
channel in the window that ended (R86). -/
def Device.landOne (us : Nat) (burst : Nat → Nat) (d : Device) (ch : Nat) : Device :=
  let i := chIdx ch
  let c := d.conv ch
  let xs := c.window
  let vals := d.windowValues ch
  let n := xs.length
  let on := d.rd i 1 != 0
  let valid := on && d.front.refOk && c.whole && n != 0 && (d.rd i 1 != 2 || n == burst ch)
  let mean := if n = 0 then 0 else vals.foldl (· + ·) 0 / (n : Rat)
  let value := satInt 26 (ratRound (mean * 256))
  let clip := xs.any fun x => x.clip && !x.drop
  let irreg := on && d.rd i 1 != 2 && n != 2 * us
  let missed := on && Nat.land (d.consumers ch) (7 - c.taken % 8) != 0
  let word := ofInt 26 value + 2 ^ 26 * b2n missed + 2 ^ 27 * b2n (xs.any (·.drop)) + 2 ^ 28 * b2n (xs.any (·.first))
    + 2 ^ 29 * b2n irreg + 2 ^ 30 * b2n clip + 2 ^ 31 * b2n valid
  let d := (d.wr i 9 word).wrF i 8 (d.rdF i 5 * (value : Rat) / 256 + d.rdF i 6)
  let d := if missed then d.bump i 0x12 0x13 else d
  let d := (d.wrBit 0x5600 3 ch valid).wrBit 0x5600 4 ch missed
  let kept := (xs.filter fun x => !x.drop).getLast?
  d.modConv ch fun c => { c with window := [], whole := true, taken := 0, prev := kept.or c.prev, tail := c.tailRun }

/-- The entry of a measurement channel's mode. -/
def modeKey (key : Nat) : Bool := decide (0x5601 ≤ key / 256) && decide (key / 256 ≤ 0x5620) && key % 256 == 1

/-- In the first window after a channel changes its mode it has not converted throughout (R86). -/
def Device.breakWindow (d : Device) (key : Nat) : Device :=
  if modeKey key then d.modConv (key / 256 - 0x5601) fun c => { c with whole := false } else d

/-- Every channel's value lands (assumption log 31); `burst` gives the burst lengths of the window that ended. -/
def Device.land (d : Device) (burst : Nat → Nat) : Device :=
  let change := d.rd 0x2010 4
  let us := if change ≠ 0 && d.tick ≥ change then periodOf (d.rd 0x2010 3) else d.period
  let d := (List.range 32).foldl (Device.landOne us burst) d
  { d with front := { d.front with refOk := d.rd 0x5600 1 == 2 } }

/-- The TICK record of the present tick, where a STANDBY-SYNC unit, or one that replays in RESYNC, holds it (R425, R443). -/
def Device.forwarded? (d : Device) : Option TickRec :=
  if d.twinProfile && (d.unit = 2 || (d.unit = 1 && d.twin.loaded)) then
    match d.twin.tickRec with
    | some r => if r.tick = d.tick then some r else none
    | none => none
  else none

/-- The result register that consumers of bits 0 and 2 read: the forwarded one in STANDBY-SYNC (R97, R426), the unit's own while
it bridges (R435). -/
def Device.result (d : Device) (ch : Nat) : Nat :=
  match d.forwarded? with
  | some r => r.snap.getD ch 0
  | none => d.rd (chIdx ch) 9

/-- The value of a result register holds (R94). -/
def resultValid (w : Nat) : Bool := bit w 31

/-- The value in engineering units (R108); what an entry that names no channel then measures is not stated (assumption log 40). -/
def Device.units (d : Device) (ch : Nat) : Rat :=
  if ch ≥ 32 then Config.unboundValue (d.tick * 256 + ch)
  else d.rdF (chIdx ch) 5 * (toInt 26 (d.result ch) : Rat) / 256 + d.rdF (chIdx ch) 6

/-- A consumer takes the values of every channel. -/
def Device.takeAll (d : Device) (mask : Nat) : Device :=
  { d with front := { d.front with chans := d.front.chans.map fun c => { c with taken := Nat.lor c.taken mask } } }

/-! ### Window comparators (R106) -/

/-- Enter a state of the comparator with an exit event. -/
def Device.windowExit (d : Device) (ch st : Nat) : Device :=
  let d := ((d.wr (chIdx ch) 0x0F st).bumpEvent (chIdx ch) 0x10 0x11 lvWarn []).wrBit 0x5600 5 ch true
  if bit (d.rd 0xB000 6) ch then d.noteTrigger 10 else d

/-- One channel's comparator at a T0. -/
def windowStep (d : Device) (ch : Nat) : Device :=
  let i := chIdx ch
  let st := d.rd i 0x0F
  let clear := fun (d : Device) => d.modConv ch fun c => { c with nLow := 0, nHigh := 0, nIn := 0 }
  if d.rd i 0x0E = 0 then
    if st = 3 then d else (clear ((d.wr i 0x0F 3).wrBit 0x5600 5 ch false))
  else
    let d := if st = 3 then clear (d.wr i 0x0F 0) else d
    let st := if st = 3 then 0 else st
    if !bit (d.rd i 9) 31 then d
    else
      let v := d.rdF i 8
      let low := d.rdF i 0x0A
      let high := d.rdF i 0x0B
      let hyst := d.rdF i 0x0C
      let n := d.rd i 0x0D
      let c := d.conv ch
      let up := fun (b : Bool) (k : Nat) => if b then min n (k + 1) else 0
      let c := { c with
        nLow := up (decide (v < low)) c.nLow
        nHigh := up (decide (v > high)) c.nHigh
        nIn := up (decide (low + hyst ≤ v) && decide (v ≤ high - hyst)) c.nIn }
      let d := d.modConv ch fun _ => c
      if (st = 0 || st = 2) && c.nLow ≥ n then clear (d.windowExit ch 1)
      else if (st = 0 || st = 1) && c.nHigh ≥ n then clear (d.windowExit ch 2)
      else if (st = 1 || st = 2) && c.nIn ≥ n then clear ((d.wr i 0x0F 0).wrBit 0x5600 5 ch false)
      else d

/-- Every comparator at a T0. -/
def Device.windowComparators (d : Device) : Device := (List.range 32).foldl windowStep d

/-! ### The reference buffer (R87 to R89) -/

/-- No value of the window in progress is valid. -/
def Device.refBreak (d : Device) : Device := { d with front := { d.front with refOk := false } }

/-- Enter WARMING with 20 ms to run. -/
def Device.refWarm (d : Device) : Device :=
  let d := ((d.wr 0x5600 1 1).wr 0x5600 2 20).refBreak
  { d with front := { d.front with warmPs := 0 } }

/-- The warm-up of the reference buffer, 16,000,000 ENG cycles, in ps (R87). -/
def warmUpPs : Nat := 20000000000

/-- A tick of `ps` has passed in WARMING: the time left is shown in whole ms, rounded up (R87, R111). -/
def Device.warmTick (d : Device) (ps : Nat) : Device :=
  if d.rd 0x5600 1 ≠ 1 then d
  else
    let t := d.front.warmPs + ps
    { d with front := { d.front with warmPs := t } }.wr 0x5600 2 ((warmUpPs - t + 999999999) / 1000000000)

/-- Enter FAULT, counted, with an event. -/
def Device.refFault (d : Device) : Device :=
  ((d.wr 0x5600 1 3).wr 0x5600 2 0).refBreak.bumpEvent 0x5600 6 7 lvWarn []

/-- The monitor's reading, a binary32 pattern in %, lies within ±0.25 %. -/
def refWithin (dev : Nat) : Bool := decide (ratAbs (f32Val dev) ≤ 1 / 4)

/-- REFERENCE_WARMUP_EXPIRY (R87): 20 ms after the enable, with the monitor reading `dev` (assumption log 8). -/
def execReferenceWarmupExpiry (dev : Nat) (s : State) : Out :=
  s.run fun d =>
    if d.rd 0x5600 1 ≠ 1 || d.front.warmPs < warmUpPs then d
    else
      let d := d.wr 0x5600 0x42 dev
      if refWithin dev then (d.wr 0x5600 1 2).wr 0x5600 2 0 else d.refFault

/-- REFERENCE_MONITOR_FAULT (R87): the monitor has been outside ±0.25 % for 8 conversion periods. -/
def execReferenceMonitorFault (dev : Nat) (s : State) : Out :=
  s.run fun d => if d.rd 0x5600 1 = 2 && !refWithin dev then (d.wr 0x5600 0x42 dev).refFault else d

/-- REFERENCE_MONITOR_RECOVERY (R87): the monitor has been within ±0.25 % for 8 conversion periods. -/
def execReferenceMonitorRecovery (dev : Nat) (s : State) : Out :=
  s.run fun d => if d.rd 0x5600 1 = 3 && refWithin dev then (d.wr 0x5600 0x42 dev).refWarm else d

/-- The buffer off: no value is valid. -/
def Device.refOff (d : Device) : Device :=
  let d := ((d.wr 0x5600 1 0).wr 0x5600 2 0).refBreak
  let d := (List.range 32).foldl (fun d ch => d.wrBit (chIdx ch) 9 31 false) d
  d.wr 0x5600 3 0

/-- BUFFER_ENABLE_WRITE (R88, R89): a write of `v` to 0x5600.41. -/
def execBufferEnableWrite (v : Nat) (s : State) : Out :=
  s.run fun d => d.sdo 0x5600 0x41 1 v fun d =>
    if d.rd 0x5600 0x40 = 1 then d
    else
      let d := d.accept 0x5600 0x41 v
      if v = 1 then (if d.rd 0x5600 1 = 0 then d.refWarm else d)
      else if d.rd 0x5600 1 = 0 then d else d.refOff

/-! ### The overlap check (R109, R110) -/

/-- OVERLAP_CHECK (R109): a write of 0x01 to 0x5601 + ch .49. -/
def execOverlapCheck (ch : Nat) (s : State) : Out :=
  s.run fun d => d.sdo (chIdx ch) 0x49 1 1 fun d =>
    let d := d.noteParam (odKey (chIdx ch) 0x49)
    let was := d.rd (chIdx ch) 0x16
    let d := (d.wr (chIdx ch) 0x16 0).modConv ch fun c => { c with settle := was != 0 }
    d.putOverlap ⟨ch, 0, 0, 0, 0, 0, false⟩

/-- An overlap check ends: the range match is corrected or the failure recorded (R109, R110). With a mean of 0 at ×1 the deviation
shown is a free value (assumption log 30). -/
def Device.overlapEnds (d : Device) (o : Overlap) : Device :=
  let i := chIdx o.ch
  let m1 := if o.n1 = 0 then 0 else o.sum1 / (o.n1 : Rat)
  let m16 := if o.n16 = 0 then 0 else o.sum16 / (o.n16 : Rat)
  let within := fun (m : Rat) => decide (2048 ≤ m) && decide (m ≤ 7680)
  let dev := (m16 - m1) / m1 * 100
  let d := if m1 = 0 then { d.wr i 0x48 (Config.freeWord d.free % 2 ^ 32) with free := d.free + 1 } else d.wrF i 0x48 dev
  if within m1 && within m16 && !o.clip && decide (ratAbs dev ≤ 1 / 5) then
    let match_ := ratClamp (998 / 1000) (1002 / 1000) (d.rdF i 0x45 * m1 / m16)
    (((d.wrF i 0x45 match_).noteParam (odKey i 0x45)).showLockCrc).event i 0x48 lvInfo []
  else d.event i 0x48 lvWarn []

/-- OVERLAP_CHECK_COMPLETE (R109, R110): every check that has taken its 4,096 conversions ends. -/
def execOverlapCheckComplete (s : State) : Out :=
  s.run fun d =>
    let due := fun (o : Overlap) => decide (4096 ≤ o.n)
    let done := d.front.overlaps.filter due
    let d : Device := { d with front := { d.front with overlaps := d.front.overlaps.filter fun o => !due o } }
    done.foldl Device.overlapEnds d

/-! ### Derived consumers (R95) -/

/-- The consumers of each channel at configuration activation. -/
def Device.deriveConsumers (d : Device) : Device :=
  (List.range 32).foldl (fun d ch =>
    let engine := (List.range 12).any fun a => d.armPresent a && d.rd (armIdx 0x4010 a) 1 == ch
    let meter := (isMetering ch && d.rd (chIdx ch) 1 != 0) || (d.meterChannels 0 ++ d.meterChannels 1).contains ch
    let tier := (d.poleChannels 0 ++ d.poleChannels 1).contains ch
    d.wr (chIdx ch) 4 (b2n engine + 2 * b2n meter + 4 * b2n tier)) d

end Sys2Proof.Machine
end

