-- ==== Sys2Proof/Machine/Engine.lean ====
section
/-! DEFINITION. The control engine (spec/04_current_engine.md): one tick of the energy loop, the current order, the current loop and
the insertion count of every arm, the gain and compensation tables, and what is written when an arm completes its tick.
Choices of the model: assumption log 33. -/
namespace Sys2Proof.Machine

/-! ### Arms, cells and lanes of the device -/

/-- The arm state, Table 7.4: 0 ABSENT, 1 BLOCKED, 2 ENERGISING, 3 DEBLOCKED. -/
def Device.armState (d : Device) (a : Nat) : Nat := d.rd (armIdx 0x4000 a) 1

/-- ENERGISING or DEBLOCKED. -/
def Device.armLive (d : Device) (a : Nat) : Bool := d.armState a == 2 || d.armState a == 3

/-- The present arms, ascending. -/
def Device.presentArms (d : Device) : List Nat := (List.range 12).filter d.armPresent

/-- A lane's working state. -/
def Device.lane (d : Device) (l : Nat) : Lane := d.lanes.getD l Lane.reset

/-- Change a lane's working state. -/
def Device.modLane (d : Device) (l : Nat) (f : Lane → Lane) : Device := { d with lanes := d.lanes.set l (f (d.lane l)) }

/-- The report in use of a global cell (R50, Table 10.4). -/
def Device.report (d : Device) (g : Nat) : Nat := (d.lane (g / 256)).reports.getD (g % 256) 0

/-- The voltage code of a report, 0.125 V per code. -/
def reportVolt (r : Nat) : Nat := field r 48 16

/-- The exclusion map that acts in this tick (R235). -/
def Device.exclMap (d : Device) (a : Nat) : Nat := d.rd (armIdx 0x4002 a) 1

/-- Cell `c` of arm `a` is available: neither bypassed nor excluded (R30, R119). -/
def Device.available (d : Device) (a c : Nat) (cell : Cell) : Bool := cell.byp == 0 && !bit (d.exclMap a) c

/-- The voltage codes of the available cells of an arm. -/
def Device.availVolts (d : Device) (a : Nat) : List Nat :=
  ((numbered 0 (d.arm a).cells).filter fun x => d.available a x.1 x.2).map fun x => reportVolt (d.report (d.cellAt a x.1))

/-- The reference block of a pole in force. -/
def Device.ref (d : Device) (p : Nat) : RefBlock := d.refs.getD p RefBlock.reset

/-! ### Tables -/

/-- A gain-table point, 12 fraction bits (R138). -/
def gainPoint (pts k : Nat) : Int := (field pts (16 * k) 16 : Nat)

/-- G(e) (R139): interpolated between points at a position of 16 fraction bits, held at the ends. -/
def gainAt (mode : Nat) (span : Int) (pts : Nat) (e : Fx) : Fx :=
  let mag : Fx := if e.v < 0 then (fxSat (-e.v)).mark e e else e
  let moved := if mode = 0 then mag else e.add (fxRaw span)
  let pos := quot (moved.v * (if mode = 0 then 64 else 32) * 65536) span
  let pos := min (max pos 0) (64 * 65536)
  let k := pos.toNat / 65536
  let f := pos.toNat % 65536
  let g := if k ≥ 64 then gainPoint pts 64
    else gainPoint pts k + divRound ((gainPoint pts (k + 1) - gainPoint pts k) * f) 65536
  ⟨g, moved.s⟩

/-- Kp × G(e) × e with the gain table at `idx`, or Kp × e with the table out of use. -/
def Device.shaped (d : Device) (idx : Nat) (use : Bool) (kp e : Fx) : Fx :=
  if use then
    let g := gainAt (d.rd idx 1) (q24 (d.rdF idx 2)) (d.rd idx 3) e
    (((kp.scale g.v 12).mark kp g).mul e)
  else kp.mul e

/-- An entry of a compensation table, 15 fraction bits (R141). -/
def compEntry (tab j : Nat) : Int := toInt 16 (field tab (16 * (j % 1024)) 16)

/-- The output of compensation table object `idx` for the angles of output and measurement (R141). -/
def Device.compOut (d : Device) (idx thOut thMeas : Nat) : Fx :=
  let th := if d.rd idx 2 = 0 then thOut else thMeas
  let al := angAdd (d.rd idx 3 * th) (degAngle (d.rdF idx 4))
  let tab := d.rd idx 0x0B
  let j := field al 22 10
  let f : Int := (field al 6 16 : Nat)
  let t := compEntry tab j + divRound ((compEntry tab (j + 1) - compEntry tab j) * f) 65536
  (fxOf (d.rdF idx 5)).scale t 15

/-- The sum of an arm's tables of target `tgt` that contribute (R142, R143). -/
def Device.compSum (d : Device) (a tgt thOut thMeas : Nat) : Fx :=
  (List.range 8).foldl (fun acc t =>
    let idx := armIdx 0x4020 a + t
    if d.rd idx 1 ≠ 0 && d.rd idx 2 = tgt then acc.add (d.compOut idx thOut thMeas) else acc) (fxRaw 0)

/-! ### One leg -/

/-- The angles of a phase in the present tick: θ_x⁺ at measurement and at output for each arm's lead (R121, R122). -/
def Device.poleAngle (d : Device) (p : Nat) : Nat :=
  let b := d.ref p
  ofInt 32 (b.thetaB + ((d.tick : Int) - b.nB) * b.dTheta)

/-- θ(meas) of a phase. -/
def Device.angMeas (d : Device) (p x : Nat) : Nat :=
  let b := d.ref p
  angAdd (angAdd (d.poleAngle p) (angNeg (phaseOffset x))) (angNeg ((b.dTheta + 1) / 2))

/-- θ(out) of a phase with output lead `lead`. -/
def Device.angOut (d : Device) (p x lead : Nat) : Nat :=
  let b := d.ref p
  angAdd (angAdd (d.poleAngle p) (angNeg (phaseOffset x))) ((2 * lead * b.dTheta + 256) / 512)

/-- The energy side of one arm (R119, R123, R124). -/
structure Energy where
  nav   : Nat
  vsum  : Fx
  w     : Fx
  wref  : Fx
  ew    : Fx
  praw  : Fx
  p     : Fx
  deriving DecidableEq, Repr

/-- V_sum and w of the available cells: every quotient and every square rounded to the per-unit format, the sum under w not saturated,
since it is none of the quantities of Table 4.1 (R116, R119) (assumption log 33). -/
def Device.energy (d : Device) (a : Nat) : Energy :=
  let i := armIdx 0x4010 a
  let e := armIdx 0x4011 a
  let vs := d.availVolts a
  let n := vs.length
  let vb := d.rdF i 3
  let vcn := d.rdF i 4
  let per := fun (base : Rat) (v : Nat) => if base = 0 then fxRaw 0 else fxOf ((v : Rat) / 8 / base)
  let vsum := (vs.map (per vb)).foldl Fx.add (fxRaw 0)
  let sq := vs.map fun v => (per vcn v).mul (per vcn v)
  let sum := (sq.map (·.v)).foldl (· + ·) 0
  let mean := fxSat (quot sum n)
  let w : Fx := ⟨mean.v, mean.s || sq.any (·.s)⟩
  let b := d.ref (poleOf a)
  let r := (fxRaw b.r).clamp (q24 (9 / 10)) (q24 (11 / 10))
  let wref := (r.mul r).add (fxRaw (b.dw.getD (a % 6) 0))
  let ew := wref.sub w
  let on := d.rd e 1 = 1
  let lim := if d.armState a = 2 || d.poleState (poleOf a) = 2 then 0 else q24 (d.rdF e 4)
  let praw := if on then (d.shaped (armIdx 0x4013 a) (d.flag e 6) (fxOf (d.rdF e 2)) ew).add (fxRaw (d.arm a).xw) else fxRaw 0
  ⟨n, vsum, w, wref, ew, praw, praw.clamp (-lim) lim⟩

/-- x_w after the tick (R124, R134, R136, R207); `clamped`: a current order of the leg was clamped. -/
def Device.nextXw (d : Device) (a : Nat) (g : Energy) (clamped : Bool) : Fx :=
  let e := armIdx 0x4011 a
  let lim := q24 (d.rdF e 4)
  let top := q24 (d.rdF e 5)
  let x := (d.arm a).xw
  if d.rd e 1 = 0 || d.armState a ≠ 3 then fxRaw 0
  else if clamped || (g.praw.v > lim && g.ew.v > 0) || (g.praw.v < -lim && g.ew.v < 0) then (fxRaw x).clamp (-top) top
  else ((fxRaw x).add (g.ew.scale (perTick (d.rdF e 3) d.period) 32)).clamp (-top) top

/-- The measured arm current in per unit (R118), rounded once. -/
def Device.armCurrent (d : Device) (a : Nat) : Fx :=
  let i := armIdx 0x4010 a
  let ib := d.rdF i 2
  if ib = 0 then fxRaw 0 else fxOf (d.units (d.rd i 1) / ib)

/-- A of the leg of upper arm `a` is held at 0: an arm of it is blocked and the other not deblocked (R136). -/
def Device.ampHeld (d : Device) (a : Nat) : Bool :=
  let u := d.armState a
  let l := d.armState (a + 3)
  (u < 2 && l != 3) || (l < 2 && u != 3)

/-- A of a leg in force (R127, R136). -/
def Device.ampNow (d : Device) (a : Nat) : Int := if d.ampHeld a then 0 else (d.arm a).amp

/-- A of a leg after the tick (R127, R136). -/
def Device.nextAmp (d : Device) (a : Nat) : Int :=
  let h := armIdx 0x4014 a
  let x := (d.arm a).amp
  if d.ampHeld a then 0
  else
    let t := if d.flag h 1 then ((fxOf (d.rdF h 2)).add (fxRaw (d.ref (poleOf a)).dA2)).clamp 0 (q24 (d.rdF h 3)) else fxRaw 0
    let step := q24 (d.rdF h 5 * (d.period : Rat) / 1000)
    x + min (max (t.v - x) (-step)) step

/-- φ of a leg after the tick: along the shorter arc, an exact half turn upward (R127). -/
def Device.nextPhi (d : Device) (a : Nat) : Nat :=
  let h := armIdx 0x4014 a
  let x := (d.arm a).phi
  let t := angAdd (degAngle (d.rdF h 4)) (d.ref (poleOf a)).dPhi2
  let step := (ratRound (d.rdF h 6 * (d.period : Rat) / 1000 * (2 ^ 32 : Nat) / 360)).toNat
  let up := angAdd t (angNeg x)
  if up ≤ 2 ^ 31 then angAdd x (min up step) else angAdd x (angNeg (min (2 ^ 32 - up) step))

/-- What the two arms of a leg share (R125 to R127). -/
structure LegTerms where
  iv  : Fx
  iz  : Fx
  thM : Nat
  deriving DecidableEq, Repr

/-- The terms of the leg of upper arm `a`, with the words of the arms' demands: a saturation in an arm's own chain is that arm's alone,
one in these terms both arms' (R116). -/
def Device.legTerms (d : Device) (a : Nat) (wu wl : Int) : LegTerms :=
  let pu := fxRaw wu
  let pl := fxRaw wl
  let p := poleOf a
  let x := a % 6
  let b := d.ref p
  let thM := d.angMeas p x
  let e := armIdx 0x4011 a
  let floorD := q24 (d.rdF e 0x41)
  let floorA := fxOf (d.rdF e 0x40)
  let two := fun (y : Fx) => y.add y
  let d0 := two (fxRaw b.vdcs)
  let least := (two (fxRaw floorD)).v
  let dd : Fx := if d0.v.natAbs < least.natAbs then ⟨if d0.v < 0 then -least else least, d0.s⟩ else d0
  let vx := rotate (fxRaw b.vdp) (fxRaw b.vqp) thM
  let s0 := ((fxRaw b.vdp).mul (fxRaw b.vdp)).add ((fxRaw b.vqp).mul (fxRaw b.vqp))
  let sf := floorA.mul floorA
  let ss : Fx := if s0.v < sf.v then ⟨sf.v, s0.s || sf.s⟩ else s0
  let iw := ((pu.add pl).div dd).add (((pl.sub pu).mul vx).div ss)
  let i2 := (fxRaw (d.ampNow a)).scale (engCos (angAdd (2 * thM) (d.arm a).phi)) 15
  let iz := ((fxRaw (b.iz0.getD x 0)).add iw).add i2
  let iv := (rotate (fxRaw b.idp) (fxRaw b.iqp) thM).add (rotate (fxRaw b.idn) (fxRaw b.iqn) (angNeg thM))
  ⟨iv, iz, thM⟩

/-- The current order of an arm before and after its clamp (R126). -/
def Device.currentOrder (d : Device) (a : Nat) (t : LegTerms) : Fx × Fx × Fx :=
  let i := armIdx 0x4010 a
  let lim := q24 (d.rdF i 0x0B)
  let ci := d.compSum a 1 (d.angOut (poleOf a) (a % 3) (d.rd i 0x0D)) t.thM
  let half := t.iv.half
  let raw := (if a % 6 < 3 then t.iz.add half else t.iz.sub half).add ci
  (raw, raw.clamp (-lim) lim, ci)

/-- The round quotient v × n / V_sum of R130, exact before rounding. -/
def insertions (v vsum : Int) (n : Nat) (full : Bool) : Int :=
  if vsum ≤ 0 then 0 else min (max (quot (v * n) vsum) (if full then -(n : Int) else 0)) n

/-- The whole tick of one arm (R128 to R136), with its energy side, the leg's terms, and whether an order of the leg was clamped
(assumption log 34). -/
def Device.engineArm (d : Device) (a : Nat) (g : Energy) (t : LegTerms) (legClamped : Bool) : EngOut :=
  let i := armIdx 0x4010 a
  let p := poleOf a
  let b := d.ref p
  let arm := d.arm a
  let st := d.armState a
  let live := st == 2 || st == 3
  let thO := d.angOut p (a % 3) (d.rd i 0x0D)
  let (raw, iref, ci) := d.currentOrder a t
  let meas := d.armCurrent a
  let e := iref.sub meas
  let cv := d.compSum a 0 thO t.thM
  let up := d.shaped (armIdx 0x4012 a) (d.flag i 0x0E) (fxOf (d.rdF i 6)) e
  let ui := (up.add (fxRaw arm.xi)).add cv
  let vx := (rotate (fxRaw b.vdp) (fxRaw b.vqp) thO).add (rotate (fxRaw b.vdn) (fxRaw b.vqn) (angNeg thO))
  let vff := if a % 6 < 3 then (fxRaw b.vdcs).sub vx else (fxRaw b.vdcs).add vx
  let vraw := vff.sub ui
  let full := d.rd i 5 = 1
  let vhi := min (q24 (d.rdF i 9)) g.vsum.v
  let vlo := max (q24 (d.rdF i 0x0A)) (if full then -g.vsum.v else 0)
  let v := vraw.clamp vlo vhi
  let n := insertions v.v g.vsum.v g.nav full
  let band := q24 (d.rdF i 0x0C)
  let s := if meas.v > band then 1 else if meas.v < -band then -1 else arm.s
  let hi := vraw.v > vhi || arm.debt > 0
  let lo := vraw.v < vlo || arm.debt < 0
  let xlim := q24 (d.rdF i 8)
  let kept := (hi && e.v < 0) || (lo && e.v > 0)
  let xi := if !live then fxRaw 0
    else (if kept then fxRaw arm.xi else (fxRaw arm.xi).add (e.scale (perTick (d.rdF i 7) d.period) 32)).clamp (-xlim) xlim
  let xw := d.nextXw a g legClamped
  let num := g.vsum.s || g.w.s || g.praw.s || v.s || xi.s || xw.s || raw.s || e.s
  let flags := b2n (vraw.v > vhi) + 2 * b2n (vraw.v < vlo) + 4 * b2n (arm.debt > 0) + 8 * b2n (arm.debt < 0)
    + 16 * b2n (raw.v != iref.v) + 32 * b2n (g.praw.v != g.p.v) + 64 * b2n num + 128 * b2n (g.nav == 0)
  let upper := if a % 6 < 3 then a else a - 3
  let res : EngOut :=
    { n := n, s := s, v := v.v, iref := iref.v, imeas := meas.v, w := g.w.v, wref := g.wref.v, nav := g.nav, flags := flags
      xi := xi.v, xw := xw.v, cv := cv.v, ci := ci.v, amp := d.nextAmp upper, phi := d.nextPhi upper, eI := e.v
      loopSat := hi || lo, thMeas := t.thM }
  -- R120: no available cell
  if live && g.nav = 0 then
    { res with n := 0, s := arm.s, flags := 128, xi := arm.xi, xw := arm.xw }
  else res

/-- The control engine of a tick for the leg of upper arm `a`: both arms' results. -/
def Device.engineLeg (d : Device) (a : Nat) : EngOut × EngOut :=
  let gu := d.energy a
  let gl := d.energy (a + 3)
  let t := d.legTerms a gu.p.v gl.p.v
  let (ru, cu, _) := d.currentOrder a t
  let (rl, cl, _) := d.currentOrder (a + 3) t
  let clamped := ru.v != cu.v || rl.v != cl.v
  (d.engineArm a gu t clamped, d.engineArm (a + 3) gl t clamped)

/-- Declare an arm fault (R247, R253, R254): D is 0 from then on, the pole trips with cause 10 at the next T0. -/
def Device.armFault (d : Device) (a cause : Nat) (debt : Int) (nav : Nat) : Device :=
  if !d.armLive a || (d.arm a).fault ≠ 0 then d
  else
    let d := (d.modArm a fun x => { x with fault := cause, debt := 0, newFault := x.newFault + 1 }).wr (armIdx 0x4000 a) 5 cause
    let data := [(8, a), (8, cause), (16, ofInt 16 debt), (16, nav), (64, d.tick)]
    ((d.event (armIdx 0x4004 a) 0x1A lvTrip data).tripPole (poleOf a) 10).noteTrigger 4

/-- Store the results of the arms of a leg that have not slipped; an arm without an available cell has an arm fault of cause 3
(R120, R253). -/
def engineStore (d : Device) (a : Nat) : Device :=
  let (u, l) := d.engineLeg a
  let put := fun (d : Device) (b : Nat) (o : EngOut) =>
    if (d.arm b).slip ≠ 0 then d
    else
      let d := d.modArm b fun x => { x with eng := some o }
      if o.nav = 0 then d.armFault b 3 (d.arm b).debt 0 else d
  put (put d a u) (a + 3) l

/-- The control engine of a tick (R128): every present leg. -/
def Device.controlEngine (d : Device) : Device :=
  ([0, 1, 2, 6, 7, 8].filter fun a => d.armPresent a && d.armPresent (a + 3)).foldl engineStore d

/-! ### The end of a completed tick -/

/-- One table's learning in a completed tick (R144, R145); an arm with no available cell changes nothing (R120). -/
def Device.learn (d : Device) (a : Nat) (o : EngOut) (t : Nat) : Device :=
  let idx := armIdx 0x4020 a + t
  if d.rd idx 1 ≠ 2 then d
  else
    let b := d.ref (poleOf a)
    let ok := d.armState a == 3 && b.permit && b.angleOk && !o.loopSat
      && decide ((o.eI.natAbs : Int) ≤ q24 (d.rdF idx 0x0A))
    if !ok then d.bump idx 0x0F 0x10
    else if o.nav = 0 then d
    else
      let al := angAdd (angAdd (d.rd idx 3 * o.thMeas) (degAngle (d.rdF idx 4))) (angAdd (degAngle (d.rdF idx 9)) (2 ^ 21))
      let j := field al 22 10
      let step := quot (((fxOf (d.rdF idx 6)).mul (fxRaw o.eI)).v * 32768) (q24 (d.rdF idx 5))
      let dl : Int := (d.rd idx 7 : Nat)
      let bnd : Int := (d.rd idx 8 : Nat)
      let step := min (max step (-dl)) dl
      let tab := d.rd idx 0x0B
      let v := min (max (compEntry tab j + step) (-bnd)) bnd
      ((d.wr idx 0x0B (setField tab (16 * j) 16 (ofInt 16 v))).deriveEntry idx 0x0B).bump idx 0x0D 0x0E

/-- Show and keep an arm's engine results when it completes the tick (R135, R151). -/
def Device.engineCommit (d : Device) (a : Nat) (o : EngOut) : Device :=
  let i := armIdx 0x4015 a
  let d := d.modArm a fun x => { x with xi := o.xi, xw := o.xw, s := o.s }
  let f := fun (d : Device) (sub : Nat) (w : Int) => d.wrF i sub (q24Val w)
  let d := ((d.wrI i 1 o.n).wrI i 2 o.s).wr i 8 o.nav
  let d := f (f (f (f (f d 3 o.v) 4 o.iref) 5 o.imeas) 6 o.w) 7 o.wref
  let d := f (f (f (f d 0x40 o.xi) 0x41 o.xw) 0x42 o.cv) 0x43 o.ci
  let d := d.wr i 9 o.flags
  let d := if o.flags % 64 ≠ 0 then d.bump i 0x0A 0x0B else d
  (List.range 8).foldl (fun d t => d.learn a o t) d

/-- Keep A and φ of a leg when both its arms complete (R127, R135), as the upper arm's results have them. -/
def Device.legCommit (d : Device) (a : Nat) (o : EngOut) : Device :=
  let d := d.modArm a fun x => { x with amp := o.amp, phi := o.phi }
  let show_ := fun (d : Device) (h : Nat) => (d.wrF h 7 (q24Val o.amp)).wrF h 8 (angleDeg o.phi)
  show_ (show_ d (armIdx 0x4014 a)) (armIdx 0x4014 (a + 3))

end Sys2Proof.Machine
end

