-- ==== Sys2Proof/Machine/Rank.lean ====
section
/-! DEFINITION. The Rank engine (spec/07_rank_engine.md) and the force objects (R276 to R284): automatic bypass at the report latch,
selection, swaps and level debt, arm states, and the per-arm statistics. -/
namespace Sys2Proof.Machine

/-! ### Bypass at the report latch (R238 to R240) -/

/-- The bypass cause a report gives a cell that is not bypassed, with the counts of causes 3 and 4 after it (Table 7.3). -/
def Device.bypassCause (d : Device) (a r : Nat) (x : Cell) : Nat × Nat × Nat :=
  let vcn := d.rdF (armIdx 0x4010 a) 4
  let v : Rat := (reportVolt r : Rat) / 8
  let low := d.rdF 0x5300 3
  let ov := if v > d.rdF 0x5300 1 * vcn then min 255 (x.ov + 1) else 0
  let uv := if d.armState a = 3 && decide (low > 0) && decide (v < low * vcn) then min 255 (x.uv + 1) else 0
  let cause := if bit r 44 then 1 else if bit r 43 then 2 else if ov ≥ d.rd 0x5300 2 then 3
    else if uv ≥ d.rd 0x5300 4 then 4 else 0
  (cause, ov, uv)

/-- A cell becomes bypassed (R239); 0x4004 shows the count at the end of the arm's next completed tick (R262). -/
def Device.bypassCell (d : Device) (a c cause r : Nat) : Device :=
  let x := (d.arm a).cells.getD c Cell.reset
  let d := d.modArm a fun arm => { arm with
    cells := arm.cells.set c { x with
      pol := 0, pin := 0, byp := cause, ov := 0, uv := 0, lift := 0, shown := bit r 44, anom := false
      lastChg := if x.pol = 0 then x.lastChg else d.tick }
    fresh := if x.pol = 0 then arm.fresh else arm.fresh ++ [(c, x.pol)]
    newByp := arm.newByp + 1 }
  d.event (armIdx 0x4004 a) 0x18 lvWarn
    [(8, a), (16, c), (16, d.cellAt a c), (8, cause), (32, f32Of ((reportVolt r : Rat) / 8))]

/-- What a latched report does to one cell (assumption log 36). -/
def Device.latchCell (d : Device) (a c : Nat) : Device :=
  let x := (d.arm a).cells.getD c Cell.reset
  let g := d.cellAt a c
  if !(d.lane (g / 256)).took then d
  else
    let r := d.report g
    let put := fun (d : Device) (x : Cell) => d.modArm a fun arm => { arm with cells := arm.cells.set c x }
    if x.byp = 0 then
      let (cause, ov, uv) := d.bypassCause a r x
      if cause ≠ 0 then d.bypassCell a c cause r else put d { x with ov := ov, uv := uv }
    else if bit r 44 then put d { x with lift := 0, shown := true }
    else
      let n := min 1000 (x.lift + 1)
      let blocked := d.poleState (poleOf a) == 1
      if blocked && n ≥ 1000 then
        put d { x with byp := 0, ov := 0, uv := 0, lift := 0, shown := false, anom := false }
      else
        let odd := !blocked && x.shown && !x.anom
        let d := put d { x with lift := n, anom := x.anom || odd }
        if odd then d.bumpEvent 0x5300 5 6 lvWarn [] else d

/-- A tick begins for an arm: nothing has slipped or been computed. -/
def Device.armsBegin (d : Device) : Device :=
  { d with arms := d.arms.map fun x => { x with fresh := [], slip := 0, eng := none, rank := none } }

/-- The latch of one arm: its cells, then the redundancy floor (R253). -/
def latchArm (d : Device) (a : Nat) : Device :=
  let d := (List.range (d.arm a).cells.length).foldl (fun d c => d.latchCell a c) d
  let nav := (d.availVolts a).length
  if nav < d.rd (0x5301 + a) 6 then d.armFault a 2 (d.arm a).debt nav else d

/-- Automatic bypass on the reports latched in a tick, every present arm. -/
def Device.automaticBypass (d : Device) : Device := d.presentArms.foldl latchArm d

/-! ### Forces (R276 to R282) -/

/-- A force request covers a cell on lane `l`. -/
def ForceReq.covers (f : ForceReq) (l : Nat) : Bool := f.scope == 1 || (f.scope == 2 && bit f.lanes l)

/-- The force covers every cell of the arm (R282). -/
def Device.forceWhole (d : Device) (a : Nat) : Bool :=
  match (d.arm a).force with
  | none => false
  | some f => (List.range (d.arm a).cells.length).all fun c => f.covers (d.cellAt a c / 256)

/-- The polarity a force gives each cell of an arm, none where it does not hold the cell: `k` covered cells came before. -/
def forceTargets (f : ForceReq) (lane : Nat → Nat) : Nat → Nat → List Cell → List (Option Int)
  | _, _, [] => []
  | c, k, x :: r =>
    if f.covers (lane c) && x.byp = 0 then
      let t : Int := match f.pattern with
        | 0 => 0
        | 1 => 1
        | 2 => -1
        | _ => if k < f.level.natAbs then (if f.level < 0 then -1 else 1) else 0
      some t :: forceTargets f lane (c + 1) (k + 1) r
    else none :: forceTargets f lane (c + 1) k r

/-- The force targets of an arm in this tick. -/
def Device.forceList (d : Device) (a : Nat) : List (Option Int) :=
  match (d.arm a).force with
  | none => (d.arm a).cells.map fun _ => none
  | some f => forceTargets f (fun c => d.cellAt a c / 256) 0 0 (d.arm a).cells

/-! ### Selection (R231 to R247) -/

/-- A cell under selection: its number, its cell, its voltage code, the force target, whether it was pinned at the start of the
tick, whether it is excluded, and whether this tick has changed it. -/
structure Cand where
  c      : Nat
  cell   : Cell
  volt   : Nat
  force  : Option Int
  excl   : Bool
  chg    : Bool
  deriving DecidableEq, Repr

/-- Pinned at the start of the tick (R233). -/
def Cand.isPinned (x : Cand) : Bool := x.cell.pin != 0

/-- Free (R242). -/
def Cand.free (x : Cand) : Bool := !x.isPinned && !x.excl && x.cell.byp == 0 && x.force.isNone

/-- Give a cell a new polarity. -/
def Cand.turn (x : Cand) (q : Int) : Cand := { x with cell := { x.cell with pol := q }, chg := true }

/-- Insert into a list ascending in (v, c) (R231). -/
def rankInsert (x : Cand) : List Cand → List Cand
  | [] => [x]
  | y :: r => if x.volt < y.volt || (x.volt = y.volt && x.c < y.c) then x :: y :: r else y :: rankInsert x r

/-- The ranking order of an arm. -/
def ranked (xs : List Cand) : List Cand := xs.foldl (fun acc x => rankInsert x acc) []

/-- The forced polarity is taken by every held cell that is not pinned (R280). -/
def Cand.takeForce (x : Cand) : Cand :=
  match x.force with
  | some t => if x.cell.pol = t || x.isPinned then x else x.turn t
  | none => x

/-- The first loop of R242. -/
def Cand.stepA (q : Int) (x : Cand) : Cand :=
  if x.free && x.cell.pol = -q then x.turn 0
  else if x.excl && !x.isPinned && x.force.isNone && x.cell.byp = 0 && x.cell.pol ≠ 0 then x.turn 0
  else x

/-- The level: the sum of polarities over cells not bypassed (R229). -/
def levelOf (xs : List Cand) : Int := xs.foldl (fun s x => if x.cell.byp = 0 then s + x.cell.pol else s) 0

/-- Insertion candidates of an order. -/
def insertable (xs : List Cand) : List Cand := xs.filter fun x => x.free && !x.chg && x.cell.pol == 0

/-- Removal candidates of an order. -/
def removable (q : Int) (xs : List Cand) : List Cand := xs.filter fun x => x.free && !x.chg && x.cell.pol == q

/-- The swaps of R243: pairs of a removed and an inserted cell, at most `n`. -/
def swapPairs (sense band : Int) : Nat → List Cand → List Cand → List (Cand × Cand)
  | n + 1, o :: os, i :: is =>
    if sense * ((o.volt : Int) - i.volt) > band then (o, i) :: swapPairs sense band n os is else []
  | _, _, _ => []

/-- Give the named cells a new polarity. -/
def turnAll (cs : List Nat) (q : Int) (xs : List Cand) : List Cand :=
  if cs.isEmpty then xs else xs.map fun x => if cs.contains x.c then x.turn q else x

/-- The band in force as a fraction of V_cn (R244). -/
def Device.bandOf (d : Device) (a : Nat) : Rat :=
  ratClamp 0 (1 / 5) (d.rdF (0x5301 + a) 1 + (d.ref (poleOf a)).band)

/-- The cells of an arm as candidates. -/
def Device.cands (d : Device) (a : Nat) : List Cand :=
  let m := d.exclMap a
  ((numbered 0 (d.arm a).cells).zip (d.forceList a)).map fun x =>
    ⟨x.1.1, x.1.2, reportVolt (d.report (d.cellAt a x.1.1)), x.2, bit m x.1.1, false⟩

/-- The pin timer and the tick of the last change after a completed tick (R233, R239). -/
def Cand.settle (dwell tick : Nat) (x : Cand) : Cell :=
  let w := match x.force with
    | some t => x.cell.pol != t
    | none => false
  { x.cell with
    pin := if x.cell.byp ≠ 0 then 0 else if x.chg then dwell - 1 else x.cell.pin - 1
    lastChg := if x.chg then tick else x.cell.lastChg
    pinned := x.isPinned
    forced := x.force.isSome
    waiting := w
    repeated := false }

/-- The Rank stage of one arm (R241 to R249, R252, R282), with the engine's count and sign. -/
def Device.rankArm (d : Device) (a : Nat) (o : EngOut) : RankOut :=
  let arm := d.arm a
  let sel := 0x5301 + a
  let byps : List Change := arm.fresh.map fun x => ⟨x.1, decide (x.2 < 0), 0⟩
  let dwell := d.rd sel 3
  let xs0 := d.cands a
  if !d.armLive a then
    let cells := xs0.map fun x => ({ x with cell := { x.cell with pol := 0 } } : Cand).settle dwell d.tick
    ⟨cells, byps, [], 0, 0, arm.fresh.length, 0, 0, 0, 0, 0⟩
  else
    let whole := d.forceWhole a
    let full := d.rd (armIdx 0x4010 a) 5 = 1
    let sum := o.n + arm.debt
    let r : Int := min (max sum (if full then -(o.nav : Int) else 0)) o.nav
    let discard := if whole then 0 else (sum - r).natAbs
    let q : Int := if r < 0 then -1 else 1
    let xs1 := xs0.map Cand.takeForce
    let forced := (xs1.filter (·.chg)).map (·.c)
    let newWait := (xs1.filter fun x => x.force.isSome && !x.chg && !x.cell.waiting && x.force != some x.cell.pol).length
    let xs2 := xs1.map (Cand.stepA q)
    let stepA := (xs2.zip xs1).filter fun x => x.1.chg && !x.2.chg
    let need := q * r - q * levelOf xs2
    let up := ranked xs2
    let sense := q * o.s
    let insOrder := if sense > 0 then up else up.reverse
    let remOrder := if sense > 0 then up.reverse else up
    let ins := if need > 0 then (insertable insOrder).take need.toNat else []
    let rem := if need < 0 then (removable q remOrder).take (-need).toNat else []
    let xs3 := turnAll (rem.map (·.c)) 0 (turnAll (ins.map (·.c)) q xs2)
    let up3 := ranked xs3
    let insOrder := if sense > 0 then up3 else up3.reverse
    let remOrder := if sense > 0 then up3.reverse else up3
    let band := ratRound (d.bandOf a * d.rdF (armIdx 0x4010 a) 4 * 8)
    let swaps := swapPairs sense band (d.rd sel 4) (removable q remOrder) (insertable insOrder)
    let xs4 := turnAll (swaps.map (·.1.c)) 0 (turnAll (swaps.map (·.2.c)) q xs3)
    let level := levelOf xs4
    let chA : List Change := stepA.map fun x => ⟨x.1.c, decide (x.2.cell.pol < 0), 2⟩
    let chI : List Change := ins.map fun x => ⟨x.c, decide (q > 0), 2⟩
    let chR : List Change := rem.map fun x => ⟨x.c, decide (q < 0), 2⟩
    let chS : List Change := swaps.flatMap fun x => [⟨x.1.c, decide (q < 0), 1⟩, ⟨x.2.c, decide (q > 0), 1⟩]
    { cells := xs4.map (Cand.settle dwell d.tick)
      changes := byps ++ chA ++ chI ++ chR ++ chS
      forced := forced
      level := level
      debt := if whole then 0 else r - level
      switchings := arm.fresh.length + (xs4.filter (·.chg)).length
      swaps := swaps.length
      discard := discard
      held := (xs4.filter (·.force.isSome)).length
      waiting := (xs4.filter fun x => x.force.isSome && x.force != some x.cell.pol).length
      newWait := newWait }

/-- The Rank stage of a tick: every present arm that has not slipped (R227, R257). -/
def Device.rankEngine (d : Device) : Device :=
  d.presentArms.foldl (fun d a =>
    let arm := d.arm a
    match arm.eng with
    | some o => if arm.slip = 0 then d.modArm a fun x => { x with rank := some (d.rankArm a o) } else d
    | none => d) d

/-! ### The end of a completed tick -/

/-- The statistics of the available cells (R259). -/
def Device.voltStats (d : Device) (a : Nat) : Device :=
  let i := armIdx 0x4004 a
  let xs := (d.cands a).filter fun x => x.cell.byp == 0 && !x.excl
  let up := ranked xs
  match up.head?, up.getLast? with
  | some lo, some hi =>
    let v := fun (x : Cand) => (x.volt : Rat) / 8
    let mean := xs.foldl (fun s x => s + v x) 0 / (xs.length : Rat)
    let low := (xs.filter fun x => x.volt == lo.volt).foldl (fun m x => min m x.c) lo.c
    (((((d.wrF i 7 (v hi)).wrF i 8 (v lo)).wrF i 9 mean).wr i 0x0A hi.c).wr i 0x0B low).wrF i 0x0C (v hi - v lo)
  | _, _ => ((((d.wrF i 7 0).wrF i 8 0).wrF i 9 0).wr i 0x0A 0xFFFF).wr i 0x0B 0xFFFF |>.wrF i 0x0C 0

/-- The number of set bits of a map of `n` bits. -/
def countBits (m n : Nat) : Nat := ((List.range n).filter (bit m)).length

/-- The bypass events and arm faults up to the end of a completed tick are shown (R259, R262). -/
def Device.showArmEvents (d : Device) (a : Nat) : Device :=
  let i := armIdx 0x4004 a
  let x := d.arm a
  let d := if x.newByp = 0 then d else d.bumpBy i 0x18 0x19 x.newByp
  let d := if x.newFault = 0 then d else d.bumpBy i 0x1A 0x1B x.newFault
  d.modArm a fun x => { x with newByp := 0, newFault := 0 }

/-- Keep an arm's selection when it completes the tick (R228, R235, R246, R247, R259) (assumption log 36). -/
def Device.rankCommit (d : Device) (a : Nat) (o : RankOut) : Device :=
  let i := armIdx 0x4004 a
  let e := armIdx 0x4002 a
  let old := (d.arm a).cells
  let d := d.modArm a fun x => { x with cells := o.cells, debt := o.debt, map := d.exclMap a }
  let pins := (old.filter (·.pin != 0)).length
  let m := d.exclMap a
  let byp := (o.cells.filter (·.byp != 0)).length
  let exc := ((numbered 0 o.cells).filter fun x => x.2.byp == 0 && bit m x.1).length
  let stale := ((List.range o.cells.length).filter fun c => (d.lane (d.cellAt a c / 256)).stale).length
  let d := ((((d.wr i 2 byp).wr i 3 exc).wr i 4 pins).wrI i 5 o.level).wrI i 6 o.debt
  let d := (d.wr i 0x0D stale).wr i 0x0E o.switchings
  let d := d.accum i 0x0F 0x10 o.switchings
  let d := if o.swaps ≠ 0 then d.bumpBy i 0x11 0x12 o.swaps else d
  let d := if o.debt ≠ 0 then d.bump i 0x13 0x14 else d
  let d := d.wr i 0x15 (max (d.rd i 0x15) o.debt.natAbs)
  let d := if o.discard ≠ 0 then d.bumpBy i 0x16 0x17 o.discard else d
  let d := if o.newWait ≠ 0 then d.bumpBy (0x5401 + a) 7 8 o.newWait else d
  let d := if d.armLive a && (d.rd e 4 = 0
      || d.rd e 3 + 2 ^ 32 * d.rd e 2 ≠ countBits m o.cells.length + 2 ^ 32 * crc32c (leBytes 128 m)) then
      ((d.wr e 2 (crc32c (leBytes 128 m))).wr e 3 (countBits m o.cells.length)).wr e 4 d.tick
    else d
  let f := armIdx 0x4003 a
  let d := match (d.arm a).force with
    | some _ => ((d.wr f 6 (if o.waiting = 0 then 2 else 1)).wr f 8 o.waiting).wr f 9 o.held
    | none => (d.wr f 8 0).wr f 9 0
  let d := d.voltStats a
  let d := if (o.debt.natAbs : Nat) > d.rd (0x5301 + a) 5 then d.armFault a 1 o.debt ((d.availVolts a).length) else d
  d.showArmEvents a

/-! ### Arm states (R251, R252, R283) -/

/-- A force ends without a write (R283). -/
def Device.forceRelease (d : Device) (a st cause : Nat) : Device :=
  match (d.arm a).force with
  | none => d.modArm a fun x => { x with forceTo := none }
  | some _ =>
    let f := armIdx 0x4003 a
    let d := d.modArm a fun x => { x with force := none, forceTo := none }
    (((d.wr f 6 0).wr f 8 0).wr f 9 0).event f 6 lvInfo [(8, a), (8, st), (8, cause)]

/-- Show an arm's state. -/
def Device.setArmState (d : Device) (a st : Nat) : Device :=
  if d.armState a = st then d else (d.wr (armIdx 0x4000 a) 1 st).wr (armIdx 0x4000 a) 6 d.tick

/-- Enter BLOCKED at the T0 of the present tick (R252, R275): polarities to 0 with their pins, D and the integrators 0. A cell so set
that had not yet changed in the tick that ends is one switching more of that tick (R245) (assumption log 34, 35). -/
def Device.armBlock (d : Device) (a : Nat) : Device :=
  if !d.armLive a then d
  else
    let cause := (d.arm a).fault
    let dwell := d.rd (0x5301 + a) 3
    let t := d.tick - 1
    let n := ((d.arm a).cells.filter fun c => c.pol != 0 && c.lastChg != t).length
    let i := armIdx 0x4004 a
    let d := (d.wr i 0x0E (d.rd i 0x0E + n)).accum i 0x0F 0x10 n
    let d := d.modArm a fun x => { x with
      cells := x.cells.map fun c =>
        if c.pol = 0 then c else { c with pol := 0, pin := dwell - 1, lastChg := t, fire := some (t, 0) }
      debt := 0, fault := 0, xi := 0, xw := 0 }
    (d.setArmState a 1).forceRelease a 1 cause

/-- Enter ENERGISING (2) or DEBLOCKED (3) with D = 0 (R248, R251). -/
def Device.armStart (d : Device) (a st : Nat) : Device :=
  if d.armPresent a then
    let d := if d.armState a = st then d else (d.modArm a fun x => { x with debt := 0, fault := 0 }).wr (armIdx 0x4000 a) 5 0
    d.setArmState a st
  else d

/-- The arms of a pole follow its state: `live` is 0 for blocked, 2 for ENERGISING, 3 for DEBLOCKED. -/
def Device.armsFollow (d : Device) (p live : Nat) : Device :=
  (armsOf p).foldl (fun d a =>
    if !d.armPresent a then d else if live = 0 then d.armBlock a else d.armStart a live) d

/-- An arm at configuration activation (R251): ABSENT without cells, otherwise BLOCKED with nothing recorded. -/
def Device.armActivate (d : Device) (a : Nat) : Device :=
  let n := d.rd (armIdx 0x4000 a) 2
  let d := (d.wr (armIdx 0x4004 a) 1 n).wr (armIdx 0x4000 a) 4 (crc32c (leBytes 2048 (d.rd (armIdx 0x4000 a) 3)))
  if n = 0 then ((d.modArm a fun _ => Arm.reset).forceRelease a 0 0).setArmState a 0
  else if d.armState a = 0 then
    (d.modArm a fun _ => { Arm.reset with cells := List.replicate n Cell.reset }).setArmState a 1
  else d

/-- A write of an arm's cell count or cell map takes effect (R28): the arm's cells are as many as configured, and those that stay keep what
is recorded of them (assumption log 36). -/
def Device.armResize (d : Device) (a : Nat) : Device :=
  let d := d.armActivate a
  let n := d.rd (armIdx 0x4000 a) 2
  d.modArm a fun x => { x with cells := (x.cells ++ List.replicate n Cell.reset).take n }

/-! ### The cell image (R258) -/

/-- One entry of the cell image: 128 bits for the arm cell at a position. -/
def Device.imageEntry (d : Device) (l k a c : Nat) (x : Cell) : Nat :=
  let ln := d.lane l
  let byp := x.byp != 0
  let pol := if x.pol = 1 then 1 else if x.pol = -1 then 3 else 0
  ln.reports.getD k 0 + 2 ^ 64 * c + 2 ^ 80 * a + 2 ^ 88 * b2n ln.stale + 2 ^ 89 * b2n byp
    + 2 ^ 90 * b2n (!byp && bit (d.arm a).map c) + 2 ^ 91 * b2n x.pinned + 2 ^ 92 * pol + 2 ^ 94 * b2n x.forced
    + 2 ^ 95 * b2n x.repeated + 2 ^ 96 * (x.lastChg % 2 ^ 32)

/-- The image of a lane: unused positions, then each cell put at its place. -/
def Device.laneImage (d : Device) (l : Nat) : Nat :=
  (d.armsOnLane l).foldl (fun m a =>
    (numbered 0 (d.arm a).cells).foldl (fun m x =>
      let g := d.cellAt a x.1
      if g / 256 = l then setField m (128 * (g % 256)) 128 (d.imageEntry l (g % 256) a x.1 x.2) else m) m) imageBlank

/-- Rewrite the image of every lane. -/
def Device.cellImages (d : Device) : Device :=
  (List.range 32).foldl (fun d l =>
    ((d.wr (0xC000 + l) 1 (d.laneImage l)).wr (0xC000 + l) 2 d.tick).wr (0xC000 + l) 3 (d.laneCells l)) d

/-- The bands in force of the present arms at a T0 (R244). -/
def Device.showBands (d : Device) : Device :=
  d.presentArms.foldl (fun d a => d.wrF (0x5301 + a) 2 (d.bandOf a * d.rdF (armIdx 0x4010 a) 4)) d

/-! ### Commands -/

/-- n_av of an arm under another exclusion map. -/
def Device.availUnder (d : Device) (a map : Nat) : Nat :=
  ((numbered 0 (d.arm a).cells).filter fun x => x.2.byp == 0 && !bit map x.1).length

/-- EXCLUSION_MAP_WRITE (R235 to R237): a whole-object write of arm `a`'s map. -/
def execExclusionMapWrite (a map : Nat) (s : State) : Out :=
  s.run fun d =>
    let i := armIdx 0x4002 a
    if a ≥ 12 then d
    else d.sdo i 1 128 map fun d =>
      if map ≥ 2 ^ d.rd (armIdx 0x4000 a) 2 then d.abort i 1 0x06090030
      else if d.armLive a && d.availUnder a map < max 1 (d.rd (0x5301 + a) 6) then d.abort i 1 0x08000020
      else d.accept i 1 map

/-- The first condition of R278 that a force request fails, as its abort code. -/
def Device.forceAbort (d : Device) (a : Nat) (f : ForceReq) : Option Nat :=
  let st := d.armState a
  let cells := numbered 0 (d.arm a).cells
  let free := (cells.filter fun x => f.covers (d.cellAt a x.1 / 256) && x.2.byp == 0).length
  let half := d.rd (armIdx 0x4010 a) 5 = 0
  let lanesOk := f.lanes != 0 && (List.range 32).all fun l =>
    !bit f.lanes l || cells.any fun x => d.cellAt a x.1 / 256 == l
  if !d.holds then some 0x08000020
  else if f.scope = 0 then none
  else if (f.scope = 1 && st ≠ 3) || (f.scope = 2 && st ≠ 2 && st ≠ 3) then some 0x08000022
  else if half && (f.pattern = 2 || (f.pattern = 3 && f.level < 0)) then some 0x06090030
  else if f.pattern = 3 && f.level.natAbs > free then some 0x06090030
  else if f.scope = 2 && !lanesOk then some 0x06090030
  else none

/-- FORCE_REQUEST (R276 to R279): a complete-access write of .01 to .05 of 0x4003 + a × 0x100. Each entry is judged as a write of
it would be, then the request as a whole. -/
def execForceRequest (a scope pattern lanes level offset : Nat) (s : State) : Out :=
  s.run fun d =>
    let i := armIdx 0x4003 a
    if a ≥ 12 || !d.mailbox then d
    else
      let vals := [(1, 1, scope), (2, 1, pattern), (3, 4, lanes), (4, 2, level), (5, 1, offset)]
      match firstSome (vals.map fun x => (d.judge i x.1 x.2.1 x.2.2).map fun code => x.1 * 2 ^ 32 + code) with
      | some bad => d.abort i (bad / 2 ^ 32) (bad % 2 ^ 32)
      | none =>
        let f : ForceReq := ⟨scope, pattern, lanes, toInt 16 level, offset⟩
        match d.forceAbort a f with
        | some code => d.abort i 1 code
        | none =>
          let d := d.done.modArm a fun x => { x with forceTo := some f }
          vals.foldl (fun d x => d.accept i x.1 x.2.2) d

/-- The force request of the entries .01 to .05 of an arm comes into force at the present T0: in the holder the one accepted, in the
standby the one that its WRITE records carried (R237, R279). -/
def Device.forceWritten (d : Device) (a : Nat) : Device :=
  let i := armIdx 0x4003 a
  d.modArm a fun x => { x with forceTo := some ⟨d.rd i 1, d.rd i 2, d.rd i 3, d.rdI i 4, d.rd i 5⟩ }

/-- Force requests take effect at a T0 (R280, R281). -/
def Device.forceEffect (d : Device) : Device :=
  (List.range 12).foldl (fun d a =>
    match (d.arm a).forceTo with
    | none => d
    | some f =>
      let i := armIdx 0x4003 a
      if f.scope = 0 then ((d.modArm a fun x => { x with force := none, forceTo := none }).wr i 6 0).wr i 7 d.tick
      else ((d.modArm a fun x => { x with force := some f, forceTo := none }).wr i 6 1).wr i 7 d.tick) d

end Sys2Proof.Machine
end

