-- ==== Sys2Proof/Machine/Firing.lean ====
section
/-! DEFINITION. The firing generator (spec/08_firing_and_forcing.md) and the frames it fills (spec/10_minak_frames.md): offsets, cell
commands, header, preamble and digest of the downstream frames, and the segment CRCs of both directions.
Choices of the model: assumption log 28, 35, 77. -/
namespace Sys2Proof.Machine

/-! ### Offsets -/

/-- How many changes of a list raise (or lower) the level outside bypasses and swaps. -/
def moveCount (raises : Bool) (chs : List Change) : Nat := (chs.filter fun x => x.kind == 2 && x.raises == raises).length

/-- The offsets of R270 in list order: `r` raising and `l` lowering changes came before, `k` pairs are formed and `m` changes are
left over. -/
def offsetsFrom (b w k m : Nat) : Nat → Nat → List Change → List (Nat × Nat)
  | _, _, [] => []
  | r, l, x :: xs =>
    let free := fun (i : Nat) => if i < k then b else b + (i - k) * w / m
    if x.kind = 0 then (x.c, 0) :: offsetsFrom b w k m r l xs
    else if x.kind = 1 then (x.c, b) :: offsetsFrom b w k m r l xs
    else if x.raises then (x.c, free r) :: offsetsFrom b w k m (r + 1) l xs
    else (x.c, free l) :: offsetsFrom b w k m r (l + 1) xs

/-- The offset of every change of a list (R270). -/
def offsetsOf (b w : Nat) (chs : List Change) : List (Nat × Nat) :=
  let up := moveCount true chs
  let dn := moveCount false chs
  offsetsFrom b w (min up dn) (max up dn - min up dn) 0 0 chs

/-- The effective minimum pulse t_e of an arm, in 10 ns (R274). -/
def Device.minPulse (d : Device) (a : Nat) : Nat := min (d.rd (0x5401 + a) 3) (d.rd (0x5301 + a) 3 * (100 * d.period))

/-- Show t_e of every arm (R274, Table 8.8). -/
def Device.showPulses (d : Device) : Device := (List.range 12).foldl (fun d a => d.wr (0x5401 + a) 4 (d.minPulse a)) d

/-- The minimum-pulse filter (R274): the offset after it, and whether it was raised. -/
def Device.filterOffset (d : Device) (te : Nat) (last : Option (Nat × Nat)) (o : Nat) : Nat × Bool :=
  match last with
  | none => (o, false)
  | some (k, op) =>
    let gap : Int := ((d.tick : Int) - k) * (100 * d.period : Nat)
    if gap + o - op < te then (min 255 ((op : Int) + te - gap).toNat, true) else (o, false)

/-! ### Cell commands -/

/-- The STATE code of a polarity (Table 8.2). -/
def stateCode (pol : Int) : Nat := if pol = 1 then 1 else if pol = -1 then 3 else 0

/-- A cell command, Table 8.1. -/
def command (off st pos : Nat) (chg frc rep : Bool) : Nat :=
  off % 256 + st % 8 * 256 + b2n chg * 2 ^ 11 + b2n frc * 2 ^ 12 + b2n rep * 2 ^ 13 + pos % 256 * 2 ^ 16

/-- What the firing generator gives one cell: arm, arm-local and global cell, the command without HBLK, the new firing state where the
command carries a change, whether R274 raised its offset, and whether it is repeated. -/
structure CellOut where
  a      : Nat
  c      : Nat
  g      : Nat
  cmd    : Nat
  fire   : Option (Nat × Nat)
  raised : Bool
  rep    : Bool
  deriving DecidableEq, Repr

/-- STATE, OFFSET, the offset recorded as a change, the raised mark and REP of a cell. -/
structure Choice where
  st     : Nat
  off    : Nat
  change : Bool
  raised : Bool
  rep    : Bool
  deriving DecidableEq, Repr

/-- The row of Table 8.3 that applies to cell `c` of arm `a`: `row1` an arm fault of the pole in this tick, `offs` the offsets of the
change list, `forced` the forced changes, `t` the force target. A forced change that a frame carried already, in a tick that the arm slipped,
leaves STATE as it was and is recorded no second time (R272, R275). -/
def Device.choose (d : Device) (a te : Nat) (row1 : Bool) (offs : List (Nat × Nat)) (forced : List Nat) (t : Option Int)
    (c : Nat) (x : Cell) : Choice :=
  let arm := d.arm a
  let prev := field x.cmd 8 3
  let fresh := arm.fresh.any fun y => y.1 == c
  let fo := match arm.force with
    | some f => f.offset
    | none => 0
  if row1 then ⟨4, 0, false, false, false⟩
  else if x.byp ≥ 2 && d.poleState (poleOf a) ≠ 1 then ⟨6, 0, fresh, false, false⟩
  else if arm.slip ≠ 0 then
    match t with
    | some q =>
      if x.pin ≠ 0 then ⟨prev, field x.cmd 0 8, false, false, true⟩
      else if stateCode q = prev then ⟨prev, 0, false, false, false⟩
      else
        let (o, up) := d.filterOffset te x.fire fo
        ⟨stateCode q, o, true, up, false⟩
    | none => ⟨prev, field x.cmd 0 8, false, false, true⟩
  else if !d.armLive a || x.byp ≠ 0 then ⟨4, 0, fresh, false, false⟩
  else
    match offs.find? (fun y => y.1 == c) with
    | some (_, o) =>
      let (o, up) := d.filterOffset te x.fire o
      ⟨stateCode x.pol, o, true, up, false⟩
    | none =>
      if forced.contains c && stateCode x.pol != prev then
        let (o, up) := d.filterOffset te x.fire fo
        ⟨stateCode x.pol, o, true, up, false⟩
      else ⟨stateCode x.pol, 0, false, false, false⟩

/-- An arm fault was found in this tick in an arm of the pole (row 1 of Table 8.3). -/
def Device.poleFaulted (d : Device) (p : Nat) : Bool := (armsOf p).any fun a => (d.arm a).fault != 0

/-- The commands of an arm in this tick (R267 to R274). -/
def Device.armCommands (d : Device) (a : Nat) : List CellOut :=
  let arm := d.arm a
  let te := d.minPulse a
  let row1 := d.poleFaulted (poleOf a)
  let (chs, forced) := match arm.rank with
    | some o => (o.changes, o.forced)
    | none => ([], [])
  let offs := offsetsOf (d.rd (0x5401 + a) 2) (d.rd (0x5401 + a) 1) chs
  ((numbered 0 arm.cells).zip (d.forceList a)).map fun y =>
    let c := y.1.1
    let x := y.1.2
    let ch := d.choose a te row1 offs forced y.2 c x
    let g := d.cellAt a c
    { a := a, c := c, g := g
      cmd := command ch.off ch.st (g % 256) (!ch.rep && ch.st != field x.cmd 8 3) y.2.isSome ch.rep
      fire := if ch.change then some (d.tick, ch.off) else none
      raised := ch.raised
      rep := ch.rep }

/-! ### Frames as bytes (R324 to R326) -/

/-- Cut a list of bytes into segments of 128 bytes. -/
def segments : Nat → List Nat → List (List Nat)
  | 0, _ => []
  | n + 1, bs => if bs.isEmpty then [] else bs.take 128 :: segments n (bs.drop 128)

/-- Segments with their CRCs; `pre` stands before the first in its CRC. -/
def withCrcs : List Nat → List (List Nat) → List Nat
  | _, [] => []
  | pre, s :: r => s ++ beBytes 4 (crc32c (pre ++ s)) ++ withCrcs [] r

/-- How many data blocks a frame of `bits` data bits has, and how many segments (R311). -/
def frameSegments (bits : Nat) : Nat := (bits + 1023) / 1024

/-- The data blocks k of R311. -/
def frameBlocks (bits : Nat) : Nat := (bits + 32 * frameSegments bits + 63) / 64

/-- The stream bytes of a frame with header `head` and data `bs`. -/
def frameStream (head : Nat) (bs : List Nat) : List Nat :=
  let body := withCrcs (beBytes 7 head) (segments bs.length bs)
  body ++ List.replicate (8 * frameBlocks (8 * bs.length) - body.length) 0

/-- Take `n` data bytes out of a stream of segments. -/
def streamData : Nat → Nat → List Nat → List Nat
  | 0, _, _ => []
  | k + 1, n, bs => if n = 0 then [] else bs.take (min 128 n) ++ streamData k (n - min 128 n) (bs.drop (min 128 n + 4))

/-- The data bytes of a downstream frame (R329, R331). -/
def DownFrame.data (f : DownFrame) : List Nat := beBytes 40 f.pre ++ f.cmds.flatMap (beBytes 3)

/-- The stream of a downstream frame as transmitted. -/
def DownFrame.stream (f : DownFrame) : List Nat := frameStream f.head f.data

/-- The data blocks of a stream: eight bytes each, the first in bits [63:56] (R324). -/
def dataBlocks : Nat → List Nat → List Nat
  | 0, _ => []
  | n + 1, bs => beNat (bs.take 8) :: dataBlocks n (bs.drop 8)

/-- The blocks of a frame before scrambling: the FRAME block with its type byte and the header, then the data blocks (R324). -/
def DownFrame.blocks (f : DownFrame) : List Nat :=
  (0x78 * 2 ^ 56 + f.head % 2 ^ 56) :: dataBlocks (f.stream.length / 8) f.stream

/-! ### The downstream frames of a tick -/

/-- Lanes that carry a frame in this tick: OPERATIONAL since before its T0 (R310), in a unit that sends frames (R406, R60). -/
def Device.sendsOn (d : Device) (l : Nat) : Bool :=
  (d.unit == 2 || d.unit == 3) && d.boot.plState != 12 && !d.boot.safeState && d.laneState l == 8
    && decide ((d.lane l).t0s ≥ 1) && d.laneCells l != 0

/-- Arm `a`'s bit of the block mask (R285). -/
def Device.masked (d : Device) (a : Nat) : Bool := bit (d.rd 0x5400 5) a

/-- The HOLDER flag (R328, R413). -/
def Device.holderFlag (d : Device) : Bool := d.holds

/-- The header of the frame of lane `l` (Table 10.1, R328). -/
def Device.frameHead (d : Device) (l : Nat) (rep : Bool) : Nat :=
  let arms := d.armsOnLane l
  let block := (arms != [] && arms.all d.masked) || d.safeBlock
  let solo := !d.twinProfile
  let epoch := if solo then 0 else if d.holderFlag then d.lease.epoch % 256 else d.rd 0x2020 5
  let sync := d.unit == 3 || (d.unit == 2 && !rep && !d.twin.diverged)
  d.tick % 2 ^ 16 * 2 ^ 40 + epoch * 2 ^ 32 + b2n sync * 2 ^ 31 + b2n rep * 2 ^ 30 + b2n block * 2 ^ 29
    + b2n d.holderFlag * 2 ^ 28 + d.rd 0x2020 1 % 2 * 2 ^ 27 + b2n solo * 2 ^ 26 + l % 256 * 2 ^ 16
    + d.laneCells l % 512 * 2 ^ 7 + 1

/-- The command digest (R332): commands without HBLK. -/
def digest (tick : Nat) (cmds : List Nat) : Nat := crc32c (beBytes 8 tick ++ cmds.flatMap (beBytes 3))

/-- The preamble of the frame of lane `l` (Table 10.2, R330). -/
def Device.framePre (d : Device) (l : Nat) (cmds : List Nat) : Nat :=
  let arms := d.armsOnLane l
  let apply := ((1000 * d.period : Nat) : Int) - 2200 - (d.rd (0x5530 + l) 8 : Nat)
  d.tick % 2 ^ 64 * 2 ^ 256 + digest d.tick cmds * 2 ^ 224 + ofInt 16 apply * 2 ^ 208 + d.rd 0x5501 1 % 256 * 2 ^ 200
    + d.rd 0x2010 2 % 4 * 2 ^ 198 + field (d.rd 0xA000 1) 1 6 * 2 ^ 192 + d.epwin % 2 ^ 16 * 2 ^ 176
    + arms.getD 0 0xFF * 2 ^ 168 + arms.getD 1 0xFF * 2 ^ 160

/-- Set HBLK in the commands of masked arms from position `from_` on (R285). -/
def hblkFrom (masked : Nat → Bool) (from_ : Nat) : Nat → List Nat → List Nat
  | _, [] => []
  | k, x :: r => (if from_ ≤ k && masked k then setBit x 14 true else x) :: hblkFrom masked from_ (k + 1) r

/-- The commands at position `k` of lane `l` carry HBLK: channel 2 of Safe Block has left NORMAL, or the arm whose cell stands there
is masked (R285, R497). -/
def Device.posMasked (d : Device) (l k : Nat) : Bool :=
  d.rd 0x7000 2 != 0 || (d.armsOnLane l).any fun a => d.masked a && (List.range (d.arm a).cells.length).any fun c => d.cellAt a c == l * 256 + k

/-- Build and send the frame of lane `l` from the tick's commands (R327 to R332). -/
def Device.sendFrame (d : Device) (outs : List CellOut) (l : Nat) : Device :=
  let here := outs.filter fun o => o.g / 256 == l
  let cmds := (List.range (d.laneCells l)).map fun k =>
    match here.find? (fun o => o.g % 256 == k) with
    | some o => o.cmd
    | none => command 0 4 k false false false
  let rep := here.any (·.rep)
  let f : DownFrame := ⟨d.frameHead l rep, d.framePre l cmds, hblkFrom (d.posMasked l) 0 0 cmds⟩
  let d := (d.modLane l fun x => { x with tx := some f, sent := true }).accum (0x5550 + l) 1 2 1
  if rep then d.bump 0x5400 1 2 else d

/-- The firing state of lane `l` follows the tick's commands: its frame is sent, or the unit replays in RESYNC (R443). -/
def Device.firesOn (d : Device) (l : Nat) : Bool :=
  d.sendsOn l || (d.twinProfile && d.unit == 1 && d.twin.loaded && d.laneCells l != 0)

/-- Keep what the sent commands of an arm leave: the command without HBLK and the firing state (R265, R275). -/
def Device.keepSent (d : Device) (a : Nat) (outs : List CellOut) : Device :=
  let mine := outs.filter fun o => o.a == a
  let sent := mine.filter fun o => d.firesOn (o.g / 256)
  let upd := fun (y : Nat × Cell) =>
    let rep := mine.any fun o => o.c == y.1 && o.rep
    match sent.find? (fun o => o.c == y.1) with
    | some o => { y.2 with cmd := o.cmd, fire := o.fire.or y.2.fire, repeated := rep }
    | none => { y.2 with repeated := rep }
  let raised := (sent.filter (·.raised)).length
  let d := d.modArm a fun x => { x with cells := (numbered 0 x.cells).map upd }
  if raised = 0 then d else d.bumpBy (0x5401 + a) 5 6 raised

/-- Firing and serialisation of a tick (R51, R265 to R275, R285, R327 to R332). -/
def Device.fire (d : Device) : Device :=
  let outs := d.presentArms.flatMap d.armCommands
  let lanes := (List.range 32).filter d.sendsOn
  let d' := lanes.foldl (fun d l => d.sendFrame outs l) d
  d.presentArms.foldl (fun d a => d.keepSent a outs) d'

end Sys2Proof.Machine
end

