-- ==== Sys2Proof/Machine/Lanes.lean ====
section
/-! DEFINITION. The Minak lanes (spec/09_minak_lanes.md) and what arrives on them (spec/10_minak_frames.md): the lane state machine,
lane faults and their reactions, the upstream frame, the report latch and the judgement of the latched frame. -/
namespace Sys2Proof.Machine

/-- The index of a lane's object. -/
def laneIdx (l : Nat) : Nat := 0x5530 + l

/-! ### State and messages -/

/-- Enter a lane state, shown with the maps of 0x5500 (Table 9.8). -/
def Device.setLaneState (d : Device) (l st : Nat) : Device :=
  let d := ((((d.wr (laneIdx l) 5 st).wrBit 0x5500 1 l (st == 8)).wrBit 0x5500 2 l (st == 9)).wrBit 0x5500 3 l (st == 7))
  d.modLane l fun x => { x with since := d.tick }

/-- The state of a lane has lasted for `us` µs. -/
def Device.laneLasted (d : Device) (l us : Nat) : Bool := decide (d.tick ≥ (d.lane l).since + d.ticksOf us)

/-- The bring-up message a lane sends (Table 9.4): the first of the repetitions of R304. How often the message before it went out is a
free value (assumption log 26). -/
def Device.sendMessage (d : Device) (l typ body : Nat) : Device :=
  let d := d.modLane l fun x => { x with
    message := typ * 2 ^ 48 + l * 2 ^ 40 + body % 2 ^ 40, sends := x.sends + 1 + Config.freeWord d.free }
  { d with free := d.free + 1 }

/-- Send TRAIN with the message counter (Table 9.4). -/
def Device.sendTrain (d : Device) (l : Nat) : Device :=
  d.sendMessage l 1 (d.rd 0x2020 1 % 2 * 2 ^ 38 + field (d.rd 0xA000 1) 1 6 * 2 ^ 32 + (d.lane l).sends % 2 ^ 32)

/-- Send RANGE_REQ; the ENG cycle count at which its first bit leaves is a free value (assumption log 26). -/
def Device.sendRangeReq (d : Device) (l : Nat) : Device := d.sendMessage l 6 (Config.freeWord (d.free + 1) % 2 ^ 24)

/-- Enter LIMITED, in which the lane sends IDLE (R310). -/
def Device.laneLimited (d : Device) (l : Nat) : Device := (d.setLaneState l 7).modLane l fun x => { x with message := 0 }

/-- A message of bits [55:0] `w` is received: it acts once it has come twice in a row (R304). -/
def Device.heard (d : Device) (l w : Nat) (f : Device → Device) : Device :=
  let twice := (d.lane l).seen == some w
  let d := d.modLane l fun x => { x with seen := some w }
  if twice then f d else d

/-- The bits [55:0] of a message received with type `typ`, LANE field `lf` and bits [39:0] `body` (Table 9.4). -/
def messageWord (typ lf body : Nat) : Nat := typ * 2 ^ 48 + lf % 256 * 2 ^ 40 + body % 2 ^ 40

/-- Rate codes the lane may use on its way: the concentrator's mask (R305). -/
def Device.rateAllowed (d : Device) (l r : Nat) : Bool := bit (d.rd (laneIdx l) 0x0C) r

/-- The highest allowed rate code at or below `cap`. -/
def Device.topRate (d : Device) (l cap : Nat) : Option Nat :=
  ((List.range 4).reverse).find? fun r => r ≤ cap && d.rateAllowed l r

/-- The next allowed rate code above the rate in force. -/
def Device.nextRate (d : Device) (l : Nat) : Option Nat :=
  (List.range 4).find? fun r => r > d.rd (laneIdx l) 6 && d.rateAllowed l r

/-- The previous allowed rate code below the rate in force; 0 where there is none. -/
def Device.prevRate (d : Device) (l : Nat) : Nat :=
  (((List.range 4).reverse).find? fun r => r < d.rd (laneIdx l) 6 && d.rateAllowed l r).getD 0

/-! ### Feasibility (R51, R52, R311, R313) -/

/-- Block time on the line in 0.01 ns (Table 9.2). -/
def blockTime (rate : Nat) : Nat := [6400, 2560, 1056, 528].getD rate 6400

/-- Serialisation time of a frame of `bits` data bits in 0.01 ns (R311). -/
def frameTime (bits rate : Nat) : Nat := (frameBlocks bits + 1) * blockTime rate

/-- The slack of R51 in ns for `n` cells at `rate`, tick period `us` and fibre delay `fibre` (R313). -/
def downSlack (n rate us fibre : Nat) : Int :=
  (((100000 * us : Nat) : Int) - 240000 - frameTime (24 * n + 320) rate - (100 * fibre : Nat)) / 100

/-- The slack of R52 in ns. -/
def upSlack (n rate us fibre : Nat) : Int :=
  (((100000 * us : Nat) : Int) - 20000 - frameTime (64 * n) rate - (100 * fibre : Nat)) / 100

/-- Show both slacks for the rate in force; 0 for a lane without cells (assumption log 27). -/
def Device.showSlack (d : Device) (l : Nat) : Device :=
  let i := laneIdx l
  let n := d.laneCells l
  if n = 0 then (d.wr i 9 0).wr i 0x0A 0
  else (d.wrI i 9 (downSlack n (d.rd i 6) d.period (d.rd i 8))).wrI i 0x0A (upSlack n (d.rd i 6) d.period (d.rd i 8))

/-- The conditions of R310 (assumption log 27). -/
def Device.laneFeasible (d : Device) (l : Nat) : Bool :=
  let i := laneIdx l
  let r := d.rd i 6
  decide (r ≥ 2) && decide (r ≥ d.rd i 3) && decide (downSlack (d.laneCells l) r d.period (d.rd i 8) ≥ 0)
    && decide (upSlack (d.laneCells l) r d.period (d.rd i 8) ≥ 0)

/-- The first frame after bring-up carries BLOCK (Table 8.1). -/
def Device.resetCommands (d : Device) (l : Nat) : Device :=
  (d.armsOnLane l).foldl (fun d a => d.modArm a fun x => { x with
    cells := (numbered 0 x.cells).map fun y => if d.cellAt a y.1 / 256 = l then { y.2 with cmd := 0x400 } else y.2 }) d

/-- At its top rate a lane enters OPERATIONAL or LIMITED (R310); a withdrawn unit may then ask for resynchronisation (R317)
(assumption log 27). -/
def Device.judgeLane (d : Device) (l : Nat) : Device :=
  let d := d.showSlack l
  if d.laneFeasible l then
    let d := (d.setLaneState l 8).resetCommands l
    let d := d.sendMessage l 0x0A (d.rd (laneIdx l) 6 * 2 ^ 36)
    (d.modLane l fun x => { x with t0s := 0, misses := 0, errRun := 0, seqRun := 0, held := none, took := false }).askResync
  else d.laneLimited l

/-! ### Lane faults (R315 to R318) -/

/-- A pole with an arm on the lane that is ENERGISING or DEBLOCKED. -/
def Device.liveOnLane (d : Device) (l p : Nat) : Bool := (d.armsOnLane l).any fun a => poleOf a == p && d.armLive a

/-- An arm on the lane is ENERGISING or DEBLOCKED. -/
def Device.laneLive (d : Device) (l : Nat) : Bool := (d.armsOnLane l).any d.armLive

/-- The peer is in STANDBY-SYNC with lane `l` OPERATIONAL (R316). -/
def Device.peerHasLane (d : Device) (l : Nat) : Bool := d.twinProfile && d.peerShows 2 0 && bit d.peerBody (384 + l)

/-- The reaction to a lane fault in OPERATIONAL, which acts at the next tick boundary (R316 to R318, R444). -/
def Device.laneReaction (d : Device) (l : Nat) : Device :=
  if d.twinProfile && d.unit ≠ 3 then (if d.laneCells l = 0 then d else d.loseSync)
  else if d.twinProfile && d.twin.leaveActive then d
  else if !d.laneLive l then d
  else if d.peerHasLane l then d.leaveRole
  else [0, 1].foldl (fun d p => if d.liveOnLane l p then d.tripPole p 9 else d) d

/-- A lane enters FAULT with a cause of Table 9.6: the transmitter goes quiet, the entry is counted and recorded (assumption log 78). -/
def Device.laneFault (d : Device) (l cause : Nat) : Device :=
  let i := laneIdx l
  let op := d.laneState l = 8
  let trips := op && d.laneLive l && !(d.twinProfile && (d.unit ≠ 3 || d.twin.leaveActive || d.peerHasLane l))
  let d := ((d.setLaneState l 9).wr i 0x0E cause).wr i 0x0F d.tick
  let d := ((d.wr i 6 0).bump i 0x10 0x11).bump 0x5500 5 6
  let d := (d.event i 0x10 (if trips then lvTrip else lvWarn) []).noteTrigger 5
  let d := d.modLane l fun x => { x with
    message := 0, held := none, took := false, gotTrain := false, gotCap := false, gotId := false, config := none, echoes := []
    seen := none, echoed := none, aligned := false, clean := false, stale := true }
  if op then d.laneReaction l else d

/-- LOS_ASSERT (R297, R315). The receiver of an unused lane is not monitored (R24). -/
def execLosAssert (l : Nat) (s : State) : Out :=
  s.run fun d =>
    if l ≥ 32 || (d.lane l).los || d.laneState l = 0 then d
    else
      let d := (d.modLane l fun x => { x with los := true }).bump (laneIdx l) 0x12 0x13
      if d.laneState l = 8 then d.laneFault l 1 else d

/-- LOS_CLEAR (R297). -/
def execLosClear (l : Nat) (s : State) : Out := s.run fun d => d.modLane l fun x => { x with los := false }

/-- LOL_ASSERT (R298, R315). The receiver of an unused lane is not monitored (R24). -/
def execLolAssert (l : Nat) (s : State) : Out :=
  s.run fun d =>
    if l ≥ 32 || (d.lane l).lol || d.laneState l = 0 then d
    else
      let d := (d.modLane l fun x => { x with lol := true }).bump (laneIdx l) 0x14 0x15
      if d.laneState l = 8 then d.laneFault l 2 else d

/-- LOL_CLEAR (R298). -/
def execLolClear (l : Nat) (s : State) : Out := s.run fun d => d.modLane l fun x => { x with lol := false }

/-- Manual alignment mode (R301). -/
def Device.manualAlign (d : Device) (l : Nat) : Bool := d.rd (laneIdx l) 0x47 == 1

/-- ALIGNMENT_LOST (R299, R301, R315) (assumption log 26). -/
def execAlignmentLost (l : Nat) (s : State) : Out :=
  s.run fun d =>
    if l ≥ 32 || !(d.lane l).aligned then d
    else
      let d := (d.modLane l fun x => { x with aligned := false, clean := false }).bump (laneIdx l) 0x16 0x17
      let d := d.wr (laneIdx l) 0x4A 0
      if d.laneState l = 8 || (d.manualAlign l && 3 ≤ d.laneState l && d.laneState l ≠ 9) then d.laneFault l 3 else d

/-! ### Bring-up (Table 9.3) -/

/-- SIGNAL_SETTLED (R302): LOS and LOL both clear for 10 µs. -/
def execSignalSettled (l : Nat) (s : State) : Out :=
  s.run fun d =>
    if d.laneState l = 1 && !(d.lane l).los && !(d.lane l).lol then
      ((d.setLaneState l 2).wr (laneIdx l) 0x49 0).wr (laneIdx l) 0x4A 0
    else d

/-- Word width at a rate: 10 bits at 8b/10b, 66 at 64b/66b. -/
def wordWidth (rate : Nat) : Nat := if rate < 2 then 10 else 66

/-- ALIGNMENT_ACHIEVED (R299 to R302): the receiver has seen `words` consecutive valid words at bit position `pos`; it is aligned from 64 on,
and the count is shown below that too (R301). -/
def execAlignmentAchieved (l pos words : Nat) (s : State) : Out :=
  s.run fun d =>
    let i := laneIdx l
    let st := d.laneState l
    if !(st = 2 || st = 6) then d
    else
      let d := (if d.manualAlign l then d else d.wr i 0x49 (pos % wordWidth (d.rd i 6))).wr i 0x4A (min words 65535)
      if words < 64 then d else
      let d := d.modLane l fun x => { x with aligned := true }
      if st = 2 then
        ((d.setLaneState l 3).modLane l fun x => { x with
          gotTrain := false, gotCap := false, gotId := false, config := none, seen := none }).sendTrain l
      else d

/-- ALIGNMENT_SEARCH_FAIL (R300): an automatic search ends without alignment. -/
def execAlignmentSearchFail (l : Nat) (s : State) : Out :=
  s.run fun d => if d.laneState l = 2 && !d.manualAlign l then d.setLaneState l 1 else d

/-- BIT_SLIP (R301): a write of 0x01 to 0x5530 + l .48. -/
def execBitSlip (l : Nat) (s : State) : Out :=
  s.run fun d =>
    let i := laneIdx l
    if l ≥ 32 then d
    else d.sdo i 0x48 1 1 fun d =>
      if d.manualAlign l then (d.wr i 0x49 ((d.rd i 0x49 + 1) % wordWidth (d.rd i 6))).wr i 0x4A 0
      else d.abort i 0x48 0x08000022

/-- Once TRAIN, CAPABILITY and IDENTITY are in: the checks of R309 (cause 6 before 7), then CONFIG. -/
def Device.handshake (d : Device) (l : Nat) : Device :=
  let i := laneIdx l
  let x := d.lane l
  if !(x.gotTrain && x.gotCap && x.gotId) || x.config.isSome then d
  else if d.rd i 4 ≠ 0 && d.rd i 4 ≠ d.rd i 0x0B then d.laneFault l 6
  else
    match d.topRate l (min (d.rd i 2) (d.rd 0x5500 4)) with
    | none => d.laneFault l 7
    | some top =>
      if d.rd i 0x0C / 16 < d.rd i 1 then d.laneFault l 7
      else
        let body := d.rd 0x2010 2 % 4 * 2 ^ 38 + top * 2 ^ 34 + d.rd i 1 % 512 * 2 ^ 25 + d.rd 0x5501 1 % 16 * 2 ^ 21
        ((d.wr i 7 top).modLane l fun x => { x with config := some body }).sendMessage l 4 body

/-- A message of HANDSHAKE whose LANE field does not echo l is a fault of cause 8 (R309). -/
def Device.inHandshake (d : Device) (l lf : Nat) (f : Device → Device) : Device :=
  if d.laneState l ≠ 3 then d else if lf ≠ l then d.laneFault l 8 else f d

/-- A lane in TRAIN is falling back to the previous rate: RATE_ACK is awaited (R307). -/
def Device.fallingBack (d : Device) (l : Nat) : Bool := (d.lane l).stepTo != d.rd (laneIdx l) 6

/-- TRAIN_RECEIVED (R304, R307, R309): a TRAIN received twice; in TRAIN `cleanUs` says for how many µs it has come without an invalid
word. -/
def execTrainReceived (l lf cleanUs : Nat) (s : State) : Out :=
  s.run fun d =>
    let d := d.modLane l fun x => { x with seen := none }
    if d.laneState l = 6 then
      if !d.fallingBack l && (d.lane l).aligned && cleanUs ≥ 100 then
        (d.modLane l fun x => { x with clean := true }).sendMessage l 0x0A (d.rd (laneIdx l) 6 * 2 ^ 36)
      else d
    else d.inHandshake l lf fun d => (d.modLane l fun x => { x with gotTrain := true }).handshake l

/-- CAPABILITY_RECEIVED (R305, R309). -/
def execCapabilityReceived (l lf mask largest : Nat) (s : State) : Out :=
  s.run fun d => d.heard l (messageWord 2 lf (mask % 16 * 2 ^ 36 + largest % 512 * 2 ^ 27)) fun d => d.inHandshake l lf fun d =>
    ((d.wr (laneIdx l) 0x0C (mask % 16 + largest % 512 * 16)).modLane l fun x => { x with gotCap := true }).handshake l

/-- IDENTITY_RECEIVED (R309). -/
def execIdentityReceived (l lf version identity : Nat) (s : State) : Out :=
  s.run fun d => d.heard l (messageWord 3 lf (version % 256 * 2 ^ 32 + identity % 2 ^ 32)) fun d => d.inHandshake l lf fun d =>
    (((d.wr (laneIdx l) 0x0D version).wr (laneIdx l) 0x0B identity).modLane l fun x => { x with gotId := true }).handshake l

/-- CONFIG_ACK_RECEIVED (R302): `body` is bits [39:0]. -/
def execConfigAckReceived (l lf body : Nat) (s : State) : Out :=
  s.run fun d => d.heard l (messageWord 5 lf body) fun d => d.inHandshake l lf fun d =>
    match (d.lane l).config with
    | none => d
    | some c =>
      if body % 2 ^ 40 = c then ((d.setLaneState l 4).modLane l fun x => { x with echoes := [], echoed := none }).sendRangeReq l
      else d.laneFault l 8

/-- NACK_RECEIVED (R309): reasons 1 to 3 are cause 7, reason 4 and any other cause 8 (assumption log 26). -/
def execNackReceived (l lf reason : Nat) (s : State) : Out :=
  s.run fun d => d.heard l (messageWord 0x0B lf (reason % 256 * 2 ^ 32)) fun d => d.inHandshake l lf fun d =>
    d.laneFault l (if 1 ≤ reason && reason ≤ 3 then 7 else 8)

/-- HANDSHAKE_TIMEOUT (R302): 20 ms in HANDSHAKE. -/
def execHandshakeTimeout (l : Nat) (s : State) : Out :=
  s.run fun d => if d.laneState l = 3 && d.laneLasted l 20000 then d.laneFault l 8 else d

/-- RANGING_TIMEOUT (R302): 20 ms in RANGING. -/
def execRangingTimeout (l : Nat) (s : State) : Out :=
  s.run fun d => if d.laneState l = 4 && d.laneLasted l 20000 then d.laneFault l 8 else d

/-- STEP_TIMEOUT (R302): 2 ms in STEP. -/
def execStepTimeout (l : Nat) (s : State) : Out :=
  s.run fun d => if d.laneState l = 5 && d.laneLasted l 2000 then d.laneFault l 8 else d

/-- Send RATE with a new rate and countdown 15 (R306). -/
def Device.sendRate (d : Device) (l r : Nat) : Device :=
  (d.modLane l fun x => { x with stepTo := r }).sendMessage l 8 (r * 2 ^ 36 + 15 * 2 ^ 32)

/-- Step up to the next rate (R306). -/
def Device.stepUp (d : Device) (l : Nat) : Device :=
  match d.nextRate l with
  | some r => (d.setLaneState l 5).sendRate l r
  | none => d.laneLimited l

/-- Greatest of a list of integers. -/
def maxInt (xs : List Int) : Int := xs.foldl max (xs.headD 0)

/-- Least of a list of integers. -/
def minInt (xs : List Int) : Int := xs.foldl min (xs.headD 0)

/-- RANGE_ECHO_RECEIVED (R304, R308): an echo of the request being sent, with its cycle count: the round trip in ENG cycles, rounded up
and corrected, and the turnaround in ns. A further repetition of the echo taken last gives no value (assumption log 26). -/
def execRangeEchoReceived (l cycles dc : Nat) (s : State) : Out :=
  s.run fun d =>
    let w := messageWord 7 l (dc % 2 ^ 16 * 2 ^ 24 + (d.lane l).message % 2 ^ 24)
    d.heard l w fun d =>
    if d.laneState l ≠ 4 || (d.lane l).echoed = some w then d
    else
      let i := laneIdx l
      let d := d.modLane l fun x => { x with echoed := some w }
      let v : Int := ((5 * cycles : Nat) : Int) - (4 * dc : Nat)
      let es := (v :: (d.lane l).echoes).take 16
      let d := d.modLane l fun x => { x with echoes := es }
      if es.length = 16 && decide (maxInt es - minInt es ≤ (8 * d.rd i 0x4D : Nat)) then
        let d := (d.wr i 8 ((maxInt es + 7) / 8).toNat).showSlack l
        if d.rd i 6 < d.rd i 7 then d.stepUp l else d.laneLimited l
      else d.sendRangeReq l

/-- RATE_ACK_RECEIVED (R306, R307): the countdown follows, then the rate changes and TRAIN is sent (assumption log 26). -/
def execRateAckReceived (l rate : Nat) (s : State) : Out :=
  s.run fun d => d.heard l (messageWord 9 l (rate % 16 * 2 ^ 36)) fun d =>
    if rate = (d.lane l).stepTo && (d.laneState l = 5 || (d.laneState l = 6 && d.fallingBack l)) then
      (((d.setLaneState l 6).wr (laneIdx l) 6 rate).modLane l fun x => { x with aligned := false, clean := false }).sendTrain l
    else d

/-- READY_RECEIVED (R307, R310): training at a rate completes. -/
def execReadyReceived (l rate : Nat) (s : State) : Out :=
  s.run fun d => d.heard l (messageWord 0x0A l (rate % 16 * 2 ^ 36)) fun d =>
    let i := laneIdx l
    if d.laneState l = 6 && !d.fallingBack l && rate = d.rd i 6 && (d.lane l).aligned && (d.lane l).clean then
      if rate < d.rd i 7 then d.stepUp l else d.judgeLane l
    else d

/-- TRAINING_TIMEOUT (R302, R306, R307): the lane has not trained for 0x5530 + l .4C: it falls back one rate through a rate step, in TRAIN,
and that rate becomes the top rate. With no lower rate it trains on. -/
def execTrainingTimeout (l : Nat) (s : State) : Out :=
  s.run fun d =>
    let i := laneIdx l
    if d.laneState l ≠ 6 || !d.laneLasted l (1000 * d.rd i 0x4C) then d
    else
      let r := d.prevRate l
      let d := ((d.wr i 7 r).bump i 0x18 0x19).setLaneState l 6
      let d := d.modLane l fun x => { x with aligned := false, clean := false }
      if r = d.rd i 6 then d.sendTrain l else d.sendRate l r

/-- LANE_QUIET_EXPIRY (R302): 1 ms quiet in FAULT (assumption log 29). -/
def execLaneQuietExpiry (l : Nat) (s : State) : Out :=
  s.run fun d =>
    if d.laneState l = 9 && d.laneCells l ≠ 0 && d.laneLasted l 1000 then ((d.setLaneState l 1).wr (laneIdx l) 6 0).wr (laneIdx l) 7 0 else d

/-- Retrain a lane in use through FAULT (assumption log 25, 29). -/
def Device.laneRetrain (d : Device) (l cause : Nat) : Device := if d.laneState l = 0 then d else d.laneFault l cause

/-- LANE_RETRAIN (R319): a write of 0x01 to 0x5530 + l .1A. -/
def execLaneRetrain (l : Nat) (s : State) : Out :=
  s.run fun d =>
    let i := laneIdx l
    if l ≥ 32 then d
    else d.sdo i 0x1A 1 1 fun d =>
      if d.laneLive l then d.abort i 0x1A 0x08000022
      else (d.forward 2 [odKey i 0x1A, d.tick + 1, 1]).laneRetrain l 9

/-- Hold a single write of a lane setting; a later one of the same entry replaces it (R319) (assumption log 79). -/
def Device.holdLaneWrite (d : Device) (l sub v : Nat) : Device :=
  d.modLane l fun x => { x with writes := (x.writes.filter fun w => w.1 != sub) ++ [(sub, v)] }

/-- LANE_CHANGE_EFFECT (R319): held settings take effect once every arm on the lane is BLOCKED, and retrain it (assumption log 79). -/
def execLaneChangeEffect (l : Nat) (s : State) : Out :=
  s.run fun d =>
    let ws := (d.lane l).writes
    if ws.isEmpty || d.laneLive l then d
    else
      let d := ws.foldl (fun d w => d.wr (laneIdx l) w.1 w.2) d
      (d.modLane l fun x => { x with writes := [] }).laneRetrain l 10

/-- A lane at configuration activation (Table 9.3): `changed` says whether one of its retraining settings changed (assumption log 25). -/
def Device.laneActivate (d : Device) (l : Nat) (changed : Bool) : Device :=
  let d := d.modLane l fun x => { x with writes := [] }
  let d := if d.laneCells l = 0 then
    if d.laneState l = 0 then d
    else ((d.setLaneState l 0).wr (laneIdx l) 6 0).modLane l fun x => { Lane.reset with los := x.los, lol := x.lol }
  else if d.laneState l = 0 then (d.setLaneState l 1).wr (laneIdx l) 6 0
  else if changed then d.laneFault l 10
  else if d.laneState l = 7 then d.judgeLane l
  else d
  d.showSlack l

/-- A tick-period change as the lanes see it (R310, R313). -/
def Device.lanesPeriod (d : Device) : Device :=
  (List.range 32).foldl (fun d l => if d.laneState l = 7 then d.judgeLane l else d.showSlack l) d

/-! ### Upstream frames (R333 to R339) -/

/-- UPSTREAM_FRAME (R336): a frame with header `head` and stream bytes `stream` arrives on lane `l` (assumption log 28). -/
def execUpstreamFrame (l head : Nat) (stream : List Nat) (s : State) : Out :=
  s.run fun d =>
    if l ≥ 32 || d.laneState l ≠ 8 then d
    else
      let n := d.laneCells l
      let data := streamData (8 * n) (8 * n) stream
      let body := withCrcs (beBytes 7 head) (segments data.length data)
      let ok := data.length == 8 * n && body == stream.take body.length && field head 0 4 == 1 && field head 16 8 == l
        && field head 7 9 == n
      if ok then
        let reports := (List.range n).map fun k => beNat ((data.drop (8 * k)).take 8)
        d.modLane l fun x => { x with
          held := some ⟨field head 40 16, field head 32 8, field head 24 8, field head 4 3, reports⟩ }
      else d.bump (0x5550 + l) 3 4

/-- Judge the latched frame of a lane (R338, R339, R412, R445, and condition 0 of R446). -/
def Device.judgeFrame (d : Device) (l : Nat) (f : UpFrame) : Device :=
  let i := 0x5550 + l
  let flag := fun (k : Nat) => bit f.flags k
  let cnt := fun (d : Device) (b : Bool) (sub : Nat) => if b then d.bump i sub (sub + 1) else d
  let hold := flag 7
  let seqBad := !hold && f.aseq != (d.tick + 2 ^ 16 - 2) % 2 ^ 16
  let echoes := (f.reports.filter fun r => field r 16 8 != f.aseq % 256).length
  let derr := flag 3 || flag 2
  let own := d.rd 0x2020 1 % 2
  let src := b2n (flag 4)
  let d := cnt d seqBad 5
  let d := if echoes = 0 then d else d.bumpBy i 7 8 echoes
  let d := cnt d (flag 5) 9
  let d := if flag 5 then d.wr i 0x17 d.tick else d
  let d := cnt (cnt (cnt (cnt (cnt d derr 0x0B) hold 0x0D) (flag 6) 0x0F) (bit f.low 2) 0x11) (src != own) 0x13
  let d := ((d.wr i 0x15 (f.flags % 256 + f.low % 8 * 256)).wr i 0x16 f.aseq)
  let x := d.lane l
  let err := if derr then x.errRun + 1 else 0
  let sq := if hold then x.seqRun else if seqBad then x.seqRun + 1 else 0
  let d := d.modLane l fun x => { x with errRun := err, seqRun := sq }
  let lim := d.rd 0x5501 3
  let sub := if flag 6 && d.laneLive l then 1 else if err ≥ lim then 2 else if sq ≥ lim then 3 else 0
  let d := if d.twinProfile then
      let d := if d.lease.valid && src ≠ own && newer 8 d.lease.epoch f.aepoch then d.flagFall.leaveRole else d
      let d := d.learnEpoch f.aepoch
      d.disputeStep 0 (d.lease.valid && bit f.low 2) (d.rd 0x8000 0x42)
    else d
  if sub = 0 then d else (d.wr i 0x18 sub).laneFault l 5

/-- Count a report miss (R78): the sticky bit stands in 0x5521. -/
def Device.countMiss (d : Device) (l : Nat) : Device :=
  let v := d.rd 0x5520 (l + 1) + 1
  if v ≥ 2 ^ 32 - 1 then
    ((d.wr 0x5520 (l + 1) (2 ^ 32 - 1)).wr 0x5521 (l + 1) 1).wrBit 0x9000 0x01 (stickyFamily 0x5521) true
  else d.wr 0x5520 (l + 1) v

/-- The report latch of one lane (R50, R78, R79, R314, R337). -/
def latchLane (d : Device) (l : Nat) : Device :=
  if d.laneState l ≠ 8 then d.modLane l fun x => { x with took := false, stale := true }
  else
    let x := d.lane l
    let t := x.t0s + 1
    let d := d.modLane l fun x => { x with t0s := min t 1000, held := none, sent := false }
    match x.held with
    | some f =>
      let d := d.modLane l fun x => { x with took := true, stale := false, misses := 0, old := x.reports, reports := f.reports }
      d.judgeFrame l f
    | none =>
      let d := d.modLane l fun x => { x with took := false, stale := true }
      if t ≤ 2 then d
      else
        let d := d.countMiss l
        let m := x.misses + 1
        let d := d.modLane l fun x => { x with misses := m }
        if m ≥ 3 then d.laneFault l 4 else d

/-- The report latch of a T0, and conditions 1 and 2 of R446 over the frames it took. -/
def Device.reportLatch (d : Device) : Device :=
  let frames := (List.range 32).filterMap fun l => if d.laneState l = 8 then (d.lane l).held else none
  let own := d.rd 0x2020 1 % 2
  let shows := fun (src : Nat) => frames.filter fun f => b2n (bit f.flags 4) == src && !bit f.low 1
  let d' := (List.range 32).foldl latchLane d
  if !d.twinProfile || frames.isEmpty then d'
  else
    let k := d.rd 0x8000 0x42
    let c1 := d.lease.valid && (shows (1 - own)).any fun f => f.aepoch == d.lease.epoch % 256
    let c2 := !d.lease.valid && decide (d.lease.noLease > 2) && !(shows own).isEmpty
    (d'.disputeStep 1 c1 k).disputeStep 2 c2 k

/-- The digest of the latched reports (Table 13.7, LDIG), lanes ascending. -/
def Device.latchDigest (d : Device) : Nat :=
  crc32c ((List.range 32).flatMap fun l => if (d.lane l).took then (d.lane l).reports.flatMap (beBytes 8) else [])

/-- The latch map of the tick (LMAP). -/
def Device.latchMap (d : Device) : Nat :=
  (List.range 32).foldl (fun m l => if (d.lane l).took then m + 2 ^ l else m) 0

/-- A standby aligns its latch to the TICK record (R427); where it cannot follow it sends SYNC = 0 and leaves. -/
def Device.alignLatch (d : Device) : Device :=
  match d.forwarded? with
  | none => d
  | some r =>
    let d := (List.range 32).foldl (fun d l =>
      if (d.lane l).took && !bit r.lmap l then
        d.modLane l fun x => { x with took := false, stale := true, reports := x.old }
      else d) d
    if d.latchMap ≠ r.lmap || d.latchDigest ≠ r.ldig then d.loseSync.modTwin fun t => { t with diverged := true } else d

end Sys2Proof.Machine
end

