-- ==== Sys2Proof/Machine/Pipeline.lean ====
section
/-! DEFINITION. The pipeline of a tick after its T0 (spec/02_control_tick.md, Table 2.2): the three deadlines, slips and the plant
fault, and what a completed tick leaves. -/
namespace Sys2Proof.Machine

/-- A plant fault (R60): no frame leaves from that instant, FAULT_N, the lease released, FAULT. A trial boot that has not reached
READY is rolled back (R603). -/
def Device.plantFault (d : Device) : Device :=
  let d : Device := { d with lanes := d.lanes.map fun (x : Lane) => { x with sent := false } }
  if d.inTrial then d.enterFault.automaticRollback else d.enterFault

/-- An arm slips at a stage, once per tick (R54, R58, R59): a third consecutive slip of a live arm is a plant fault, of a blocked arm an
event (R60); a standby leaves STANDBY-SYNC (R432) (assumption log 47). -/
def Device.slipArm (d : Device) (stage a : Nat) : Device :=
  let i := armIdx 0x4001 a
  if !d.armPresent a || (d.arm a).slip ≠ 0 then d
  else
    let was := d.rd i 3
    let d := (d.modArm a fun x => { x with slip := stage }).bump i 1 2
    let d := (((d.wr i 3 (min 3 (was + 1))).wr i 4 d.tick).wr i 5 stage).noteTrigger 12
    let d := if d.twinProfile && d.unit = 2 then d.loseSync else d
    if was + 1 < 3 || d.boot.plState = 12 then d
    else if d.armLive a then d.plantFault
    else if was = 2 then d.event i 1 lvWarn []
    else d

/-- The arms named in a mask slip (assumption log 47). -/
def Device.slipMask (d : Device) (stage mask : Nat) : Device :=
  (List.range 12).foldl (fun d a => if bit mask a then d.slipArm stage a else d) d

/-- The plant half runs its pipeline. -/
def Device.ticking (d : Device) : Bool := d.timer.running && !d.boot.plantHeld

/-- The engines compute the tick within the tick: a unit in STANDBY-UNSYNC, RESYNC or OUT-OF-SERVICE computes no arm then (R408)
(assumption log 64). -/
def Device.enginesRun (d : Device) : Bool := !d.twinProfile || d.unit == 2 || d.unit == 3

/-- Set the stage of the tick in progress. -/
def Device.setStage (d : Device) (k : Nat) : Device := { d with timer := { d.timer with stage := k } }

/-- MEASUREMENT_DEADLINE (R54, R91 to R97, R128, R427): at T0 + 0.20 µs arms without a valid arm current slip, the consumers take their
values and the control engine runs; `late` marks channels whose value has not landed. The metering engine takes its values in every unit
state (R395). The control engine and core pair 3 of a unit in STANDBY-SYNC read the forwarded values; the local ones count as taken
then, which is the model's choice (assumption log 40). -/
def execMeasurementDeadline (late : Nat) (s : State) : Out :=
  s.run fun d =>
    if !d.ticking || d.timer.stage ≠ 0 then d
    else
      let d := (d.setStage 1).takeAll 2
      if !d.enginesRun then d else
      let d := if d.twinProfile && d.unit = 2 then d.alignLatch.automaticBypass.cellImages else d
      let d := d.takeAll 1
      let d := d.presentArms.foldl (fun d a =>
        let ch := d.rd (armIdx 0x4010 a) 1
        if ch < 32 && (bit late ch || !resultValid (d.result ch)) then d.slipArm 1 a else d) d
      if d.boot.plState = 12 && d.boot.safeState then d else d.controlEngine

/-- CONTROL_ENGINE_DEADLINE (R54, R227): at T0 + 1.40 µs the arms of `incomplete` slip and the Rank engine runs. -/
def execControlEngineDeadline (incomplete : Nat) (s : State) : Out :=
  s.run fun d =>
    if !d.ticking || d.timer.stage ≠ 1 then d
    else if !d.enginesRun then d.setStage 2
    else ((d.setStage 2).slipMask 2 incomplete).rankEngine

/-- An arm that completed its tick keeps its results (R59, R135, R228). -/
def Device.commitArm (d : Device) (a : Nat) : Device :=
  let x := d.arm a
  match x.eng, x.rank with
  | some e, some r =>
    if x.slip ≠ 0 then d
    else
      let vs := d.availVolts a
      let mean : Rat := if vs.isEmpty then x.ubar else ((vs.foldl (· + ·) 0 : Nat) : Rat) / 8 / (vs.length : Rat)
      (((d.modArm a fun y => { y with ubar := mean }).wr (armIdx 0x4001 a) 3 0).engineCommit a e).rankCommit a r
  | _, _ => d

/-- An arm that the engine leaves as it was: deblocked or energising with no available cell (R120). -/
def Device.armInert (d : Device) (a : Nat) (o : EngOut) : Bool := d.armLive a && o.nav == 0

/-- A leg whose two arms completed keeps A and φ as they have moved, unless an arm of it is left as it was (R120, R127, R135). -/
def Device.commitLeg (d : Device) (a : Nat) : Device :=
  match (d.arm a).eng, (d.arm a).rank, (d.arm (a + 3)).eng, (d.arm (a + 3)).rank with
  | some e, some _, some f, some _ =>
    if (d.arm a).slip = 0 && (d.arm (a + 3)).slip = 0 && !d.armInert a e && !d.armInert (a + 3) f then d.legCommit a e else d
  | _, _, _, _ => d

/-- Completed arms and legs keep their results. -/
def Device.commitTick (d : Device) : Device :=
  [0, 1, 2, 6, 7, 8].foldl Device.commitLeg (d.presentArms.foldl Device.commitArm d)

/-- RANK_ENGINE_DEADLINE (R51, R54 to R61, R228, R265): at T0 + 2.20 µs the arms of `incomplete` slip, completed arms keep their
results, and the firing generator builds and starts every frame. -/
def execRankEngineDeadline (incomplete : Nat) (s : State) : Out :=
  s.run fun d =>
    if !d.ticking || d.timer.stage ≠ 2 then d
    else
      let d := d.setStage 3
      if !d.enginesRun then d else
      let d := d.slipMask 3 incomplete
      if !d.ticking then d
      else
        d.commitTick.fire

end Sys2Proof.Machine
end

