-- ==== Sys2Proof/Machine/Protect.lean ====
section
/-! DEFINITION. Hard-wired protection and safety functions (spec/15_protection_and_safety.md): comparator pairs with their latches,
block mask and self-test, Safe Block with its two channels, safety inputs and permissive outputs, zero-energy monitoring and
FSoE.
Choices of the model: assumption log 56. -/
namespace Sys2Proof.Machine

/-! ### Comparator pairs (R482 to R491) -/

/-- Change the guard part. -/
def Device.modGuard (d : Device) (f : Guard → Guard) : Device := { d with guard := f d.guard }

/-- The index of a pair's object. -/
def pairIdx (j : Nat) : Nat := 0x7020 + j

/-- Pair `j` is enabled. -/
def Device.pairOn (d : Device) (j : Nat) : Bool := d.flag (pairIdx j) 1

/-- Comparator `k` is marked failed. -/
def Device.cmpFailed (d : Device) (k : Nat) : Bool := bit (d.rd 0x5700 2) k

/-- Comparator `k` is in service: enabled, not failed, not under test. -/
def Device.inService (d : Device) (k : Nat) : Bool := d.pairOn (k / 2) && !d.cmpFailed k && d.rd 0x5700 3 != k

/-- The other comparator of a pair. -/
def partnerOf (k : Nat) : Nat := if k % 2 = 0 then k + 1 else k - 1

/-- The trip condition of pair `j` is present (R490). -/
def Device.tripCondition (d : Device) (j : Nat) : Bool :=
  d.pairOn j && ((d.cmpFailed (2 * j) && d.cmpFailed (2 * j + 1))
    || [2 * j, 2 * j + 1].any fun k => d.inService k && bit d.guard.outside k)

/-- The latch of pair `j` is set. -/
def Device.latched (d : Device) (j : Nat) : Bool := bit (d.rd 0x5700 1) j

/-- The state of each pair, Table 15.17. -/
def Device.showPairs (d : Device) : Device :=
  (List.range 12).foldl (fun d j =>
    d.wr (pairIdx j) 0x0A (if !d.pairOn j then 0 else if d.latched j then 3
      else if d.cmpFailed (2 * j) || d.cmpFailed (2 * j + 1) then 2 else 1)) d

/-- Both BLOCK_OUT balls: run level only while every condition of R491 holds. -/
def Device.showBlockOut (d : Device) : Device :=
  let run := d.rd 0x5400 5 == 0 && d.rd 0x7000 2 == 0 && d.flag 0x7000 5 && d.guard.left && d.boot.plantClock
  d.wr 0x5700 4 (if run then 0 else 3)

/-- The block mask: the arms of every latched pair (R488); each rise of a bit is counted (R287). -/
def Device.showMask (d : Device) : Device :=
  let m := (List.range 12).foldl (fun m j => if d.latched j then Nat.lor m (d.rd (pairIdx j) 5) else m) 0
  let rises := ((List.range 12).filter fun a => bit m a && !d.masked a).length
  let d := if rises = 0 then d else d.bumpBy 0x5400 3 4 rises
  (d.wr 0x5400 5 m).showPairs.showBlockOut

/-- HBLK in the commands of a tick not yet serialised: `sent` gives for each lane how many positions have left (R285, R497)
(assumption log 57). -/
def Device.hblkNow (d : Device) (sent : List Nat) : Device :=
  { d with lanes := (numbered 0 d.lanes).map fun (x : Nat × Lane) =>
      match x.2.tx with
      | some f =>
        if x.2.sent then { x.2 with tx := some { f with cmds := hblkFrom (d.posMasked x.1) (sent.getD x.1 256) 0 f.cmds } } else x.2
      | none => x.2 }

/-- Pair `j` trips (R488): its latch, the mask, BLOCK_OUT, the count and the frames in flight. A test of the pair in progress is
discarded and repeated (Table 15.12). -/
def Device.pairTrip (d : Device) (j : Nat) (sent : List Nat) : Device :=
  if !d.pairOn j || d.latched j then d
  else
    let d := (d.wrBit 0x5700 1 j true).wr 0x5700 0x0E d.tick
    let d := ((d.bumpEvent 0x5700 5 6 lvTrip []).noteTrigger 3).showMask
    let d := if d.rd 0x5700 3 / 2 = j then d.modGuard fun g => { g with discard := true } else d
    d.hblkNow sent

/-- A cycle of the tick lies in a blanking window of pair `j` (R484). -/
def Device.blanked (d : Device) (j cycle : Nat) : Bool :=
  let i := pairIdx j
  let inside := fun (s n : Nat) => decide (s ≤ cycle) && decide (cycle < s + n)
  inside (d.rd i 6) (d.rd i 7) || inside (d.rd i 8) (d.rd i 9)

/-- COMPARATOR_TRIP (R483, R484, R488): comparator `k` has been outside for its qualification at ENG cycle `cycle` of the tick; each
lane `l` has serialised `sent[l]` commands. Inside a blanking window the count is held at 0. -/
def execComparatorTrip (k cycle : Nat) (sent : List Nat) (s : State) : Out :=
  s.run fun d =>
    let j := k / 2
    let from_ := d.guard.quals.getD j 0
    if d.boot.plantHeld || k ≥ 24 || !d.inService k || d.blanked j cycle then d
    else if from_ ≠ 0 && cycle < from_ + d.rd (pairIdx j) 4 then d
    else (d.modGuard fun g => { g with outside := setBit g.outside k true }).pairTrip j sent

/-- BLANKING_WINDOW_END (R484): window `w` (1 or 2) of pair `j` ends; qualification counts from there. -/
def execBlankingWindowEnd (j w : Nat) (s : State) : Out :=
  s.run fun d =>
    if j ≥ 12 || !d.pairOn j then d
    else
      let i := pairIdx j
      let e := if w = 2 then d.rd i 8 + d.rd i 9 else d.rd i 6 + d.rd i 7
      d.modGuard fun g => { g with quals := g.quals.set j e }

/-- The step of Table 15.2 after step `s` for pair `j`: a disabled side is skipped; a partner that stands in runs steps 1 to 3. -/
def Device.nextTestStep (d : Device) (j s last : Nat) : Option Nat :=
  [1, 2, 3, 4].find? fun t =>
    decide (s < t) && decide (t ≤ last) && !(t == 1 && d.rd (pairIdx j) 2 == 0) && !(t == 3 && d.rd (pairIdx j) 3 == 1023)

/-- Put comparator `k` under test from its first step. -/
def Device.testBegin (d : Device) (k : Nat) (swapped : Bool) : Device :=
  let st := (d.nextTestStep (k / 2) 0 (if swapped then 3 else 4)).getD 0
  (d.wr 0x5700 3 k).modGuard fun g => { g with step := st, again := false, discard := false, swapped := swapped }

/-- The test ends. -/
def Device.testEnd (d : Device) : Device :=
  (d.wr 0x5700 3 0xFF).modGuard fun g => { g with step := 0, again := false, discard := false, swapped := false }

/-- Mark comparator `k` failed at a step (R486); a pair with both failed trips, with the commands that `sent` leaves to serialise. -/
def Device.markFailed (d : Device) (k step : Nat) (sent : List Nat) : Device :=
  let d := ((d.wrBit 0x5700 2 k true).event 0x5700 2 lvWarn [(8, k), (8, step)]).showPairs
  if d.cmpFailed (partnerOf k) then d.pairTrip (k / 2) sent else d

/-- Commands that each lane has serialised of its frame: free values (assumption log 56). -/
def Device.freeSent (d : Device) : List Nat := (List.range 32).map fun l => Config.freeWord (d.free + l)

/-- The test interval 0x7000.09 has passed since a test began; the tests of SELF-TEST do not wait for it (R485, R487). -/
def Device.testDue (d : Device) : Bool :=
  !d.guard.left || (match d.guard.testAt with
    | some t => decide (d.tick ≥ t + d.ticksOf (1000 * d.rd 0x7000 9))
    | none => true)

/-- COMPARATOR_SELF_TEST (R485): once per test interval the next comparator is taken out of service. -/
def execComparatorSelfTest (s : State) : Out :=
  s.run fun d =>
    if d.boot.plantHeld || d.boot.pairsHalted || d.rd 0x5700 3 ≠ 0xFF || !d.testDue then d
    else
      let order := (List.range 24).map fun i => (d.guard.nextK + i) % 24
      match order.find? fun k => d.pairOn (k / 2) && !d.cmpFailed k && !d.cmpFailed (partnerOf k) with
      | none => d
      | some k => ((d.modGuard fun g => { g with nextK := (k + 1) % 24, testAt := some d.tick }).accum 0x5700 7 8 1).testBegin k false

/-- COMPARATOR_TEST_STEP (R485, R486): a 4 µs step ends, as expected or not. How many commands each lane has serialised, for a pair that
trips (R285), are free values. -/
def execComparatorTestStep (pass : Bool) (s : State) : Out :=
  s.run fun d =>
    let k := d.rd 0x5700 3
    let g := d.guard
    if k = 0xFF then d
    else if g.discard then d.modGuard fun g => { g with discard := false }
    else if pass then
      match d.nextTestStep (k / 2) g.step (if g.swapped then 3 else 4) with
      | some t => d.modGuard fun g => { g with step := t, again := false }
      | none =>
        let d := d.testEnd
        let sent := d.freeSent
        if g.swapped then (d.drawn 32).markFailed (partnerOf k) 4 sent |>.markFailed k 4 sent else d
    else
      let d := d.bump 0x5700 9 0x0A
      if !g.again then d.modGuard fun g => { g with again := true }
      else if g.step = 4 then d.testBegin (partnerOf k) true
      else ((d.testEnd).drawn 32).markFailed k g.step d.freeSent

/-- BLOCK_OUT_READBACK_MISMATCH (R491). -/
def execBlockOutReadbackMismatch (s : State) : Out :=
  s.run fun d => if d.boot.plantHeld then d else d.bumpEvent 0x5700 0x0B 0x0C lvWarn []

/-- The comparators at a T0, whose outputs stand outside as `outside` says: a pole with a masked arm trips (R490). -/
def Device.guardT0 (d : Device) (outside : Nat) : Device :=
  let d := d.modGuard fun g => { g with outside := outside % 2 ^ 24, quals := List.replicate 12 0 }
  [0, 1].foldl (fun d p => if (armsOf p).any d.masked then d.tripPole p 11 else d) d

/-- Latches clear after the pole states of a T0 (R490). -/
def Device.clearLatches (d : Device) : Device :=
  let free := fun (p : Nat) => let st := d.poleState p; st == 0 || st == 1 || st == 3 || st == 7
  let stays := fun (j : Nat) =>
    d.tripCondition j || [0, 1].any fun p => !free p && (armsOf p).any fun a => bit (d.rd (pairIdx j) 5) a
  let l := (List.range 12).foldl (fun m j => if d.latched j && stays j then m + 2 ^ j else m) 0
  if l = d.rd 0x5700 1 then d else (d.wr 0x5700 1 l).showMask

/-! ### Safe Block (R494 to R499) -/

/-- The filtered levels and the discrepancy fault of input `i`. -/
def Device.inputState (d : Device) (i : Nat) : Nat := d.rd (0x7010 + i) 4

/-- The inputs of a function of R500. -/
def Device.inputsOf (d : Device) (fn : Nat) : List Nat := (List.range 8).filter fun i => d.rd (0x7010 + i) 1 == fn

/-- The sources present (R495), as 0x7000.03 shows them. -/
def Device.safeSources (d : Device) : Nat :=
  let ins := d.inputsOf 1
  b2n (ins.any fun i => d.inputState i % 4 != 3) + 2 * b2n (d.flag 0x7000 7 && !bit (d.rd 0x7040 4) 0)
    + 4 * b2n (d.twinProfile && d.twin.peerSafe ≥ 3) + 8 * b2n (ins.any fun i => bit (d.inputState i) 2)
    + 16 * b2n (!d.flag 0x7000 5)

/-- A channel's state after its sources are judged (Table 15.5). -/
def channelNext (left peerOnly : Bool) (st src : Nat) : Nat :=
  if src ≠ 0 then 1 else if st = 1 && left then (if peerOnly then 0 else 2) else st

/-- The device-wide state of two channels (R496). -/
def safeWide (a b : Nat) : Nat := if a = 1 || b = 1 then 1 else if a = 2 || b = 2 then 2 else 0

/-- Put the two channels in their states and show them; entry to REQUESTED is counted and triggers the recorder (R496, R497)
(assumption log 57). -/
def Device.setChannels (d : Device) (a b : Nat) (sent : List Nat) : Device :=
  let was := d.rd 0x7000 1
  let was2 := d.rd 0x7000 2
  let wide := safeWide a b
  let split := fun (g : Guard) => if (a == 0) == (b == 0) then none else if (g.ch1 == 0) == (was2 == 0) then some d.tick else g.split
  let d := ((d.modGuard fun g => { g with ch1 := a, split := split g }).wr 0x7000 2 b).wr 0x7000 1 wide
  let d := if wide = 1 && was ≠ 1 then (d.bumpEvent 0x7000 0x0B 0x0C lvSafety []).noteTrigger 2 else d
  (if was2 = 0 && b ≠ 0 then d.hblkNow sent else d).showBlockOut

/-- Judge the sources in both channels; the peer source acts on channel 1 only (R495). Channel 1 is firmware and stands still with the
core pairs halted (Table 15.4, Table 14.2). -/
def Device.judgeSafe (d : Device) (sent : List Nat) : Device :=
  let src := d.safeSources
  let g := d.guard
  let only := if g.ch1 = 0 then src == 4 else g.ch1 == 1 && g.peerOnly && (src == 0 || src == 4)
  let a := if d.boot.pairsHalted then g.ch1 else channelNext g.left (if src = 0 then g.peerOnly else only) g.ch1 src
  let b := channelNext g.left false (d.rd 0x7000 2) (src - Nat.land src 4)
  ((d.wr 0x7000 3 src).modGuard fun g => { g with peerOnly := only }).setChannels a b sent

/-- The plant half leaves SELF-TEST (Table 15.5): without a source each channel becomes NORMAL or LATCHED by the start mode. -/
def Device.safeStart (d : Device) : Device :=
  let d := d.modGuard fun g => { g with left := true, peerOnly := false }
  let src := d.safeSources
  let st := fun (m : Nat) => if m ≠ 0 then 1 else if d.rd 0x7000 6 = 1 then 0 else 2
  (d.wr 0x7000 3 src).setChannels (st src) (st (src - Nat.land src 4)) []

/-- SAFE_INPUT_FILTERED (R500, R501): the filtered level of channel A (`b` false) or B of input `i` changes. -/
def execSafeInputFiltered (i : Nat) (b level : Bool) (sent : List Nat) (s : State) : Out :=
  s.run fun d =>
    if d.boot.plantHeld || i ≥ 8 || d.rd (0x7010 + i) 1 = 0 then d
    else
      let same := fun (d : Device) => bit (d.inputState i) 0 == bit (d.inputState i) 1
      let e := d.wrBit (0x7010 + i) 4 (b2n b) level
      (e.modGuard fun g => if same d && !same e then { g with differ := g.differ.set i d.tick } else g).judgeSafe sent

/-- DISCREPANCY_FAULT (R502): the levels of input `i` have differed for its discrepancy time. -/
def execDiscrepancyFault (i : Nat) (s : State) : Out :=
  s.run fun d =>
    let st := d.inputState i
    let fn := d.rd (0x7010 + i) 1
    if d.boot.plantHeld || d.boot.pairsHalted || i ≥ 8 || !(fn == 1 || fn == 2) || bit st 0 == bit st 1 || bit st 2
      || d.tick < d.guard.differ.getD i 0 + d.ticksOf (1000 * d.rd (0x7010 + i) 3) then d
    else ((d.wrBit (0x7010 + i) 4 2 true).bumpEvent (0x7010 + i) 5 6 lvSafety [(8, i)]).judgeSafe []

/-- What each permissive output is commanded to (R505); a fault of it releases both channels, halted pairs release all. -/
def Device.outWanted (d : Device) (o : Nat) : Bool :=
  let i := 0x7018 + o
  !bit (d.rd i 3) 3 && !d.boot.pairsHalted &&
    (match d.rd i 1 with
     | 1 => d.rd 0x7030 1 == 2
     | 2 => d.guard.ch1 != 0 && d.rd 0x7000 2 != 0
     | 3 => bit (d.rd 0x7040 4) (2 + o)
     | _ => false)

/-- Drive the outputs; the read-backs follow the command. -/
def Device.driveOutputs (d : Device) : Device :=
  (List.range 4).foldl (fun d o =>
    let i := 0x7018 + o
    d.wr i 3 ((if d.outWanted o then 7 else 0) + Nat.land (d.rd i 3) 8)) d

/-- An output fault (R506). -/
def Device.outputFault (d : Device) (o : Nat) : Device :=
  if bit (d.rd (0x7018 + o) 3) 3 then d
  else (d.wr (0x7018 + o) 3 8).bumpEvent (0x7018 + o) 4 5 lvSafety [(8, o)]

/-- The outputs of a T0: bit 2o of `differ` says that channel A of output o reads back otherwise than commanded, bit 2o + 1 channel
B; three ticks of it are a fault (R506). -/
def Device.outputsT0 (d : Device) (differ : Nat) : Device :=
  let d := d.driveOutputs
  let run := (numbered 0 d.guard.outRun).map fun x => if bit differ x.1 then min 3 (x.2 + 1) else 0
  let d := d.modGuard fun g => { g with outRun := run }
  (List.range 4).foldl (fun d o =>
    if run.getD (2 * o) 0 ≥ 3 || run.getD (2 * o + 1) 0 ≥ 3 then d.outputFault o
    else
      let v := d.rd (0x7018 + o) 3
      let flip := fun (v c : Nat) => if bit differ (2 * o + c) then setBit v (c + 1) (!bit v (c + 1)) else v
      d.wr (0x7018 + o) 3 (flip (flip v 0) 1)) d

/-- OUTPUT_TEST_PULSE (R506): channel A (`b` false) or B of output `o` was released for the test pulse; a read-back without
release is a fault. -/
def execOutputTestPulse (o : Nat) (b released : Bool) (s : State) : Out :=
  s.run fun d =>
    let i := 0x7018 + o
    if o ≥ 4 || d.rd i 2 = 0 || !bit (d.rd i 3) 0 || d.boot.plantHeld then d
    else if released then d
    else
      let _ := b
      d.outputFault o

/-- A valid reset (R504): faults that have gone clear first, then each LATCHED channel is judged (assumption log 57). -/
def Device.validReset (d : Device) : Device :=
  let run := !d.boot.pairsHalted
  let d := (List.range 8).foldl (fun d i =>
    if run && bit (d.inputState i) 2 && d.inputState i % 4 = 3 then d.wrBit (0x7010 + i) 4 2 false else d) d
  let d := (List.range 4).foldl (fun d o =>
    if run && bit (d.rd (0x7018 + o) 3) 3 && d.guard.outRun.getD (2 * o) 0 = 0 && d.guard.outRun.getD (2 * o + 1) 0 = 0 then
      d.wrBit (0x7018 + o) 3 3 false
    else d) d
  let d := d.judgeSafe []
  let src := d.safeSources
  let ok := (src == 0 || src == 4) && (d.inputsOf 1).all (fun i => d.inputState i % 4 == 3) && d.flag 0x7000 5
  let a := if d.boot.pairsHalted then 0 else d.guard.ch1
  let b := d.rd 0x7000 2
  if a ≠ 2 && b ≠ 2 then d
  else if ok && (a = 2 || b = 2) then
    let was := d.rd 0x7000 1
    let d := d.setChannels (if a = 2 then 0 else d.guard.ch1) (if b = 2 then 0 else b) []
    if was = 2 && d.rd 0x7000 1 = 0 then d.bumpEvent 0x7000 0x0D 0x0E lvSafety [] else d
  else d.bump 0x7000 0x0F 0x10

/-- SAFE_RESET_EDGE (R503): a falling edge after `highMs` ms high; before that the ball was low for `lowMs` ms. -/
def execSafeResetEdge (highMs lowMs : Nat) (s : State) : Out :=
  s.run fun d =>
    if d.boot.plantHeld then d
    else
      let stuck := d.rd 0x7000 0x0A = 2
      let low := d.guard.resetLow || decide (lowMs ≥ 100)
      let d := (d.wr 0x7000 0x0A 0).modGuard fun g => { g with resetLow := low }
      if stuck || !low || highMs < 100 || highMs ≥ 5000 then d else d.validReset

/-- SAFE_RESET_STUCK (R503): the ball has been high for 5 s. -/
def execSafeResetStuck (s : State) : Out :=
  s.run fun d =>
    if d.boot.plantHeld || d.rd 0x7000 0x0A = 2 then d else (d.wr 0x7000 0x0A 2).bumpEvent 0x7000 0x11 0x12 lvWarn []

/-- SAFE_BLOCK_DISAGREEMENT (R497): the channels have disagreed on NORMAL for more than 1 s; one event each time. -/
def execSafeBlockDisagreement (s : State) : Out :=
  s.run fun d =>
    match d.guard.split with
    | some t =>
      if d.tick > t + d.ticksOf 1000000 then
        (d.event 0x7000 2 lvWarn [(8, d.rd 0x7000 2)]).modGuard fun g => { g with split := none }
      else d
    | none => d

/-! ### Zero-energy monitoring (R507, R508) -/

/-- The reports that cell `c` of arm `a` latched at this T0 satisfies condition 4: fresh, linked, below the threshold. -/
def Device.cellDead (d : Device) (a c : Nat) : Bool :=
  let g := d.cellAt a c
  let r := d.report g
  (d.lane (g / 256)).took && !bit r 38 && !bit r 37 && decide ((reportVolt r : Rat) / 8 < d.rdF 0x7030 2)

/-- Condition 5 for a pole: the DC voltage channel has unit V and a valid value below the threshold. -/
def Device.dcDead (d : Device) (p : Nat) : Bool :=
  let ch := d.rd (poleIdx 0x3004 p) 9
  ch < 32 && d.rd (chIdx ch) 7 == 0 && bit (d.rd (chIdx ch) 9) 31
    && decide (ratAbs (d.rdF (chIdx ch) 8) < 1000 * d.rdF 0x7030 3)

/-- Condition 6: each lane that carries cells latched a frame with the ASEQ of R338 and every SEQE matching it. -/
def Device.laneCurrent (d : Device) (l : Nat) : Bool :=
  let x := d.lane l
  x.took && d.rd (0x5550 + l) 0x16 == (d.tick + 2 ^ 16 - 2) % 2 ^ 16
    && x.reports.all fun r => field r 16 8 == (d.tick + 2 ^ 16 - 2) % 256

/-- The highest cell voltage over the reports of condition 4, in V. -/
def Device.highestCell (d : Device) : Rat :=
  (d.presentArms.foldl (fun (m : Nat) a =>
    (List.range (d.arm a).cells.length).foldl (fun (m : Nat) c => max m (reportVolt (d.report (d.cellAt a c)))) m) 0 : Nat) / 8

/-- The conditions of Table 15.6 that fail, bit c - 1 for condition c. -/
def Device.zeroFails (d : Device) : Nat :=
  let poleBusy := fun p => let st := d.poleState p; st == 2 || st == 3 || st == 4 || st == 5
  let lanes := (List.range 32).filter fun l => d.laneCells l != 0
  b2n (!d.safeBlock) + 2 * b2n (poleBusy 0 || poleBusy 1) + 4 * b2n (!lanes.all fun l => d.laneState l == 8)
    + 8 * b2n (!d.presentArms.all fun a => (List.range (d.arm a).cells.length).all fun c => d.cellDead a c)
    + 16 * b2n (!([0, 1].filter d.polePresent).all d.dcDead) + 32 * b2n (!lanes.all d.laneCurrent)
    + 64 * b2n (!(d.inputsOf 2).all fun i => d.inputState i == 3)

/-- Zero-energy monitoring in a tick. -/
def Device.zeroEnergyT0 (d : Device) : Device :=
  let bad := d.zeroFails
  let d := (d.wr 0x7030 5 bad).wrF 0x7030 6 d.highestCell
  let st := d.rd 0x7030 1
  if bad ≠ 0 then (if st = 0 then d else d.wr 0x7030 1 0)
  else if st = 0 then (d.wr 0x7030 1 1).modGuard fun g => { g with zeSince := d.tick } else d

/-- ZERO_ENERGY_HOLD_EXPIRY (R508): every condition has held for the hold time. -/
def execZeroEnergyHoldExpiry (s : State) : Out :=
  s.run fun d =>
    if d.rd 0x7030 1 = 1 && d.rd 0x7030 5 = 0 && d.tick ≥ d.guard.zeSince + d.ticksOf (1000000 * d.rd 0x7030 4) then
      ((d.wr 0x7030 1 2).bumpEvent 0x7030 7 8 lvSafety []).driveOutputs
    else d

/-! ### FSoE (R510, R511) -/

/-- The safe data sent to the master, Table 15.9. -/
def Device.fsoeSent (d : Device) : Nat :=
  let st := d.rd 0x7000 1
  let inOk := (List.range 8).foldl (fun m i => if d.inputState i = 3 then m + 2 ^ i else m) 0
  let outOn := (List.range 4).foldl (fun m o => if d.rd (0x7018 + o) 3 / 2 % 4 = 3 then m + 2 ^ o else m) 0
  let cmpOk := (List.range 24).all fun k => !(d.pairOn (k / 2) && d.cmpFailed k)
  b2n (st == 0) + 2 * b2n (st == 2) + 4 * b2n (d.rd 0x7030 1 == 2) + 8 * b2n cmpOk + 16 * d.rd 0x7000 5
    + 32 * b2n (d.rd 0x7000 0x0A == 2) + 64 * b2n ((List.range 4).any fun o => bit (d.rd (0x7018 + o) 3) 3)
    + 128 * b2n ((List.range 8).any fun i => bit (d.inputState i) 2) + 256 * inOk + 65536 * outOn

/-- Put received safe data in force, with the RESET image judged by R503 in channel 1. -/
def Device.fsoeData (d : Device) (v : Nat) : Device :=
  let was := bit (d.rd 0x7040 4) 1
  let now := bit v 1
  let d := d.wr 0x7040 4 (v % 64)
  let g := d.guard
  let us := fun (t : Nat) => (d.tick - t) * d.period
  let d :=
    if !d.flag 0x7000 8 then d
    else if now && !was then
      let armed := match g.fsoeLow with
        | some t => decide (us t ≥ 100000)
        | none => false
      d.modGuard fun g => { g with fsoeHigh := if armed then some d.tick else none }
    else if was && !now then
      let d := d.modGuard fun g => { g with fsoeHigh := none, fsoeLow := some d.tick }
      match g.fsoeHigh with
      | some t => if 100000 ≤ us t && us t < 5000000 then d.validReset else d
      | none => d
    else if !now && g.fsoeLow.isNone then d.modGuard fun g => { g with fsoeLow := some d.tick }
    else d
  d.judgeSafe []

/-- FSOE_FRAME (R510, R511): a frame from the master leaves the connection in state `conn` of 0x7040.03 and carries `data`; outside
Data the received safe data are 0. A connection that falls back to Reset is a fault (assumption log 58). -/
def execFsoeFrame (conn data : Nat) (s : State) : Out :=
  s.run fun d =>
    if d.boot.plantHeld || d.boot.pairsHalted || d.rd 0x7040 1 = 0 || conn > 4 then d
    else
      let d := if conn = 0 && d.rd 0x7040 3 ≠ 0 then d.bump 0x7040 6 7 else d
      let d := ((d.modGuard fun g => { g with fsoeAt := d.tick }).wr 0x7040 3 conn).fsoeData (if conn = 4 then data else 0)
      d.wr 0x7040 5 d.fsoeSent

/-- FSOE_WATCHDOG_EXPIRY (R510): no frame for the watchdog time; the received safe data take the fail-safe value 0. -/
def execFsoeWatchdogExpiry (s : State) : Out :=
  s.run fun d =>
    if d.boot.plantHeld || d.boot.pairsHalted || d.rd 0x7040 1 = 0 || d.rd 0x7040 3 ≠ 4
      || d.tick < d.guard.fsoeAt + d.ticksOf (1000 * d.rd 0x7040 2) then d
    else (((d.wr 0x7040 3 0).bump 0x7040 6 7).fsoeData 0).driveOutputs

end Sys2Proof.Machine
end

