-- ==== Sys2Proof/Machine/Session.lean ====
section
/-! DEFINITION. The safety configuration, its sessions and its change log (R514 to R519).
Choices of the model: assumption log 59. -/
namespace Sys2Proof.Machine

/-- Change the session part. -/
def Device.modSession (d : Device) (f : Session → Session) : Device := { d with session := f d.session }

/-- The instances of an object, by index. -/
def OdObject.indices (o : OdObject) : List Nat :=
  (List.range o.outer).flatMap fun k => (List.range o.inner).map fun i => o.base + k * o.stride + i

/-- The addresses of the safety configuration: every rws entry of change class BLOCKED (R514), ascending. -/
def safetyKeys : List Nat :=
  (odObjects.filter fun o => 0x7000 ≤ o.base && o.base < 0x7041).flatMap fun o =>
    o.indices.flatMap fun i =>
      (o.entries.filter fun e => e.acc == .rws && e.cls == .blocked).flatMap fun e =>
        (List.range (e.hi - e.lo + 1)).map fun k => odKey i (e.lo + k)

/-- An entry belongs to the safety configuration. -/
def isSafetyKey (key : Nat) : Bool :=
  0x700000 ≤ key && key < 0x704100 &&
    match odEntry? key with
    | some (e, _) => e.acc == .rws && e.cls == .blocked
    | none => false

/-- The values of the safety configuration in a device. -/
def Device.safetyVals (d : Device) : List (Nat × Nat) := safetyKeys.map fun k => (k, odGet d.od k)

/-- The CRC of a safety configuration: each entry's bytes little-endian in ascending order of address (R514). -/
def safetyCrc (vals : List (Nat × Nat)) : Nat :=
  crc32c (vals.flatMap fun kv => leBytes ((odBits kv.1 + 7) / 8) kv.2)

/-- A pair breaks R484 or R525. -/
def Device.pairBad (c : Device) (j : Nat) : Bool :=
  let i := pairIdx j
  let e1 := c.rd i 6 + c.rd i 7
  let e2 := c.rd i 8 + c.rd i 9
  let overlap := c.rd i 7 != 0 && c.rd i 9 != 0 && decide (c.rd i 6 < e2) && decide (c.rd i 8 < e1)
  e1 > 4000 || e2 > 4000 || overlap || c.rd i 7 + c.rd i 9 > 800
    || (c.pairOn j && (c.rd i 2 ≥ c.rd i 3 || c.rd i 5 == 0))

/-- A set of values fails a check that relates entries to one another (R484, R502, R525). -/
def Device.safetyBad (c : Device) : Bool :=
  ((List.range 12).any c.pairBad) || (List.range 8).any fun i => 1000 * c.rd (0x7010 + i) 3 ≤ c.rd (0x7010 + i) 2

/-- Load the copy that the selector names (R514): its values go in force where they pass every check. An empty copy is the
configuration as delivered. -/
def Device.safetyLoad (d : Device) : Device :=
  let c := d.wrAll (d.session.copies.getD d.session.sel [])
  if c.safetyBad then d.wr 0x7000 5 0
  else ((c.wr 0x7000 5 1).wr 0x7000 4 (safetyCrc c.safetyVals)).showMask

/-! ### The change log (R518, R519) -/

/-- The 32 bytes of a change-log entry, Table 15.11. -/
def ChangeEntry.bytes (e : ChangeEntry) : List Nat :=
  beBytes 32 (e.seq % 2 ^ 32 * 2 ^ 224 + e.utc % 2 ^ 32 * 2 ^ 192 + e.tick % 2 ^ 64 * 2 ^ 128 + e.session % 2 ^ 32 * 2 ^ 96
    + e.kind % 2 ^ 8 * 2 ^ 88 + e.object % 2 ^ 24 * 2 ^ 64 + e.old % 2 ^ 32 * 2 ^ 32 + e.new % 2 ^ 32)

/-- Show the change log. -/
def Device.showLog (d : Device) : Device :=
  let l := d.session.log
  ((d.wr 0x7002 1 (leNat (l.flatMap ChangeEntry.bytes))).wr 0x7002 2 l.length).wr 0x7002 4
    (if d.session.logSeq ≤ 1 then 0 else d.session.logSeq - 1)

/-- Append an entry to the change log. -/
def Device.logChange (d : Device) (kind object old new : Nat) : Device :=
  let e : ChangeEntry := ⟨d.session.logSeq, d.utc, d.tick, d.rd 0x7001 5, kind, object, old, new⟩
  (d.modSession fun x => { x with log := x.log ++ [e], logSeq := (x.logSeq + 1) % 2 ^ 32 }).showLog

/-- The entry of a write of an rws entry outside the safety configuration, in the same operation as the write (R518). -/
def Device.logRws (d : Device) (idx sub old new : Nat) : Device :=
  let n := (odBits (odKey idx sub) + 7) / 8
  d.logChange 2 (idx * 256 + sub) (crc32c (leBytes n old)) (crc32c (leBytes n new))

/-- An rws write that the full log refuses is an event (R519). -/
def Device.logFullEvent (d : Device) : Device :=
  if d.session.log.length ≥ 4096 && d.sessionOpen then d.event 0x7002 2 lvWarn [] else d

/-- A write to an rws entry restarts the idle time of the session (R517). -/
def Device.rwsUsed (d : Device) : Device := d.modSession fun x => { x with usedAt := d.tick }

/-- A write to an rws entry in a session: refused with its abort, with an event where the log is full; else taken by `f`. -/
def Device.sdoRws (d : Device) (idx sub len v : Nat) (f : Device → Device) : Device :=
  if !d.mailbox then d
  else
    match d.judge idx sub len v with
    | some code => (if code = 0x08000020 then d.logFullEvent else d).abort idx sub code
    | none => f d.done.rwsUsed

/-! ### Sessions (R515 to R517) -/

/-- A passphrase or credential of printable ASCII. -/
def printable (bs : List Nat) : Bool := bs.all fun b => decide (0x20 ≤ b) && decide (b ≤ 0x7E)

/-- A stored secret opens for a string (assumption log 15). -/
def Credential.opens (c : Credential) (bs : List Nat) : Bool := Config.pbkdf2 bs c.salt % 2 ^ 256 == c.key

/-- A newly drawn salt, and the key of a string under it. -/
def Device.newSecret (d : Device) (bs : List Nat) : Credential × Device :=
  let salt := Config.entropy d.free % 2 ^ 128
  (⟨salt, Config.pbkdf2 bs salt % 2 ^ 256, bs.isEmpty⟩, { d with free := d.free + 1 })

/-- The lockout time after `n` consecutive failures, in s: 60 s from the fifth, doubling to 3,600 s (R515). -/
def lockoutTime (n : Nat) : Nat := min 3600 (60 * 2 ^ min 10 (n - 5))

/-- SESSION_OPEN (R515): a passphrase is written to 0x7001.01. -/
def execSessionOpen (pass : List Nat) (s : State) : Out :=
  s.run fun d => d.sdo 0x7001 1 pass.length (leNat pass) fun d =>
    if d.rd 0x7001 4 ≠ 0 then d.abort 0x7001 1 0x08000020
    else
      let ok := match d.session.pass with
        | none => pass.isEmpty
        | some c => c.opens pass
      if ok then
        let d := d.modSession fun x => { x with pendingSet := [], setupOnly := x.pass.isNone, lock := ⟨0, false⟩, usedAt := d.tick }
        (d.wr 0x7001 4 1).wr 0x7001 5 (d.rd 0x7001 5 + 1)
      else
        let n := d.session.lock.fails + 1
        let d := (d.modSession fun x => { x with lock := ⟨n, decide (n ≥ 5)⟩, lockedAt := d.tick }).bump 0x7001 9 0x0A
        let d := if n ≥ 5 then (d.wr 0x7001 4 2).wr 0x7001 0x0B (lockoutTime n) else d
        d.abort 0x7001 1 0x08000020

/-- SESSION_CLOSE (R517): a write of 0x01 to 0x7001.02. -/
def execSessionClose (s : State) : Out := s.run fun d => d.sdo 0x7001 2 1 1 Device.closeSession

/-- NEW_PASSPHRASE (R515, R518): 0x7001.03 is written in a session. -/
def execNewPassphrase (pass : List Nat) (s : State) : Out :=
  s.run fun d => d.sdoRws 0x7001 3 pass.length (leNat pass) fun d =>
    if pass.length < 12 then d.abort 0x7001 3 0x06070010
    else if !printable pass then d.abort 0x7001 3 0x06090030
    else
      let (c, d) := d.newSecret pass
      let crc := d.rd 0x7000 4
      ((d.modSession fun x => { x with pass := some c, setupOnly := false }).wr 0x7001 0x0C 1).logChange 3 0 crc crc

/-- A write of a safety configuration entry joins the pending set (R516). -/
def Device.pendSafety (d : Device) (key v : Nat) : Device :=
  let set := cellPut d.session.pendingSet key v
  let d := d.rwsUsed.modSession fun x => { x with pendingSet := set }
  d.wr 0x7001 8 (safetyCrc (d.wrAll set).safetyVals)

/-- A pole stands in the way of a commit (R516). -/
def Device.commitBusy (d : Device) : Bool :=
  [0, 1].any fun p => let st := d.poleState p; st == 2 || st == 3 || st == 4 || st == 5

/-- SAFETY_COMMIT (R516, R518): a write of 0x01 to 0x7001.07. The set goes into the copy not in force, the commit record into the
log, and the new set takes effect at the next T0. -/
def execSafetyCommit (s : State) : Out :=
  s.run fun d => d.sdoRws 0x7001 7 1 1 fun d =>
    let c := d.wrAll d.session.pendingSet
    if d.commitBusy then d.abort 0x7001 7 0x08000022
    else if d.session.log.length ≥ 4096 then d.logFullEvent.abort 0x7001 7 0x08000020
    else if c.safetyBad then d.abort 0x7001 7 0x06090030
    else
      let vals := c.safetyVals
      let dst := 1 - d.session.sel
      let d := d.logChange 1 0 (d.rd 0x7000 4) (safetyCrc vals)
      (d.wr 0x7001 8 0).modSession fun x =>
        { x with copies := x.copies.set dst vals, sel := dst, pendingSet := [], effect := true }

/-- SAFETY_DISCARD (R516): a write of 0x02 to 0x7001.07. -/
def execSafetyDiscard (s : State) : Out :=
  s.run fun d => d.sdoRws 0x7001 7 1 2 fun d => (d.wr 0x7001 8 0).modSession fun x => { x with pendingSet := [] }

/-- A committed set takes effect at a T0, and NORMAL channels become LATCHED (R516, Table 15.5). -/
def Device.safetyEffect (d : Device) : Device :=
  if !d.session.effect then d
  else
    let d := (d.modSession fun x => { x with effect := false }).safetyLoad
    let next := fun (st : Nat) => if st = 0 then 2 else st
    (d.setChannels (next d.guard.ch1) (next (d.rd 0x7000 2)) []).judgeSafe []

/-- SESSION_IDLE_EXPIRY (R517): no write to an rws entry for the idle time 0x7001.06. -/
def execSessionIdleExpiry (s : State) : Out :=
  s.run fun d => if d.tick < d.session.usedAt + d.ticksOf (1000000 * d.rd 0x7001 6) then d else d.closeSession

/-- The seconds of the lockout that remain, a second begun counting whole (R515). -/
def Device.lockoutLeft (d : Device) : Nat :=
  (1000000 * lockoutTime d.session.lock.fails - (d.tick - d.session.lockedAt) * d.period + 999999) / 1000000

/-- The remaining lockout is shown at every T0 (R515). -/
def Device.showLockout (d : Device) : Device := if d.rd 0x7001 4 = 2 then d.wr 0x7001 0x0B d.lockoutLeft else d

/-- SESSION_LOCKOUT_EXPIRY (R515): the time of the lockout has passed. -/
def execSessionLockoutExpiry (s : State) : Out :=
  s.run fun d =>
    if d.rd 0x7001 4 = 2 && d.lockoutLeft = 0 then
      ((d.wr 0x7001 4 0).wr 0x7001 0x0B 0).modSession fun x => { x with lock := { x.lock with locked := false } }
    else d

/-- LOG_ACKNOWLEDGE (R519): SEQ `seq` is written to 0x7002.03; `wasRead` says that a read of the whole log has completed since
entry `seq` was written. -/
def execLogAcknowledge (seq : Nat) (wasRead : Bool) (s : State) : Out :=
  s.run fun d => d.sdoRws 0x7002 3 4 seq fun d =>
    if !wasRead || !d.session.log.any fun e => e.seq == seq then d.abort 0x7002 3 0x08000020
    else
      let d := d.modSession fun x => { x with log := x.log.filter fun e => newer 32 seq e.seq }
      d.logChange 4 0 seq (d.rd 0x7000 4)

/-- What the MRAM holds of sessions is shown again after a plant reset. -/
def Device.showSession (d : Device) : Device :=
  (d.wrB 0x7001 0x0C d.session.pass.isSome).showLog

end Sys2Proof.Machine
end

