-- ==== Sys2Proof/Machine/PoleControl.lean ====
section
/-! DEFINITION. The poles (spec/05_pole_control.md, R188 to R190, R712; spec/06_fault_ride_through.md, R200 to R208): breaker requests,
the energisation sequence, entry to a pole state, the tick boundary, and the commands of 0x3001. -/
namespace Sys2Proof.Machine

/-! ### Breaker requests (R200 to R202) -/

/-- The index of a pole's breaker request object. -/
def reqIdx (p : Nat) : Nat := 0x510C + p

/-- Set or clear a level request bit. -/
def Device.levelRequest (d : Device) (p b : Nat) (on : Bool) : Device := (d.wrBit (reqIdx p) 3 b on).showBreakers

/-- Raise request bit `b`, 2 or 3, with its reason; bit 2 clears bits 0 and 1. Each rise is counted and recorded (R201). -/
def Device.raiseRequest (d : Device) (p b reason : Nat) : Device :=
  let i := reqIdx p
  let was := d.rd i 3
  let w := setBit (if b = 2 then was / 4 * 4 else was) b true
  let d := (d.wr i 3 w).showBreakers
  if bit was b then d else (d.wr i 2 reason).bumpEvent i 4 5 lvWarn [(8, reason)]

/-- Raise the requests chosen in 0x5104 + p .0E: bit 0 the DC breaker trip, bit 1 the AC breaker open. -/
def Device.raiseChosen (d : Device) (p reason : Nat) : Device :=
  let act := d.rd (0x5104 + p) 0x0E
  let d := if bit act 0 then d.raiseRequest p 3 reason else d
  if bit act 1 then d.raiseRequest p 2 reason else d

/-! ### Substate bits -/

/-- Set bit `b` of the substate 0x3000.02. -/
def Device.setSub (d : Device) (p b : Nat) (on : Bool) : Device := d.wrBit (poleIdx 0x3000 p) 2 b on

/-- Bit `b` of the substate. -/
def Device.sub (d : Device) (p b : Nat) : Bool := bit (d.rd (poleIdx 0x3000 p) 2) b

/-- The present arms of a pole. -/
def Device.poleArms (d : Device) (p : Nat) : List Nat := (armsOf p).filter d.armPresent

/-- Lanes that carry cells of pole `p`. -/
def Device.poleLanes (d : Device) (p : Nat) : List Nat :=
  (List.range 32).filter fun l => (d.armsOnLane l).any fun a => poleOf a == p

/-- Every lane that carries cells of the pole is OPERATIONAL. -/
def Device.poleLanesUp (d : Device) (p : Nat) : Bool := (d.poleLanes p).all fun l => d.laneState l == 8

/-- V_cn of an arm. -/
def Device.vcn (d : Device) (a : Nat) : Rat := d.rdF (armIdx 0x4010 a) 4

/-- Every present arm of the pole has ū_a of at least `k` times V_cn (R198). -/
def Device.armsAt (d : Device) (p : Nat) (k : Rat) : Bool :=
  (d.poleArms p).all fun a => decide ((d.arm a).ubar ≥ k * d.vcn a)

/-! ### The energisation sequence (R203 to R206) -/

/-- The index of a pole's energisation object. -/
def enIdx (p : Nat) : Nat := 0x5108 + p

/-- The start values of the arms: ū_a of arms 0 to 5. -/
def Device.startValues (d : Device) (p : Nat) : List Rat := (armsOf p).map fun a => (d.arm a).ubar

/-- An arm of the pole fails the checkpoint of R205; `active` selects the expected rise of ACTIVE. -/
def Device.checkFails (d : Device) (p : Nat) (active : Bool) : Bool :=
  let i := enIdx p
  (d.poleArms p).any fun a =>
    let st := (d.pole p).en.starts.getD (a % 6) 0
    let v := d.vcn a
    let want := if active then ratMin (d.rdF i 8 * v * (d.rd i 9 : Rat) / 1000) (v - st) else d.rdF i 3 * v - st
    decide (want > 0) && decide ((d.arm a).ubar - st < want / 5)

/-- The sequence enters a state; the counts of R204 run through the whole of it. -/
def Device.enEnter (d : Device) (p st : Nat) : Device :=
  (d.wr (enIdx p) 0x0E st).modPole p fun c => { c with en := { c.en with entered := d.tick, checked := false } }

/-- What ABORTED does before it returns to IDLE (Table 6.1): the pole trips with cause 8, request bit 2 rises, the abort is counted and
recorded with its reason. -/
def Device.enReport (d : Device) (p : Nat) : Device :=
  let i := enIdx p
  let d := d.bumpEvent i 0x0F 0x11 lvTrip [(8, d.rd i 0x10)]
  (d.raiseRequest p 2 1).tripPole p 8

/-- The sequence aborts (Table 6.1). -/
def Device.enAbort (d : Device) (p reason : Nat) : Device := ((d.enEnter p 6).wr (enIdx p) 0x10 reason).enReport p

/-- Take a transition of the sequence. -/
def Device.enGo (d : Device) (p dst reason : Nat) : Device :=
  match dst with
  | 1 =>
    let d := d.modPole p fun c => { c with en := { c.en with overs := [] } }
    (d.enEnter p 1).levelRequest p 0 true
  | 2 =>
    let d := d.enEnter p 2
    d.modPole p fun c => { c with en := { c.en with passive := d.tick, starts := d.startValues p } }
  | 3 => (d.enEnter p 3).levelRequest p 1 true
  | 4 =>
    let d := (d.enEnter p 4).armsFollow p 2
    d.modPole p fun c => { c with en := { c.en with starts := d.startValues p } }
  | 5 => (d.enEnter p 5).modPole p fun c => { c with goto := some 3 }
  | 6 => d.enAbort p reason
  | _ => d

/-- The transition that Table 6.1 gives in a fast run with the tracker in state `trk`: destination and abort reason. -/
def Device.enNext (d : Device) (p trk : Nat) : Option (Nat × Nat) :=
  let i := enIdx p
  let en := (d.pole p).en
  let past := fun (from_ ms : Nat) => decide (d.tick ≥ from_ + d.ticksOf (1000 * ms))
  match d.rd i 0x0E with
  | 1 => if trk ≠ 0 then some (2, 0) else if past en.entered (d.rd i 1) then some (6, 2) else none
  | 2 =>
    if trk = 0 then some (6, 8)
    else if d.armsAt p (9 / 10 * d.rdF i 3) then some (3, 0)
    else if past en.entered (d.rd i 4) && !en.checked && d.checkFails p false then some (6, 4)
    else if past en.entered (d.rd i 5) then some (6, 5) else none
  | 3 =>
    if trk = 0 then some (6, 8)
    else if past en.entered (d.rd i 6) && trk = 2 then some (4, 0)
    else if past en.passive (d.rd i 5) && trk ≠ 2 then some (6, 10) else none
  | 4 =>
    if trk = 0 then some (6, 8)
    else if past en.entered (d.rd i 9) && !en.checked && d.checkFails p true then some (6, 6)
    else if d.armsAt p (98 / 100) then some (5, 0)
    else if past en.entered (d.rd i 0x0A) then some (6, 7) else none
  | _ => none

/-- A checkpoint that has been passed is not judged again. -/
def Device.enChecked (d : Device) (p : Nat) : Device :=
  let en := (d.pole p).en
  let cp := match d.rd (enIdx p) 0x0E with
    | 2 => d.rd (enIdx p) 4
    | 4 => d.rd (enIdx p) 9
    | _ => 0
  if cp ≠ 0 && decide (d.tick ≥ en.entered + d.ticksOf (1000 * cp)) then
    d.modPole p fun c => { c with en := { c.en with checked := true } }
  else d

/-- The fast run of pole `p` in progress takes a decision of the energisation sequence too: it acts at that run's commit tick (R158,
R196). -/
def Device.enDecide (d : Device) (p dst reason : Nat) : Device :=
  let src := d.rd (enIdx p) 0x0E
  d.modPole p fun c => { c with
    fastPend := c.fastPend.map fun (x : FastPend) => { x with acts := x.acts ++ [.energise src dst reason] } }

/-- ENERGISATION_TIMEOUT (R196, Table 6.1): a time limit or checkpoint of the sequence of pole `p` is reached. The fast run in progress
judges it and its decision acts at the run's commit tick; with none in progress the next run does (assumption log 45). -/
def execEnergisationTimeout (p : Nat) (s : State) : Out :=
  s.run fun d =>
    if p ≥ 2 || d.poleState p ≠ 2 then d
    else
      match d.enNext p (d.pole p).fast.trk.state with
      | some (dst, r) => if dst = 4 || (dst = 6 && r ≠ 8) then d.enDecide p dst r else d
      | none => d.enChecked p

/-- The sequence of a pole that is in CLOSING to ACTIVE aborts with reason 9. -/
def Device.abortCharge (d : Device) (p : Nat) : Device :=
  let st := d.rd (enIdx p) 0x0E
  if d.poleState p = 2 && 1 ≤ st && st ≤ 4 then d.enAbort p 9 else d

/-- ENERGISATION_ABORT (Table 6.1): a write of 0x01 to 0x5108 + p .12. -/
def execEnergisationAbort (p : Nat) (s : State) : Out :=
  s.run fun d =>
    if p ≥ 2 then d
    else d.sdo (enIdx p) 0x12 1 1 fun d =>
      (d.forward 0x02 [odKey (enIdx p) 0x12, d.tick + 1, 1]).abortCharge p

/-! ### Entry to a pole state (Table 5.4) -/

/-- Put the coordinates in force into a block (R187, R244). -/
def RefBlock.withXs (b : RefBlock) (xs : List Rat) : RefBlock :=
  { b with r := q24 (xs.getD 3 1), dA2 := q24 (xs.getD 1 0), dPhi2 := degAngle (xs.getD 2 0), band := xs.getD 0 0 }

/-- The loss tracker of a pole returns to neutral (R362): from this boundary on, so the blocks in force and next follow, and forwarded
values that are not due yet are dropped. -/
def Device.lossNeutral (d : Device) (p : Nat) : Device :=
  let i := 0x5001 + p
  let put := fun (bs : List RefBlock) => bs.set p ((bs.getD p RefBlock.reset).withXs [0, 0, 0, 1])
  let d : Device := { d with refs := put d.refs, refsNext := put d.refsNext }
  let d := d.modTwin fun t => { t with decisions := t.decisions.filter fun w => match w.2 with
    | .loss q _ => q != p
    | _ => true }
  let d := (((d.wr i 4 0).wr i 5 0).wr i 6 0).wrF i 7 1
  let d := d.wr i 0x14 0
  let d := d.wr i 1 0
  d.modPole p fun c =>
    let l : Loss := { c.loss with
      xs := [0, 0, 0, 1], onTrial := false, toOpen := false, win := none, closed := none, bad := false }
    let pend := c.slowPend.map fun (x : SlowPend) =>
      let r : SlowRes := { x.res with xs := [0, 0, 0, 1] }
      { x with res := r }
    { c with loss := l, slow := { c.slow with xs := [0, 0, 0, 1] }, slowPend := pend }

/-- AC ride-through of a pole returns to NORMAL. -/
def Device.rideNormal (d : Device) (p : Nat) : Device :=
  let d := (d.wr (0x5100 + p) 0x0C 0).setSub p 0 (d.rd (0x5104 + p) 0x10 != 0)
  d.modPole p fun c => { c with fast := { c.fast with ride := { c.fast.ride with state := 0, quietUs := 0 } } }

/-- DC fault suppression of a pole returns to NORMAL. -/
def Device.dcNormal (d : Device) (p : Nat) : Device :=
  ((d.wr (0x5104 + p) 0x10 0).setSub p 0 (d.rd (0x5100 + p) 0x0C != 0)).modPole p fun c => { c with dc := { c.dc with again := false } }

/-- What leaving DEBLOCKED or ISLANDED ends (R183, R217, R362). That a setpoint loss in force ends with it, its bit and its fallback, is the
model's choice: the loss of R163 is one of a pole that is not blocked (assumption log 46). -/
def Device.poleStops (d : Device) (p : Nat) : Device :=
  let d := d.lossNeutral p
  let d := if d.rd (0x5104 + p) 0x10 ≠ 0 then (d.raiseChosen p 6).dcNormal p else d
  let d := if d.rd (0x5100 + p) 0x0C ≠ 0 then d.rideNormal p else d
  let d := (d.setSub p 1 false).setSub p 2 false
  d.modPole p fun c => { c with reconnect := false, dc := { c.dc with count := 0 }, transUntil := 0, fallback := false, fallWait := false }

/-- A pole enters a state at the present tick boundary. -/
def Device.enterPole (d : Device) (p st : Nat) : Device :=
  let was := d.poleState p
  if was = st then d
  else
    let run := fun x => x == 4 || x == 5
    let d := if run was && !run st then d.poleStops p else d
    let ends := (was == 2 && st != 3) || was == 3 || (d.rd (enIdx p) 0x0E == 6 && st != 2)
    let d := if ends then d.wr (enIdx p) 0x0E 0 else d
    let d := (d.wr (poleIdx 0x3000 p) 1 st).wr (poleIdx 0x3000 p) 3 d.tick
    let d := if st = 6 || st = 7 then
        let d := { d with poles := d.poles.map fun (c : PoleCtl) => { c with loss := { c.loss with tripped := some d.tick } } }
        if st = 6 then d.noteTrigger 1 else d
      else d
    if st = 2 then (if d.rd (enIdx p) 0x0E = 6 then d.enReport p else d.enGo p 1 0)
    else if run st then d.armsFollow p 3
    else d.armsFollow p 0

/-- Record trip causes found for a pole, each as its own event (R188). -/
def Device.tripEvents (d : Device) (p : Nat) (cs : List Nat) : Device :=
  cs.foldl (fun d c => d.event (poleIdx 0x3000 p) 4 lvTrip [(8, c)]) d

/-- A pole at a tick boundary (Table 5.4): Safe Block first, then trips, then the commanded change. -/
def Device.poleBoundary (d : Device) (p : Nat) : Device :=
  let c := d.pole p
  let st := d.poleState p
  let d := d.modPole p fun c => { c with trips := [], goto := none }
  let live := st == 2 || st == 4 || st == 5 || c.goto == some 2
  if st = 0 then d
  else if d.guard.ch1 ≠ 0 && st ≠ 7 then (d.tripEvents p (if live then c.trips else [])).enterPole p 7
  else if st = 7 then
    if d.safeBlock then d
    else ((d.tripEvents p [7]).wr (poleIdx 0x3000 p) 4 7).enterPole p 6
  else if c.trips ≠ [] && live then
    ((d.tripEvents p c.trips).wr (poleIdx 0x3000 p) 4 (c.trips.foldl max 0)).enterPole p 6
  else
    match c.goto with
    | some g => d.enterPole p g
    | none => d

/-! ### The conditions of commands -/

/-- The trip cause of a pole is still present (R712). -/
def Device.causePresent (d : Device) (p : Nat) : Bool :=
  let c := d.pole p
  let late := match c.lastFrame with
    | some t => decide (d.tick ≥ t + d.ticksOf (1000 * d.rd (poleIdx 0x3003 p) 0x0C))
    | none => true
  match d.rd (poleIdx 0x3000 p) 4 with
  | 1 => c.overrun != 0
  | 2 => d.timer.holds != 0
  | 3 => d.hasPdoOrder p && late
  | 4 => !c.fast.trk.valid
  | 6 => d.boot.plState == 12 || (d.twinProfile && d.isActive && !d.lease.valid)
  | 7 => d.safeBlock
  | 9 => !d.poleLanesUp p
  | 10 => (d.poleArms p).any fun a => decide ((d.availVolts a).length < max 1 (d.rd (0x5301 + a) 6))
  | 11 => (List.range 12).any fun j => d.tripCondition j && (armsOf p).any fun a => bit (d.rd (pairIdx j) 5) a
  | _ => false

/-- The energised check (R208). -/
def Device.energised (d : Device) (p : Nat) : Bool :=
  d.armsAt p (9 / 10) && (d.poleLanes p).all (fun l => !(d.lane l).stale) && (d.pole p).fast.trk.state == 2
    && !bit (d.rd (reqIdx p) 3) 2

/-- The SYNC_IN tracker is tracking, in the sense of R75. -/
def Device.syncTracking (d : Device) : Bool := d.rd 0x2010 7 % 128 == 2 && bit (d.rd 0x2010 7) 7

/-- The first condition of R189 that fails, counted from 1; 0 when all hold. -/
def Device.deblockFails (d : Device) (p : Nat) : Nat :=
  if d.poleState p ≠ 3 then 1
  else if !d.holds then 2
  else if d.boot.plState ≠ 7 && d.boot.plState ≠ 8 then 3
  else if d.rd 0x2010 4 ≠ 0 then 4
  else if d.rd 0x2010 5 = 2 && !d.syncTracking then 5
  else if !d.poleLanesUp p then 6
  else if d.rd (poleIdx 0x3004 p) 3 = 0 && !(d.pole p).fast.trk.valid then 7
  else if d.sub p 2 then 8
  else if d.safeBlock then 9 else 0

/-- The difference of two angles in turns, in degrees between 0 and 180. -/
def turnsApart (a b : Rat) : Rat :=
  let x := a - b
  let x := x - (ratFloor x : Rat)
  360 * ratMin x (1 - x)

/-- An exit from grid-forming operation is barred (R176, R186): the tracker is not LOCKED or the angles are too far apart. -/
def Device.exitBarred (d : Device) (p : Nat) : Bool :=
  let f := (d.pole p).fast
  f.trk.state != 2 || decide (turnsApart f.vsm.theta f.thetaG > d.rdF (0x5200 + p) 0x0C)

/-- The present tick lies in the same slow run as an islanding decision on the AC bus of pole `p` (R190). -/
def Device.islandedNow (d : Device) (p : Nat) : Bool :=
  let slow := d.ticksOf (d.rd 0x3004 0x0D)
  match (d.pole p).islandAt with
  | some t => slow != 0 && t / slow == d.tick / slow
  | none => false

/-- The judgement of a command of 0x3001 by its state and conditions: result and reason, (0, 0) for accepted (R190); none of ENERGISE and
DEBLOCK while the debug enable is 1 (R468) (assumption log 45). -/
def Device.poleJudge (d : Device) (p code : Nat) : Nat × Nat :=
  let st := d.poleState p
  let free := code == 3 || code == 5 || code == 7 || code == 8
  let on := fun (ok : Bool) (bad : Bool) (k : Nat) =>
    if !ok then (1, 0) else if bad then (3, k) else if d.disputed && !free then (3, 0) else (0, 0)
  match code with
  | 1 => on (st == 1 && (d.pole p).goto != some 2) (d.safeBlock || d.boot.plState == 12 || !d.profileOk p || d.flag 0x9010 0x40) 0
  | 2 =>
    let k := d.deblockFails p
    if st ≠ 3 then (1, k) else on true (k != 0 || !d.profileOk p || d.flag 0x9010 0x40 || d.islandedNow p || (d.pole p).deblockAt.isSome) k
  | 3 => on (st == 2 || st == 4 || st == 5) false 0
  | 4 => on (st == 6) (d.causePresent p) 0
  | 5 => on (st == 3) false 0
  | 6 => on (st == 5) (d.rd (poleIdx 0x3004 p) 3 == 0 && d.exitBarred p) 0
  | 7 => on (st != 0) false 0
  | 8 => on (st != 0) false 0
  | _ => (1, 0)

/-! ### The effects of commands -/

/-- Change what a pole does at the next tick boundary. -/
def Device.setGoto (d : Device) (p g : Nat) : Device := d.modPole p fun c => { c with goto := some g }

/-- BLOCK of a pole (Table 5.4). -/
def Device.blockPole (d : Device) (p : Nat) : Device :=
  let st := d.poleState p
  if st = 2 then d.abortCharge p else if st = 4 || st = 5 then d.setGoto p 3 else d

/-- The deblock tick of a pole (R189). -/
def Device.setDeblock (d : Device) (p t : Nat) : Device :=
  ((d.modPole p fun c => { c with deblockAt := some t }).wr (poleIdx 0x3001 p) 4 t).wr (poleIdx 0x3001 p) 3 4

/-- The effect of an accepted command of 0x3001, but for DEBLOCK; `arg` is the run-back target as its entry holds it. -/
def Device.poleEffect (d : Device) (p code arg : Nat) : Device :=
  match code with
  | 1 =>
    let d := (d.setGoto p 2).levelRequest p 2 false
    if d.poleLanesUp p then d else (d.enEnter p 6).wr (enIdx p) 0x10 1
  | 3 => d.blockPole p
  | 4 => (d.setGoto p (if d.energised p then 3 else 1)).levelRequest p 3 false
  | 5 => (d.setGoto p 1).raiseRequest p 2 2
  | 6 => d.modPole p fun c => { c with reconnect := true }
  | 7 => (d.modPole p fun c => { c with runBack := some (f32Val arg) }).setSub p 4 true
  | 8 => (d.modPole p fun c => { c with runBack := none }).setSub p 4 false
  | _ => d

/-- Refuse a command of 0x3001; an SDO write of it is aborted (assumption log 13). -/
def Device.poleRefuse (d : Device) (p : Nat) (sdo : Bool) (result reason code : Nat) : Device :=
  let i := poleIdx 0x3001 p
  let d := (d.wr i 3 result).wr i 5 reason
  if sdo then d.abort i 1 code else d

/-- A command of 0x3001 that reaches the pole control, from SDO or from process data (R190, R409, R447). A DEBLOCK while a tick-period
change is pending is refused, and each refusal is an event (R44) (assumption log 53). -/
def Device.poleOrder (d : Device) (sdo : Bool) (p code : Nat) : Device :=
  let i := poleIdx 0x3001 p
  let free := code == 3 || code == 5 || code == 7 || code == 8
  let d := if code = 2 && d.rd 0x2010 4 ≠ 0 then d.event i 1 lvWarn [(8, p)] else d
  let lease := if code = 2 then 2 else 0
  if !free && !d.holds then d.poleRefuse p sdo 2 lease 0x08000020
  else if d.twinProfile && d.unit = 2 then d.poleRefuse p sdo 2 lease 0x08000020
  else if d.twinProfile && d.unit ≠ 3 then d.poleRefuse p sdo 3 0 0x08000022
  else
    let (r, k) := d.poleJudge p code
    if r ≠ 0 then d.poleRefuse p sdo r k 0x08000022
    else
      let d := (d.wr i 3 0).wr i 5 0
      if code = 2 then
        let t := d.futureTick 64 32
        (d.setDeblock p t).forward 3 [2, p, t]
      else
        let arg := if code = 7 then d.rd i 2 else 0
        (d.poleEffect p code arg).forward 3 [0, p, code, arg]

/-- A command of pole `p` written by SDO; its own rule judges the lease (R428). -/
def Device.poleCommand (d : Device) (p code : Nat) : Device :=
  let i := poleIdx 0x3001 p
  if p ≥ 2 || !d.mailbox then d
  else
    match d.judgeAs true i 1 1 code with
    | some a => d.abort i 1 a
    | none => d.done.poleOrder true p code

/-- ENERGISE (R188, R203, R210). -/
def execEnergise (p : Nat) (s : State) : Out := s.run fun d => d.poleCommand p 1

/-- DEBLOCK (R189). -/
def execDeblock (p : Nat) (s : State) : Out := s.run fun d => d.poleCommand p 2

/-- BLOCK (R188). -/
def execBlock (p : Nat) (s : State) : Out := s.run fun d => d.poleCommand p 3

/-- RESET (R188, R712, R208). -/
def execReset (p : Nat) (s : State) : Out := s.run fun d => d.poleCommand p 4

/-- DE_ENERGISE (R188, R202). -/
def execDeEnergise (p : Nat) (s : State) : Out := s.run fun d => d.poleCommand p 5

/-- RECONNECTED (R186). -/
def execReconnected (p : Nat) (s : State) : Out := s.run fun d => d.poleCommand p 6

/-- RUN_BACK (R165). -/
def execRunBack (p : Nat) (s : State) : Out := s.run fun d => d.poleCommand p 7

/-- RUN_BACK_END (R165). -/
def execRunBackEnd (p : Nat) (s : State) : Out := s.run fun d => d.poleCommand p 8

/-- The plant half's device state changes. -/
def Device.setDevState (d : Device) (st : Nat) : Device :=
  if d.boot.plState = st then d.showReach
  else ((d.modBoot fun b => { b with plState := st }).wr 0x2000 2 d.tick).showReach

/-- The outcome of the judgement at the deblock tick; the device enters DEBLOCKED with its first deblocked pole (R189). -/
def Device.deblockOutcome (d : Device) (p k : Nat) : Device :=
  let i := poleIdx 0x3001 p
  let d := d.modPole p fun c => { c with deblockAt := none }
  if k = 0 then
    let d := (d.wr i 3 0).enterPole p 4
    if d.boot.plState = 7 then d.setDevState 8 else d
  else ((d.wr i 3 3).wr i 5 k).event i 3 lvWarn [(16, k)]

/-- DEBLOCK_TICK (R189): at the T0 of the deblock tick every condition is judged again. A unit in STANDBY-SYNC follows the outcome
forwarded. -/
def execDeblockTick (p : Nat) (s : State) : Out :=
  s.run fun d =>
    match (d.pole p).deblockAt with
    | none => d
    | some t =>
      if p ≥ 2 || d.tick < t || (d.twinProfile && !d.isActive) then d
      else
        let k := d.deblockFails p
        (d.forward 3 [3, p, k]).deblockOutcome p k

/-- BLOCK_ALL (R555): BLOCK to every pole that is ENERGISING, DEBLOCKED or ISLANDED. -/
def Device.blockAll (d : Device) : Device := (d.blockPole 0).blockPole 1

/-- BLOCK_ALL: device command 1 of 0x2001.01. -/
def execBlockAll (s : State) : Out :=
  s.run fun d =>
    if !d.mailbox then d
    else
      match d.judgeAs true 0x2001 1 1 1 with
      | some a => d.abort 0x2001 1 a
      | none =>
        if d.twinProfile && d.unit = 2 then (d.wr 0x2001 2 2).abort 0x2001 1 0x08000020
        else if (d.twinProfile && d.unit ≠ 3) || !d.plantReachable then (d.wr 0x2001 2 1).abort 0x2001 1 0x08000022
        else ((d.done.wr 0x2001 2 0).blockAll).forward 3 [1]

end Sys2Proof.Machine
end

