-- ==== Sys2Proof/Machine/Outer.lean ====
section
/-! DEFINITION. Outer control of a pole, first part (spec/05_pole_control.md, spec/06_fault_ride_through.md): the tick tier with DC
fault detection and suppression and the reference block, and the fast tier with the grid angle tracker, the virtual synchronous
machine, islanding detection, AC ride-through, the pole energy loop and the current limits. Rationals are exact; the square root,
the circular functions and the tracker's filters are opaque.
Choices of the model: assumption log 11, 43. -/
namespace Sys2Proof.Machine

/-! ### Bases (R153) -/

/-- The bases and ratings of a pole: I_b in A, V_b in V, S_a in W, V̂_acr in V, I_acr in A, P_r in W, V_dcr in V, f_n in Hz. -/
structure PoleBase where
  ib   : Rat
  vb   : Rat
  sa   : Rat
  vac  : Rat
  iac  : Rat
  pr   : Rat
  vdcr : Rat
  fn   : Rat
  deriving DecidableEq, Repr

/-- The square root of two thirds: a line-to-line rms voltage times this is the phase peak. -/
def peakOfRms : Rat := Config.realSqrt (2 / 3)

/-- The bases of pole `p`. -/
def Device.base (d : Device) (p : Nat) : PoleBase :=
  let a := (d.poleArms p).headD (6 * p)
  let i := poleIdx 0x3004 p
  let ib := d.rdF (armIdx 0x4010 a) 2
  let vb := d.rdF (armIdx 0x4010 a) 3
  let vac := d.rdF i 5 * 1000 * peakOfRms
  let pr := d.rdF i 4 * 1000000
  { ib := ib, vb := vb, sa := vb * ib, vac := vac, iac := pr / (3 / 2 * vac), pr := pr, vdcr := d.rdF i 6 * 1000
    fn := (d.rd i 7 : Rat) }

/-- I_dcr (R198). -/
def PoleBase.idcr (b : PoleBase) : Rat := b.pr / b.vdcr

/-- v_dcn (R198). -/
def PoleBase.vdcn (b : PoleBase) : Rat := b.vdcr / (2 * b.vb)

/-- The value of a channel in engineering units; 0 where none is assigned (assumption log 40). -/
def Device.chanValue (d : Device) (ch : Nat) : Rat := if ch < 32 then d.units ch else 0

/-- The value of a channel is valid. -/
def Device.chanValid (d : Device) (ch : Nat) : Bool := ch < 32 && resultValid (d.result ch)

/-- The current channel of an arm. -/
def Device.armChan (d : Device) (a : Nat) : Nat := d.rd (armIdx 0x4010 a) 1

/-- What the tick tier reads for a pole: three voltages, three output currents i_u - i_l, V_dc, I_dc, the neutral current (R155). -/
def Device.poleSample (d : Device) (p : Nat) : List Rat :=
  let i := poleIdx 0x3004 p
  let v := d.rd i 8
  let cur := fun x => d.chanValue (d.armChan (6 * p + x)) - d.chanValue (d.armChan (6 * p + 3 + x))
  [d.chanValue (field v 0 8), d.chanValue (field v 8 8), d.chanValue (field v 16 8), cur 0, cur 1, cur 2,
   d.chanValue (d.rd i 9), d.chanValue (d.rd i 0x0A), d.chanValue (d.rd 0x3004 0x0B)]

/-- The last sample of a pole's DC voltage and current. -/
def Device.lastDc (d : Device) (p : Nat) : Rat × Rat :=
  (d.chanValue (d.rd (poleIdx 0x3004 p) 9), d.chanValue (d.rd (poleIdx 0x3004 p) 0x0A))

/-- Change the fast results in force and those on their way. -/
def Device.modFast (d : Device) (p : Nat) (f : FastRes → FastRes) : Device :=
  d.modPole p fun c => { c with
    fast := f c.fast, fastPend := c.fastPend.map fun (x : FastPend) => { x with res := f x.res } }

/-- Change the slow results in force and those on their way. -/
def Device.modSlow (d : Device) (p : Nat) (f : SlowRes → SlowRes) : Device :=
  d.modPole p fun c => { c with
    slow := f c.slow, slowPend := c.slowPend.map fun (x : SlowPend) => { x with res := f x.res } }

/-! ### DC faults in the tick tier (R215 to R218) -/

/-- The state of DC fault suppression, Table 6.3. -/
def Device.dcState (d : Device) (p : Nat) : Nat := d.rd (0x5104 + p) 0x10

/-- Enter SUPPRESSING with i_r from the measured current; the trim keeps its value (Table 6.3). -/
def Device.suppressFrom (d : Device) (p : Nat) : Device :=
  let b := d.base p
  let ir := (d.lastDc p).2 / (3 * b.ib)
  ((d.wr (0x5104 + p) 0x10 1).setSub p 0 true).modPole p fun c => { c with dc := ⟨0, ir, c.dc.xdc, d.tick, none, 0, false⟩ }

/-- A detected fault begins suppression: the trim starts at 0, and the pole energy loop is invoked (Table 6.3, R199). -/
def Device.suppress (d : Device) (p : Nat) : Device :=
  let d := (d.suppressFrom p).modPole p fun c => { c with dc := { c.dc with xdc := 0 } }
  d.modFast p fun x => { x with loopOn := false }

/-- A detected DC fault (R216): the pole trips, or suppression begins. -/
def Device.dcFault (d : Device) (p : Nat) : Device :=
  let i := 0x5104 + p
  let half := (d.poleArms p).any fun a => d.rd (armIdx 0x4010 a) 5 == 0
  let block := half || d.flag i 0x0F || d.poleState p == 5
  let d := (d.bumpEvent i 0x14 0x15 (if block then lvTrip else lvWarn) []).noteTrigger 7
  let d := d.modPole p fun c => { c with dc := { c.dc with count := 0 } }
  if block then (d.tripPole p 8).raiseChosen p 4 else d.suppress p

/-- DC fault detection in a tick (R215). -/
def Device.dcDetect (d : Device) (p : Nat) : Device :=
  let i := 0x5104 + p
  let st := d.poleState p
  if !d.flag i 1 || !(st == 4 || st == 5) || d.dcState p ≠ 0 then d
  else
    let b := d.base p
    let (v, cur) := d.lastDc p
    let vOk := d.chanValid (d.rd (poleIdx 0x3004 p) 9)
    let iOk := d.chanValid (d.rd (poleIdx 0x3004 p) 0x0A)
    if !vOk && !iOk then d
    else
      let hit := (iOk && decide (ratAbs cur > d.rdF i 3 * b.idcr)) || (vOk && decide (v < d.rdF i 2 * b.vdcr))
      let n := if hit then (d.pole p).dc.count + 1 else 0
      let d := d.modPole p fun c => { c with dc := { c.dc with count := n } }
      if hit && n ≥ d.rd i 4 then d.dcFault p else d

/-- The current ramp and the trim of SUPPRESSING and EXTINGUISHED in a tick (R218). -/
def Device.dcTick (d : Device) (p : Nat) : Device :=
  let i := 0x5104 + p
  let st := d.dcState p
  if st ≠ 1 && st ≠ 2 then d
  else
    let b := d.base p
    let cur := (d.lastDc p).2
    let step := d.rdF i 5 * (d.period : Rat) / 1000
    let inBand := decide (ratAbs cur < d.rdF i 7 * b.idcr)
    d.modPole p fun c =>
      let ir := c.dc.ir
      let ir := if st = 2 then 0 else if ratAbs ir ≤ step then 0 else if ir > 0 then ir - step else ir + step
      { c with dc := { c.dc with
          ir := ir
          xdc := c.dc.xdc + d.rdF i 9 * (d.period : Rat) / 1000000 * cur / (3 * b.ib)
          below := if inBand then some (c.dc.below.getD d.tick) else none } }

/-- A new fault is judged after the ramp of a tick, so that the block of its tick carries the measured current. -/
def Device.dcTier (d : Device) (p : Nat) : Device := (d.dcTick p).dcDetect p

/-- EXTINCTION_HOLD_EXPIRY (R217): the DC current has stayed in the band for the hold time. -/
def execExtinctionHoldExpiry (p : Nat) (s : State) : Out :=
  s.run fun d =>
    match (d.pole p).dc.below with
    | none => d
    | some t =>
      if p ≥ 2 || d.dcState p ≠ 1 || d.tick < t + d.ticksOf (d.rd (0x5104 + p) 8) then d
      else
        let d := (d.wr (0x5104 + p) 0x10 2).wr (0x5104 + p) 0x12 ((d.tick - (d.pole p).dc.since) * d.period)
        d.modPole p fun c => { c with dc := { c.dc with ir := 0, extinct := d.tick } }

/-- EXTINCTION_LIMIT_EXPIRY (R217): no extinction within the limit trips the pole. -/
def execExtinctionLimitExpiry (p : Nat) (s : State) : Out :=
  s.run fun d =>
    if p ≥ 2 || d.dcState p ≠ 1 || d.tick < (d.pole p).dc.since + d.ticksOf (d.rd (0x5104 + p) 6) then d
    else ((d.dcNormal p).tripPole p 8).raiseChosen p 5

/-- The deionisation time has run. -/
def Device.deionised (d : Device) (p : Nat) : Bool :=
  d.dcState p == 2 && decide (d.tick ≥ (d.pole p).dc.extinct + d.ticksOf (1000 * d.rd (0x5104 + p) 0x0A))

/-- Enter RESTARTING at the commit tick of the run that decided it: the voltage target starts at the measured share, and the block
carries it with the DC VOLTAGE form of i_z0 (R219). -/
def Device.dcRestart (d : Device) (p : Nat) : Device :=
  let b := d.base p
  let (v, cur) := d.lastDc p
  let d := (d.wr (0x5104 + p) 0x10 3).modPole p fun c => { c with dc := { c.dc with again := false } }
  d.modFast p fun x => { x with
    vt := v / (2 * b.vb), xR := 0, vdcs := some (v / (2 * b.vb)), iz0 := some (cur / b.ib / 3) }

/-- A restart is asked for once the deionisation time has run: the fast run that starts next decides it (R196, R217). -/
def Device.restartAsked (d : Device) (p : Nat) : Device :=
  if d.deionised p then d.modPole p fun c => { c with dc := { c.dc with again := true } } else d

/-- DEIONISATION_EXPIRY (R217): the end of the deionisation time starts an automatic restart. -/
def execDeionisationExpiry (p : Nat) (s : State) : Out :=
  s.run fun d => if p < 2 && d.flag (0x5104 + p) 0x0D then d.restartAsked p else d

/-- DC_RESTART (R217): a write of 0x01 to 0x5104 + p .11. -/
def execDcRestart (p : Nat) (s : State) : Out :=
  s.run fun d =>
    if p ≥ 2 then d
    else d.sdo (0x5104 + p) 0x11 1 1 fun d => (d.forward 0x02 [odKey (0x5104 + p) 0x11, d.tick + 1, 1]).restartAsked p

/-! ### The arm-current check of energisation (R204) -/

/-- One tick of the check: counts of consecutive ticks above the limit per arm. -/
def Device.enCurrent (d : Device) (p : Nat) : Device :=
  let st := d.rd (enIdx p) 0x0E
  if d.poleState p ≠ 2 || st = 0 || st > 4 then d
  else
    let lim := d.rdF (enIdx p) 2 * (d.base p).ib
    let old := (d.pole p).en.overs
    let cnt := (armsOf p).map fun a =>
      let k := old.getD (a % 6) 0
      let ch := d.armChan a
      if !d.armPresent a || !d.chanValid ch then k
      else if ratAbs (d.chanValue ch) > lim then k + 1 else 0
    let d := d.modPole p fun c => { c with en := { c.en with overs := cnt } }
    if cnt.any (· ≥ 2) then d.enAbort p 3 else d

/-! ### The reference block (R187, R197) -/

/-- The fast results in force at the T0 of tick `n`. -/
def PoleCtl.fastAt (c : PoleCtl) (n : Nat) : FastRes :=
  match c.fastPend with
  | some x => if x.finish && x.commit = n then x.res else c.fast
  | none => c.fast

/-- The slow results in force at the T0 of tick `n`. -/
def PoleCtl.slowAt (c : PoleCtl) (n : Nat) : SlowRes :=
  match c.slowPend with
  | some x => if x.finish && x.commit = n then x.res else c.slow
  | none => c.slow

/-- The learning permit of a pole (R187). -/
def Device.learnPermit (d : Device) (p : Nat) (angleOk : Bool) : Bool :=
  let st := d.poleState p
  let calm := match (d.pole p).modeSince with
    | some t => decide (d.tick ≥ t + d.ticksOf 2000000)
    | none => true
  (st == 4 || st == 5) && !d.sub p 0 && !d.sub p 1 && angleOk && calm && d.flag (poleIdx 0x3004 p) 0x0E

/-- A rational per-unit value as an engine word. -/
def engWord (x : Rat) : Int := q24 x

/-- Compose the block of a pole for the T0 of tick `n` (R197). -/
def Device.composeFor (d : Device) (p n : Nat) : RefBlock :=
  let c := d.pole p
  let f := c.fastAt n
  let sl := c.slowAt n
  let b := d.base p
  let dc := d.dcState p
  let tickDc := dc == 1 || dc == 2
  let iz := if tickDc then c.dc.ir - c.dc.xdc else f.iz0.getD sl.iz0
  let vs := if tickDc then (d.lastDc p).1 / (2 * b.vb) else f.vdcs.getD sl.vdcs
  let pu := fun (v : Rat) => engWord (v / b.vb)
  { thetaB := f.thetaB, nB := f.nB, dTheta := f.dTheta, angleOk := f.angleOk, permit := d.learnPermit p f.angleOk
    idp := engWord f.idp, iqp := engWord f.iqp, idn := engWord f.idn, iqn := engWord f.iqn
    vdp := pu f.trk.vpd, vqp := pu f.trk.vpq, vdn := pu f.trk.vnd, vqn := pu f.trk.vnq
    vdcs := engWord vs, r := 0, dA2 := 0, dPhi2 := 0
    iz0 := List.replicate 3 (engWord iz), dw := List.replicate 6 (engWord (d.rdF (poleIdx 0x3002 p) 6)), band := 0 : RefBlock }.withXs sl.xs

/-- The block that the tick tier commits for the next T0. -/
def Device.composeRef (d : Device) (p : Nat) : RefBlock := d.composeFor p (d.tick + 1)

/-- Add a sample to the tick-tier sums. -/
def PoleCtl.addSample (c : PoleCtl) (x : List Rat) : PoleCtl :=
  { c with
    samples := c.samples ++ [x]
    sums := { c.sums with
      n := c.sums.n + 1, vdc := c.sums.vdc + x.getD 6 0, idc := c.sums.idc + x.getD 7 0, ineu := c.sums.ineu + x.getD 8 0 } }

/-- The tick tier's reading of a pole (R156). -/
def Device.tierSample (d : Device) (p : Nat) : Device :=
  if !d.polePresent p then d
  else
    let x := d.poleSample p
    let d := d.modPole p fun c => c.addSample x
    (d.wrF (poleIdx 0x3000 p) 9 (x.getD 6 0 / 1000)).wrF (poleIdx 0x3000 p) 0x0A (x.getD 7 0)

/-- The tick tier of a pole in the slot of core pair 3 (R156, R196). -/
def Device.tickTier (d : Device) (p : Nat) : Device :=
  if !d.polePresent p then d
  else
    let d := ((d.tierSample p).dcTier p).enCurrent p
    let b := d.composeRef p
    { d.setSub p 7 b.permit with refsNext := d.refsNext.set p b }

/-! ### The grid angle tracker (R172 to R174) -/

/-- |V⁺|² in units of V̂_acr², exact. -/
def PoleBase.vplus2 (b : PoleBase) (t : Tracker) : Rat := (t.vpd * t.vpd + t.vpq * t.vpq) / (b.vac * b.vac)

/-- v⁺ in per unit of V̂_acr. -/
def PoleBase.vplus (b : PoleBase) (t : Tracker) : Rat := Config.realSqrt (b.vplus2 t)

/-- One run of the tracker's signal path: the opaque filters and PI controller give the outputs, the phase error in degrees first among
the filters' values. The frequency keeps within its range; in IDLE the PI controller stands at f_n, from which it starts, and a frozen
tracker holds it and extrapolates its angle (R172). -/
def Device.trackerOut (d : Device) (p : Nat) (t : Tracker) (us : Nat) : Tracker :=
  let i := poleIdx 0x3006 p
  let fn := (d.rd (poleIdx 0x3004 p) 7 : Rat)
  let range := d.rdF i 4
  let s := (us : Rat) / 1000000
  let settings := [s, fn, d.rdF i 3, range, d.rdF i 0x40, (t.state : Rat), t.integ, t.theta]
  let o := Config.trackerStep settings t.inner (d.pole p).samples
  let y := fun k => o.getD k 0
  let still := t.state = 3 || t.state = 0
  let freq := if t.state = 3 then t.freq else if t.state = 0 then fn else ratClamp (fn - range) (fn + range) (y 1)
  let theta := if still then t.theta + t.freq * s else y 0
  { t with
    inner := o.drop 12
    integ := if t.state = 3 then t.integ else if t.state = 0 then fn else y 11
    theta := theta - (ratFloor theta : Rat)
    freq := freq
    rocof := if still then 0 else y 2
    vpd := y 3, vpq := y 4, vnd := y 5, vnq := y 6, ipd := y 7, ipq := y 8, ind := y 9, inq := y 10 }

/-- The tracker's state machine in a run of `us` µs (Table 5.3): the new tracker, and whether the angle was lost (assumption log 41). -/
def Device.trackerNext (d : Device) (p : Nat) (t : Tracker) (us : Nat) : Tracker × Bool :=
  let b := d.base p
  let i := poleIdx 0x3006 p
  let t := d.trackerOut p t us
  let v2 := b.vplus2 t
  let mag2 := t.vpd * t.vpd + t.vpq * t.vpq
  let k := d.rdF i 0x41
  let inLock := decide (t.vpq * t.vpq < k * k * mag2) && decide (ratAbs (t.freq - b.fn) ≤ d.rdF i 4)
  let low := decide (v2 < 9 / 100)
  let skew := decide (t.vpq * t.vpq > 4 / 100 * mag2)
  let up := fun (on : Bool) (n : Nat) => if on then n + us else 0
  let go := fun (st : Nat) (ok : Bool) => { t with state := st, holdUs := 0, backUs := 0, valid := ok }
  let keep := fun (h bk : Nat) => { t with holdUs := h, backUs := bk }
  let (t', lost) : Tracker × Bool :=
    if !d.polePresent p then (go 0 false, false)
    else
      match t.state with
      | 0 => if low then (keep 0 0, false) else (go 1 false, false)
      | 1 =>
        let h := up inLock t.holdUs
        let bk := up low t.backUs
        if h ≥ 20000 then (go 2 true, false) else if bk ≥ 20000 then (go 0 false, false) else (keep h bk, false)
      | 2 =>
        let h := up skew t.holdUs
        if low then (go 3 true, false) else if h ≥ 10000 then (go 1 false, true) else (keep h 0, false)
      | _ =>
        let h := up (decide (v2 ≥ 1225 / 10000)) t.holdUs
        let bk := t.backUs + us
        if h ≥ 20000 then (go 2 true, false)
        else if bk > 1000 * d.rd i 5 then (go 1 false, true) else (keep h bk, false)
  ({ t' with clearUs := if t'.valid then 0 else t'.clearUs + us }, lost)

/-- ANGLE_LOSS_TRIP (R173): angle valid has been clear for the angle-loss delay. -/
def execAngleLossTrip (p : Nat) (s : State) : Out :=
  s.run fun d =>
    let c := d.pole p
    if p < 2 && d.poleState p = 4 && !c.slow.form && !c.fast.trk.valid
        && c.fast.trk.clearUs ≥ 1000 * d.rd (poleIdx 0x3006 p) 6 then d.tripPole p 4
    else d

/-! ### Measured powers (R154) -/

/-- P of a tracker's components, in W. -/
def Tracker.power (t : Tracker) : Rat := 3 / 2 * (t.vpd * t.ipd + t.vpq * t.ipq) + 3 / 2 * (t.vnd * t.ind + t.vnq * t.inq)

/-- Q, in var. -/
def Tracker.reactive (t : Tracker) : Rat := 3 / 2 * (t.vpq * t.ipd - t.vpd * t.ipq)

/-! ### The virtual synchronous machine (R175, R176, R185) -/

/-- A vector turned by an angle in turns. -/
def turn (x y ang : Rat) : Rat × Rat :=
  (x * Config.realCos ang - y * Config.realSin ang, x * Config.realSin ang + y * Config.realCos ang)

/-- The machine as R176 initialises it, for the grid angle `theta` and a current order in units of I_acr. It keeps the direction that E
has then, so that the magnitude alone follows R175 (assumption log 43). -/
def Device.vsmInit (d : Device) (p : Nat) (t : Tracker) (theta idp iqp pe : Rat) : Vsm :=
  let b := d.base p
  let rv := d.rdF (poleIdx 0x3007 p) 4
  let xv := d.rdF (poleIdx 0x3007 p) 3
  let ed := t.vpd / b.vac + rv * idp - xv * iqp
  let eq := t.vpq / b.vac + rv * iqp + xv * idp
  let e2 := ed * ed + eq * eq
  let e := Config.realSqrt e2
  { on := true, lead := true, omega := t.freq / b.fn, theta := theta, ed := ed, eq := eq
    dd := if e2 = 0 then 1 else ed / e, dq := if e2 = 0 then 0 else eq / e, pm := pe, iso := 0 }

/-- The current order of the machine in units of I_acr: (E - V) / (ρ + jX) in the frame of θ_v. -/
def Device.vsmCurrent (d : Device) (p : Nat) (m : Vsm) (vd vq : Rat) : Rat × Rat :=
  let rv := d.rdF (poleIdx 0x3007 p) 4
  let xv := d.rdF (poleIdx 0x3007 p) 3
  let z2 := rv * rv + xv * xv
  let x := m.ed - vd
  let y := m.eq - vq
  ((x * rv + y * xv) / z2, (y * rv - x * xv) / z2)

/-- The swing of the machine in a run: powers in units of P_r, `hold` keeps ω (R214). The spec gives an islanded machine no P_c, its P orders
being stored and not used (R185); that P_e at the entry to ISLANDED stands in its place is the model's choice (assumption log 43). -/
def Device.vsmSwing (d : Device) (p : Nat) (m : Vsm) (t : Tracker) (pc pe : Rat) (hold : Bool) (us : Nat) : Vsm :=
  let b := d.base p
  let i := poleIdx 0x3007 p
  let tf := (us : Rat) / 1000000
  let island := d.poleState p = 5
  let kf := d.rdF i 5
  let wref := if island then 1 else d.rdF (poleIdx 0x3002 p) 5 / b.fn
  let rate := d.rdF (0x5200 + p) 0x0B / b.fn * tf
  let iso := if island then m.iso + ratClamp (-rate / kf) (rate / kf) ((1 - m.omega) / kf) else 0
  let pin := if island then m.pm else pc
  let pm := pin + (wref - m.omega) / kf + iso
  let wg := if t.state = 2 then t.freq / b.fn else m.omega
  let range := d.rdF (poleIdx 0x3006 p) 4 / b.fn
  let w := if hold then m.omega
    else ratClamp (1 - range) (1 + range) (m.omega + tf * (pm - pe - d.rdF i 2 * (m.omega - wg)) / (2 * d.rdF i 1))
  let th := m.theta + w * b.fn * tf
  { m with omega := w, theta := th - (ratFloor th : Rat), pm := if island then m.pm else pm, iso := iso }

/-! ### Islanding detection (R179 to R183) -/

/-- Islanding detection and its injection are suspended (R183). -/
def Device.islSuspended (d : Device) (p : Nat) : Bool :=
  d.poleState p != 4 || d.sub p 0 || decide ((d.pole p).fast.ride.quietUs < 500000)

/-- The ticks of an injection window. -/
def Device.islWindow (d : Device) : Nat := d.ticksOf 10000

/-- One run of islanding detection: the new values, and whether it decides. The first run that starts at or after the end of a window
computes Z; `vn` is the negative-sequence voltage of the run's period in the frame of the block (assumption log 44). -/
def Device.islNext (d : Device) (p : Nat) (t : Tracker) (vn : Rat × Rat) (err : Rat) (us : Nat) : Islanding × Bool :=
  let i := 0x5200 + p
  let x := (d.pole p).fast.isl
  let b := d.base p
  let sus := d.islSuspended p
  let mon := d.flag i 1 && d.poleState p == 4
  let rocofUs := if mon && decide (ratAbs t.rocof > d.rdF i 3) then x.rocofUs + us else 0
  let fires := mon && (decide (rocofUs ≥ 1000 * d.rd i 4) || decide (ratAbs (err - x.lastErr) > d.rdF i 5))
  let indUs := if fires then 40000 else if mon then x.indUs - us else 0
  let passUs := if indUs = 0 then 0 else x.passUs + us
  let active := mon && d.flag i 2 && !sus
  let win := d.tick / d.islWindow
  let edge := win != x.win
  -- runs is 0 while no window has begun, else 1 + the runs taken
  let sumD := x.sumD + vn.1
  let sumQ := x.sumQ + vn.2
  let n : Rat := (x.runs : Rat)
  let mean := (sumD / n, sumQ / n)
  let fresh : Islanding := { x with
    base := win, sumD := 0, sumQ := 0, runs := if edge then 1 else 0, prev := none, zPrev := none }
  let y : Islanding × Option Rat :=
    if !active then ({ fresh with runs := 0 }, none)
    else if x.runs = 0 then (fresh, none)
    else if edge then
      let z := x.prev.map fun (a : Rat × Rat) =>
        Config.realSqrt ((mean.1 - a.1) * (mean.1 - a.1) + (mean.2 - a.2) * (mean.2 - a.2)) / b.vac / (2 * d.rdF i 6)
      ({ x with sumD := 0, sumQ := 0, runs := 1, prev := some mean, zPrev := z }, z)
    else ({ x with sumD := sumD, sumQ := sumQ, runs := x.runs + 1 }, none)
  let lim := d.rdF i 7
  let high := match y.2 with
    | some z => decide (z > lim)
    | none => false
  let before := match x.zPrev with
    | some z => decide (z > lim)
    | none => false
  let passive := mon && !d.flag i 2 && !sus && decide (passUs ≥ 1000 * d.rd i 8)
  let decides := mon && !sus && ((high && (before || indUs != 0)) || passive)
  ({ y.1 with win := win, rocofUs := rocofUs, indUs := indUs, passUs := passUs, lastErr := err
              fired := d.poleState p == 4 && (x.fired || decides) }, decides)

/-- The injected I⁻d for the run that commits at tick `commit`, in units of I_acr: of the window that holds that tick, the first one
counting as k = 0 (R180, R183). -/
def Device.islInjection (d : Device) (p : Nat) (x : Islanding) (commit : Nat) : Rat :=
  let i := 0x5200 + p
  let win := commit / d.islWindow
  let base := if x.runs = 0 then win else x.base
  if (x.runs = 0 && win = d.tick / d.islWindow) || !(d.flag i 1 && d.flag i 2) || d.islSuspended p then 0
  else if (win - base) % 2 = 0 then d.rdF i 6 else -d.rdF i 6

/-! ### AC ride-through (R209 to R213) -/

/-- The profile band at an elapsed time in ms (R210): low and high limits. -/
def Device.rideBand (d : Device) (p ms : Nat) : Rat × Rat :=
  let i := poleIdx 0x3008 p
  let k := ((List.range (d.rd i 1)).filter fun k => d.rd i (0x10 + k) ≤ ms).length - 1
  (d.rdF i (0x20 + k), d.rdF i (0x30 + k))

/-- A number that is not negative compared with the square root of `v2`. -/
def rootLess (v2 x : Rat) : Bool := decide (v2 < x * x)

/-- One run of ride-through: the new values, and the transition it takes (from, to, abort). `pe` is the measured P, `pc` the value of
R166 and `po` the order at which the ramp of RECOVERING ends, in arm per unit (assumption log 44). -/
def Device.rideNext (d : Device) (p : Nat) (t : Tracker) (pe pc po idqHeld : Rat) (us : Nat) : RideThrough × Option FastAct :=
  let i := 0x5100 + p
  let b := d.base p
  let x := (d.pole p).fast.ride
  let st := d.poleState p
  let v := b.vplus t
  let v2 := b.vplus2 t
  let n := 1000 * d.rd i 9 / max 1 us
  let dip := d.rdF i 2
  let swell := d.rdF i 3
  let hyst := d.rdF i 4
  let was := x.hist
  let x : RideThrough := { x with hist := (v :: was).take n }
  let calm : RideThrough := { x with state := 0, elapsed := 0, inBand := 0
                                     quietUs := if d.sub p 0 then 0 else min 1000000 (x.quietUs + us) }
  if !d.flag i 1 || !(st == 4 || st == 5) then (calm, none)
  else
    let isDip := rootLess v2 dip
    let isSwell := decide (v2 > swell * swell)
    let enter : Nat → RideThrough := fun k =>
      { x with state := k, elapsed := 0, inBand := 0, pcHeld := pc, iqHeld := idqHeld, quietUs := 0
               upre := if was.isEmpty then v else was.foldl (· + ·) 0 / (was.length : Rat) }
    match x.state with
    | 0 => if isDip then (enter 1, some (.ride 0 1 false)) else if isSwell then (enter 2, some (.ride 0 2 false)) else (calm, none)
    | 3 =>
      let again := fun (k : Nat) => { x with state := k, elapsed := 0, inBand := 0 }
      let step := d.rdF i 0x0A * b.pr / b.sa * (us : Rat) / 1000000
      if isDip then (again 1, some (.ride 3 1 false))
      else if isSwell then (again 2, some (.ride 3 2 false))
      else
        let y := if ratAbs (pc - x.ramp) ≤ step then pc else if pc > x.ramp then x.ramp + step else x.ramp - step
        let there := (decide (x.ramp ≤ po) && decide (po ≤ y)) || (decide (y ≤ po) && decide (po ≤ x.ramp))
        if there then ({ calm with quietUs := 0 }, some (.ride 3 0 false)) else ({ x with ramp := y }, none)
    | k =>
      let el := x.elapsed + us
      let (lo, hi) := d.rideBand p (el / 1000)
      let good := decide (v2 ≥ (dip + hyst) * (dip + hyst)) && decide (v2 ≤ (swell - hyst) * (swell - hyst))
      let inBand := if good then x.inBand + us else 0
      if rootLess v2 lo || decide (v2 > hi * hi) || el > 1000 * d.rd i 6 then ({ calm with quietUs := 0 }, some (.ride k 0 true))
      else if inBand ≥ 1000 * d.rd i 5 then
        ({ x with state := 3, elapsed := el, inBand := 0, ramp := pe }, some (.ride k 3 false))
      else if isSwell && k = 1 then ({ x with state := 2, elapsed := el, inBand := inBand }, some (.ride 1 2 false))
      else if isDip && k = 2 then ({ x with state := 1, elapsed := el, inBand := inBand }, some (.ride 2 1 false))
      else ({ x with elapsed := el, inBand := inBand }, none)

/-! ### Current limits (R170, R212) -/

/-- Current orders in arm per unit, with the axes a limit acted on. -/
structure Orders where
  idp  : Rat
  iqp  : Rat
  idn  : Rat
  iqn  : Rat
  limD : Bool
  limQ : Bool
  limN : Bool
  deriving DecidableEq, Repr

/-- The root of the square of the limit less a square; 0 where nothing is left. -/
def headroom (lim x : Rat) : Rat := if x * x ≥ lim * lim then 0 else Config.realSqrt (lim * lim - x * x)

/-- R170 in grid-following operation: `q` for reactive priority. -/
def limitAxes (lim : Rat) (q : Bool) (o : Orders) : Orders :=
  if q then
    let iq := ratClamp (-lim) lim o.iqp
    let h := headroom lim iq
    let id := ratClamp (-h) h o.idp
    { o with idp := id, iqp := iq, limD := id != o.idp, limQ := iq != o.iqp }
  else
    let id := ratClamp (-lim) lim o.idp
    let h := headroom lim id
    let iq := ratClamp (-h) h o.iqp
    { o with idp := id, iqp := iq, limD := id != o.idp, limQ := iq != o.iqp }

/-- R170 in grid-forming operation: a vector beyond the limit is scaled to it. -/
def limitVector (lim : Rat) (o : Orders) : Orders :=
  let m2 := o.idp * o.idp + o.iqp * o.iqp
  if m2 ≤ lim * lim then o
  else
    let k := lim / Config.realSqrt m2
    { o with idp := o.idp * k, iqp := o.iqp * k, limD := true, limQ := true }

/-- R212: reactive current, then the negative-sequence vector, then the active current. -/
def limitRide (lim : Rat) (o : Orders) : Orders :=
  let iq := ratClamp (-lim) lim o.iqp
  let left := lim - ratAbs iq
  let n2 := o.idn * o.idn + o.iqn * o.iqn
  let big := decide (n2 > left * left)
  let nm := if big then left else Config.realSqrt n2
  let k := if big then left / Config.realSqrt n2 else 1
  let rest := lim - nm
  let h := headroom rest iq
  let id := ratClamp (-h) h o.idp
  { idp := id, iqp := iq, idn := o.idn * k, iqn := o.iqn * k, limD := id != o.idp, limQ := iq != o.iqp, limN := big }

/-! ### The pole energy loop (R199) -/

/-- The mean of w over the present arms of a pole. -/
def Device.meanW (d : Device) (p : Nat) : Rat :=
  let as := d.poleArms p
  if as.isEmpty then 0 else (as.foldl (fun s a => s + d.rdF (armIdx 0x4015 a) 6) 0) / (as.length : Rat)

/-- The active current of the loop for a target, within a limit, and the next integrator. -/
def Device.energyLoop (d : Device) (p : Nat) (x wt vg lim : Rat) (us : Nat) : Rat × Rat :=
  let e := wt - d.meanW p
  let pc := -(d.rdF (enIdx p) 0x0C * e + x)
  let id := pc / (3 / 2 * vg)
  let idl := ratClamp (-lim) lim id
  (idl, if idl != id then x else x + d.rdF (enIdx p) 0x0D * (us : Rat) / 1000000 * e)

/-! ### A fast run -/

/-- The voltage a pole's loops divide by: |V⁺| in arm per unit, raised to the floor (R166). -/
def Device.vgFloor (d : Device) (p : Nat) (t : Tracker) : Rat :=
  let b := d.base p
  ratMax (Config.realSqrt (t.vpd * t.vpd + t.vpq * t.vpq) / b.vb) (d.rdF (poleIdx 0x3005 p) 0x40)

/-- The DC share a pole's loops divide by: V_dc / 2 V_b, raised in magnitude to the floor (R166). -/
def Device.shareFloor (d : Device) (p : Nat) (v : Rat) : Rat :=
  let s := v / (2 * (d.base p).vb)
  let f := d.rdF (poleIdx 0x3005 p) 0x41
  if ratAbs s ≥ f then s else if s < 0 then -f else f

/-- The fast period of a pole in µs. -/
def Device.fastUs (d : Device) (p : Nat) : Nat := d.rd (poleIdx 0x3004 p) 0x0C

/-- The mean of V_dc over the samples of a fast period. -/
def Device.fastVdc (d : Device) (p : Nat) : Rat :=
  let xs := (d.pole p).samples
  if xs.isEmpty then (d.lastDc p).1 else (xs.foldl (fun s x => s + x.getD 6 0) 0) / (xs.length : Rat)

/-- The active charge of energisation (R206): the target u_t over V_cn. -/
def Device.chargeTarget (d : Device) (p : Nat) : Rat :=
  let as := d.poleArms p
  let c := d.pole p
  let v := d.vcn (as.headD (6 * p))
  let mean := if as.isEmpty then 0
    else (as.foldl (fun s a => s + c.en.starts.getD (a % 6) 0) 0) / (as.length : Rat)
  let t : Rat := ((d.tick - c.en.entered) * d.period : Nat)
  ratMin 1 (mean / v + d.rdF (enIdx p) 8 * t / 1000000)

/-- One run of the DC restart ramp (R219): v_t, its integrator, i_z0, and how it ends (Table 6.3). -/
def Device.restartNext (d : Device) (p us : Nat) : Rat × Rat × Rat × Option FastAct :=
  let i := 0x5104 + p
  let b := d.base p
  let f := (d.pole p).fast
  let (v, cur) := d.lastDc p
  let vdcn := b.vdcn
  let step := d.rdF i 0x0B * vdcn * (us : Rat) / 1000000
  let vt := if ratAbs (vdcn - f.vt) ≤ step then vdcn else if vdcn > f.vt then f.vt + step else f.vt - step
  let e := (2 * vt * b.vb - v) / b.vb
  let lim := d.rdF (poleIdx 0x3005 p) 0x42
  let iz := cur / b.ib / 3 + d.rdF (poleIdx 0x3005 p) 3 * e + f.xR
  let xR := ratClamp (-lim) lim (f.xR + d.rdF (poleIdx 0x3005 p) 4 * (us : Rat) / 1000000 * e)
  let act :=
    if ratAbs cur > d.rdF i 3 * b.idcr then
      if d.rd i 0x13 < d.rd i 0x0C then some (.restart 1 false) else some (.restart 0 true)
    else if vt = vdcn && v ≥ 95 / 100 * b.vdcr then some (.restart 0 false) else none
  (vt, xR, iz, act)

/-- The results and decisions of the fast run that starts at the present tick (R156, R158). -/
def Device.fastRun (d : Device) (p : Nat) : FastRes × List FastAct :=
  let us := d.fastUs p
  let commit := d.tick + d.ticksOf us
  let c := d.pole p
  let f := c.fast
  let b := d.base p
  let st := d.poleState p
  let dc := d.dcState p
  let s := (us : Rat) / 1000000
  let (trk, lost) := d.trackerNext p f.trk us
  let err := trk.inner.headD 0
  let pe := trk.power / b.sa
  let qe := trk.reactive / b.sa
  let vg := d.vgFloor p trk
  let share := d.shareFloor p (d.fastVdc p)
  let iacr := b.iac / b.ib
  let lim := d.rdF (poleIdx 0x3003 p) 0x0A * iacr
  -- the machine runs with grid mode 1, and leads the block while the pole is DEBLOCKED or ISLANDED
  let machine := c.slow.form || st == 5
  let forming := machine && (st == 4 || st == 5)
  let fresh := if forming then !f.vsm.lead else !f.vsm.on
  let m0 : Vsm := if !machine then { f.vsm with on := false, lead := false }
    else if fresh then { d.vsmInit p trk trk.theta (f.idp / iacr) (f.iqp / iacr) (pe * b.sa / b.pr) with lead := forming }
    else { f.vsm with lead := forming }
  let (vd, vq) := if forming then turn trk.vpd trk.vpq (trk.theta - m0.theta) else (trk.vpd, trk.vpq)
  let (wd, wq) := if forming then turn trk.vnd trk.vnq (m0.theta - trk.theta) else (trk.vnd, trk.vnq)
  -- ride-through and islanding detection
  let po := if c.slow.dcMode = 0 then c.slow.pRamp * 1000000 / b.sa else c.slow.pc
  let (ride, rideAct) := d.rideNext p trk pe c.slow.pc po f.iqp us
  let (isl, island) := d.islNext p trk (wd, wq) err us
  let riding := ride.state == 1 || ride.state == 2
  let kn := d.rdF (0x5100 + p) 8
  let nd := if riding then -(kn * (wq / b.vac) * iacr) else d.islInjection p isl commit * iacr
  let nq := if riding then kn * (wd / b.vac) * iacr else 0
  let uord := if c.slow.acMode = 1 || st = 5 then c.slow.uRamp else d.rdF (poleIdx 0x3004 p) 5
  let e := uord * 1000 * peakOfRms / b.vac
    + d.rdF (poleIdx 0x3007 p) 6 * (c.slow.qRamp * 1000000 / b.pr - qe * b.sa / b.pr)
  let m := if machine && !fresh then { m0 with ed := e * m0.dd, eq := e * m0.dq } else m0
  let (md, mq) := if forming then d.vsmCurrent p m (vd / b.vac) (vq / b.vac) else (0, 0)
  -- the DC side: a restart that ends leaves the run's results to NORMAL
  let (vt, xR, izR, restartAct) := if dc = 3 then d.restartNext p us else (f.vt, f.xR, 0, none)
  let dc := match restartAct with
    | some (.restart 0 _) => 0
    | _ => dc
  let begins := if dc = 2 && c.dc.again && d.deionised p then [FastAct.restartBegin] else []
  -- the pole energy loop
  let charging := st == 2 && d.rd (enIdx p) 0x0E == 4
  let loopOn := charging || dc != 0
  let xE := if f.loopOn then f.xE else 0
  let ut := d.chargeTarget p
  let rr := c.slow.xs.getD 3 1
  let (idE, xE') := if charging then d.energyLoop p xE (ut * ut) vg (d.rdF (enIdx p) 2) us
    else if dc ≠ 0 then d.energyLoop p xE (rr * rr) vg lim us else (0, 0)
  -- the orders before the limit
  let pcNow := if riding then ride.pcHeld else if ride.state = 3 then ride.ramp else c.slow.pc
  let id0 := if charging || dc != 0 then idE else if forming then md * iacr else
    if ride.state = 0 then c.slow.idp else pcNow / (3 / 2 * vg)
  let dq := d.rdF (0x5100 + p) 7 * (ride.upre - b.vplus trk) * iacr
  let iq0 := if charging then 0 else if forming then mq * iacr else if riding then ride.iqHeld - dq else c.slow.iqp
  let o0 : Orders := ⟨id0, iq0, if charging then 0 else nd, if charging then 0 else nq, false, false, false⟩
  let o := if charging then o0
    else if riding then limitRide lim o0
    else if forming then limitVector lim o0 else limitAxes lim (d.rd (poleIdx 0x3003 p) 0x0B == 1) o0
  let limited := o.limD || o.limQ || o.limN
  let pcm := if ride.state = 3 then ride.ramp else c.slow.pc
  let m := if machine then d.vsmSwing p m trk (pcm * b.sa / b.pr) (pe * b.sa / b.pr) (riding && limited) us else m
  let power := c.slow.dcMode = 0
  let iz0 : Option Rat :=
    if dc = 3 then some izR
    else if charging then some 0
    else if power && riding then some (pe / (6 * share))
    else if power && ride.state = 3 then some (ride.ramp / (6 * share))
    else if st = 5 then some (pe / (6 * share)) else none
  let vdcs : Option Rat := if dc = 3 then some vt else if charging then some (b.vdcn * ut) else none
  let freq := if forming then m.omega * b.fn else trk.freq
  let thG := trk.theta + trk.freq * s
  let th := if forming then m.theta else thG
  let res : FastRes :=
    { trk := { trk with vpd := vd, vpq := vq, vnd := wd, vnq := wq }, vsm := m, ride := ride, isl := isl
      idp := o.idp, iqp := o.iqp, idn := o.idn, iqn := o.iqn, limD := o.limD, limQ := o.limQ, limited := limited
      thetaG := thG, thetaB := ofInt 32 (ratRound (th * (2 ^ 32 : Nat))), nB := commit
      dTheta := (ratRound (freq * (d.period : Rat) / 1000000 * (2 ^ 32 : Nat))).toNat
      angleOk := if forming then true else trk.valid, iz0 := iz0, vdcs := vdcs, xE := xE', loopOn := loopOn, vt := vt, xR := xR
      pe := pe, qe := qe }
  let en := match (if st = 2 then d.enNext p trk.state else none) with
    | some (dst, r) => [FastAct.energise (d.rd (enIdx p) 0x0E) dst r]
    | none => []
  (res, en ++ rideAct.toList ++ (if island then [.island] else []) ++ begins ++ restartAct.toList
    ++ (if lost then [.angleLost] else []))

/-- The outer loops run in this unit: not in STANDBY-UNSYNC or OUT-OF-SERVICE, in RESYNC only once started (R408, R443). -/
def Device.outerRuns (d : Device) : Bool :=
  d.ticking && !d.boot.pairsHalted
    && (!d.twinProfile || d.unit == 3 || d.unit == 2 || (d.unit == 1 && d.twin.gotOuter))

/-- A fast-tier run of pole `p` starts at the T0 of the present tick, if it is a multiple of T_f (assumption log 42). -/
def Device.startFast (d : Device) (p : Nat) (finish : Bool) : Device :=
  let n := d.ticksOf (d.fastUs p)
  let busy := match (d.pole p).fastPend with
    | some x => decide (x.commit > d.tick)
    | none => false
  if p ≥ 2 || !d.outerRuns || !d.polePresent p || n = 0 || d.tick % n ≠ 0 || busy then d
  else
    let (res, acts) := d.fastRun p
    let sa := (d.base p).sa
    let v := Config.realSqrt (res.trk.vpd * res.trk.vpd + res.trk.vpq * res.trk.vpq)
    let d := d.enChecked p
    d.modPole p fun c => { c with
      fastPend := some ⟨d.tick + n, finish, res, acts⟩
      samples := []
      sums := { c.sums with
        runs := c.sums.runs + 1, p := c.sums.p + res.pe * sa, q := c.sums.q + res.qe * sa, vp := c.sums.vp + v } }

/-- FAST_RUN (R156 to R158): a fast-tier run of pole `p` starts at the T0 of a tick that is a multiple of T_f; `finish` says whether it
ends by its commit tick, which one of a pair that the debugger halts does not (R159, R468). -/
def execFastRun (p : Nat) (finish : Bool) (s : State) : Out :=
  s.run fun d => d.startFast p (finish && !bit (d.rd 0x9010 0x43) p)

/-! ### The commit of a fast run -/

/-- A pole enters ISLANDED at a tick boundary (R185). -/
def Device.enterIslanded (d : Device) (p : Nat) : Device :=
  let b := d.base p
  let f := (d.pole p).fast
  let m := if f.vsm.lead then { f.vsm with pm := f.pe * b.sa / b.pr, iso := 0 }
    else d.vsmInit p f.trk f.thetaG (f.idp / (b.iac / b.ib)) (f.iqp / (b.iac / b.ib)) (f.pe * b.sa / b.pr)
  let u := Config.realSqrt (f.trk.vpd * f.trk.vpd + f.trk.vpq * f.trk.vpq) / peakOfRms / 1000
  let iz := f.pe / (6 * d.shareFloor p (d.lastDc p).1)
  let d := ((d.enterPole p 5).setSub p 1 true).modPole p fun c => { c with transUntil := d.tick + d.ticksOf 2000000 }
  let d := d.modPole p fun c => { c with
    fast := { c.fast with vsm := m, iz0 := some iz }
    fastPend := c.fastPend.map fun (x : FastPend) =>
      let th := m.theta + m.omega * b.fn * (((x.commit - d.tick) * d.period : Nat) : Rat) / 1000000
      let r : FastRes := { x.res with vsm := { m with theta := th - (ratFloor th : Rat) }, iz0 := some iz }
      { x with res := r } }
  d.modSlow p fun x => { x with uRamp := u }

/-- The reaction of one pole to an islanding decision (R184). -/
def Device.islandPole (d : Device) (p : Nat) : Device :=
  let resp := d.rd (0x5200 + p) 9
  if d.poleState p ≠ 4 || resp = 0 then d
  else if resp = 1 && (d.pole p).slow.dcMode = 0 then d.enterIslanded p
  else (d.tripPole p 5).raiseRequest p 2 7

/-- An islanding decision of pole `p`: every pole of its AC bus that is not blocked acts (R181, R184) (assumption log 44). -/
def Device.islandAct (d : Device) (p : Nat) : Device :=
  if d.poleState p ≠ 4 then d
  else
    let i := 0x5200 + p
    let lvl := if d.rd i 9 = 2 || (d.rd i 9 = 1 && (d.pole p).slow.dcMode = 1) then lvTrip else lvWarn
    let d := (d.bumpEvent i 0x0F 0x10 lvl []).noteTrigger 8
    let bus := d.rd i 0x0A
    let d := [0, 1].foldl (fun d q =>
      if d.rd (0x5200 + q) 0x0A = bus then d.modPole q fun c => { c with islandAt := some d.tick } else d) d
    [0, 1].foldl (fun d q => if d.rd (0x5200 + q) 0x0A = bus then d.islandPole q else d) d

/-- What the active charge puts into the block at its first tick (R206): the fast runs that follow replace it. -/
def Device.chargeBegin (d : Device) (p : Nat) : Device :=
  let f := (d.pole p).fast
  let ut := d.chargeTarget p
  let vdcs := (d.base p).vdcn * ut
  let (id, _) := d.energyLoop p 0 (ut * ut) (d.vgFloor p f.trk) (d.rdF (enIdx p) 2) (d.fastUs p)
  d.modPole p fun c => { c with fast := { c.fast with
    idp := id, iqp := 0, idn := 0, iqn := 0, iz0 := some 0, vdcs := some vdcs, xE := 0, loopOn := true } }

/-- A restart is over: the block takes i_z0 and v_dcs from the slow tier again (Table 6.3). -/
def Device.restartOver (d : Device) (p : Nat) : Device :=
  (d.dcNormal p).modFast p fun x => { x with iz0 := none, vdcs := none }

/-- Apply a decision of a fast run at its commit tick, where the pole still stands as it did. -/
def Device.fastAct (p : Nat) (d : Device) (x : FastAct) : Device :=
  match x with
  | .energise src dst r =>
    if d.poleState p = 2 && d.rd (enIdx p) 0x0E = src then
      let d := d.enGo p dst r
      if dst = 4 then d.chargeBegin p else d
    else d
  | .ride src dst abort =>
    let i := 0x5100 + p
    let st := d.poleState p
    if !(st == 4 || st == 5) then d.rideNormal p
    else
      let _ := src
      let d := if (src = 0 || src = 3) && (dst = 1 || dst = 2) then (d.bump i 0x0F 0x10).noteTrigger 6
        else if dst = 1 || dst = 2 then d.noteTrigger 6 else d
      if abort then
        let d := (d.bumpEvent i 0x11 0x12 lvTrip []).tripPole p 8
        if d.flag i 0x0B then d.raiseRequest p 2 3 else d
      else d
  | .island => if d.isActive || !d.twinProfile then (d.forward 3 [6, p]).islandAct p else d
  | .restartBegin => if d.dcState p = 2 then d.dcRestart p else d
  | .restart dst trip =>
    let i := 0x5104 + p
    if d.dcState p ≠ 3 then d
    else if dst = 1 then (d.wr i 0x13 (d.rd i 0x13 + 1)).suppressFrom p
    else if trip then ((d.restartOver p).tripPole p 8).raiseChosen p 5
    else
      let b := d.base p
      let pe := (d.pole p).fast.pe * b.sa / 1000000
      let v := (d.lastDc p).1 / 1000
      let d := (d.wr i 0x13 0).restartOver p
      d.modSlow p fun s => { s with pRamp := pe, vRamp := if s.dcMode = 1 then v else s.vRamp }
  | .angleLost => d.event (poleIdx 0x3006 p) 1 lvWarn []

/-- Show the fast results of a pole (Tables 5.5, 5.8, 5.9, 6.6). Substate bit 6 shows the tracker's angle valid in grid-forming operation
too, where the block carries the machine's: the spec names no other flag for the bit (assumption log 41). -/
def Device.showFast (d : Device) (p : Nat) : Device :=
  let f := (d.pole p).fast
  let b := d.base p
  let i := poleIdx 0x3000 p
  let kv := fun (x y : Rat) => Config.realSqrt (x * x + y * y) / peakOfRms / 1000
  let d := (d.wrF i 5 (f.pe * b.sa / 1000000)).wrF i 6 (f.qe * b.sa / 1000000)
  let d := (d.wrF i 7 (kv f.trk.vpd f.trk.vpq)).wrF i 8 (kv f.trk.vnd f.trk.vnq)
  let d := (d.wrF i 0x0B f.trk.freq).wrF i 0x0C f.trk.rocof
  let d := (d.wr (poleIdx 0x3006 p) 1 f.trk.state).wr (poleIdx 0x3006 p) 2 (ofInt 32 (ratRound (f.thetaG * (2 ^ 32 : Nat))))
  let j := poleIdx 0x3007 p
  let d := if f.vsm.on then
      (((d.wrF j 7 (f.vsm.omega * b.fn)).wrF j 8 (kv (f.vsm.ed * b.vac) (f.vsm.eq * b.vac))).wrF j 9
        (Config.realArg f.vsm.ed f.vsm.eq - Config.realArg f.trk.vpd f.trk.vpq + (if f.vsm.lead then 0 else 360 * (f.vsm.theta - f.thetaG))))
    else ((d.wrF j 7 0).wrF j 8 0).wrF j 9 0
  let k := 0x5200 + p
  let d := d.wr k 0x0D (if !d.flag k 1 || !(d.poleState p == 4 || d.poleState p == 5) then 0
    else if f.isl.fired then 3 else if d.islSuspended p then 2 else 1)
  let d := match f.isl.zPrev with
    | some z => d.wrF k 0x0E z
    | none => d
  let r := 0x5100 + p
  let d := ((d.wr r 0x0C f.ride.state).wr r 0x0D (f.ride.elapsed / 1000)).wrF r 0x0E f.ride.upre
  let d := d.setSub p 0 (f.ride.state != 0 || d.dcState p != 0)
  ((d.setSub p 5 f.limited).setSub p 6 f.trk.valid).setSub p 8 (f.isl.indUs != 0)

/-- A missed run of a tier: three in a row trip every pole that the tier serves (R159). -/
def Device.missedRun (d : Device) (slow : Bool) (p n : Nat) : Device :=
  if n < 3 then d
  else
    let mark := fun (d : Device) (q : Nat) =>
      if d.poleLive q then (d.tripPole q 1).modPole q fun c => { c with overrun := if slow then 2 else 1 } else d
    if slow then mark (mark d 0) 1 else mark d p

/-- The fast run of a pole that commits at the present T0 (R158, R159) (assumption log 42). -/
def Device.commitFast (d : Device) (p : Nat) : Device :=
  match (d.pole p).fastPend with
  | none => d
  | some x =>
    if x.commit ≠ d.tick then d
    else if x.finish then
      let st := d.poleState p
      let calm := !(st == 4 || st == 5)
      let res : FastRes := if calm then { x.res with ride := { x.res.ride with state := 0 } } else x.res
      let d := d.modPole p fun c => { c with
        fast := res, fastPend := none, fastMiss := 0, overrun := if c.overrun = 1 then 0 else c.overrun }
      (x.acts.foldl (Device.fastAct p) d).showFast p
    else
      let i := poleIdx 0x3000 p
      let n := (d.pole p).fastMiss + 1
      let d := d.modPole p fun c => { c with fastPend := none, fastMiss := n }
      (d.bump i 0x0D 0x0E).missedRun false p n

end Sys2Proof.Machine
end

