-- ==== Sys2Proof/Machine/Slow.lean ====
section
/-! DEFINITION. The slow tier of outer control (spec/05_pole_control.md): setpoint frames, mode changes, ramps, the loops of R166 to
R169, pole balancing, and the commit of a slow run.
Choices of the model: assumption log 11, 43. -/
namespace Sys2Proof.Machine

/-! ### Setpoint frames (R161 to R163, R561) -/

/-- The pole that an order or command of process data belongs to. -/
def poleOfKey (key : Nat) : Nat := if key / 256 ≥ 0x3800 then 1 else 0

/-- The values of a frame that concern pole `p`. -/
def frameOf (p : Nat) (vals : List (Nat × Nat)) : List (Nat × Nat) :=
  vals.filter fun kv => rxMappable kv.1 && kv.1 != 0x204001 && poleOfKey kv.1 == p

/-- A frame reaches the plant half: each pole keeps what concerns it, due at tick `due`. -/
def Device.takeFrame (d : Device) (due : Nat) (vals : List (Nat × Nat)) : Device :=
  [0, 1].foldl (fun d p => d.modPole p fun c => { c with
    frames := c.frames ++ [⟨due, frameOf p vals⟩], lastFrame := some d.tick }) d

/-- A frame that is not applied: counted, and not valid for R163 (R563). Only the commands open to an ACTIVE unit without a valid
lease act. -/
def Device.refuseFrame (d : Device) (vals : List (Nat × Nat)) : Device :=
  let d := (d.bump 0x2030 5 6).wrBit 0x2030 1 3 true
  if !d.isActive then d
  else
    let cmds := vals.filter fun kv => kv.1 / 256 % 0x800 == 1 && [3, 5, 7, 8].contains kv.2
    if cmds.isEmpty then d
    else [0, 1].foldl (fun d p => d.modPole p fun c => { c with frames := c.frames ++ [⟨d.tick + 2, frameOf p cmds⟩] }) d

/-- SETPOINT_FRAME (R162, R563): a setpoint frame of the station half arrives; only an ACTIVE unit with a valid lease or a stand-alone
unit applies it. -/
def execSetpointFrame (vals : List (Nat × Nat)) (s : State) : Out :=
  s.run fun d =>
    if !d.ticking then d
    else if !d.holds then d.refuseFrame vals
    else
      let due := d.tick + 2
      ((d.takeFrame due vals).wrBit 0x2030 1 3 false).forward 3 ([4, due] ++ vals.flatMap fun kv => [kv.1, kv.2])

/-- SETPOINT_LOSS (R163): no valid setpoint frame for the timeout (assumption log 46). -/
def execSetpointLoss (p : Nat) (s : State) : Out :=
  s.run fun d =>
    let i := poleIdx 0x3003 p
    let since := (d.pole p).lastFrame.getD 0
    if p ≥ 2 || d.poleBlocked p || !d.hasPdoOrder p || d.sub p 2 || d.tick < since + d.ticksOf (1000 * d.rd i 0x0C) then d
    else
      let act := d.rd i 0x0D
      let d := (d.setSub p 2 true).bumpEvent (poleIdx 0x3000 p) 0x11 0x12 (if act = 2 then lvTrip else lvWarn) []
      if act = 1 then d.modPole p fun c => { c with fallback := !d.sub p 0, fallWait := d.sub p 0 }
      else if act = 2 then d.tripPole p 3 else d

/-- An order's limits: P and Q have entries of 0x3003, the others the range of their own entry. -/
def Device.clampOrder (d : Device) (p sub : Nat) (x : Rat) : Rat :=
  let i := poleIdx 0x3003 p
  match sub with
  | 1 => ratClamp (d.rdF i 7) (d.rdF i 6) x
  | 2 => ratClamp (d.rdF i 9) (d.rdF i 8) x
  | 6 => ratClamp (-1 / 10) (1 / 10) x
  | _ => x

/-- Write one value of a frame: an order beyond its limits is clamped and recorded; a command acts when it changes to another
non-zero value. A pattern that is no number changes nothing (assumption log 18). -/
def Device.frameValue (p : Nat) (d : Device) (kv : Nat × Nat) : Device :=
  let idx := kv.1 / 256
  let sub := kv.1 % 256
  if !d.mapped false kv.1 then d
  else if idx % 0x800 = 1 then
    let was := (d.pole p).lastCmd
    let d := d.modPole p fun c => { c with lastCmd := kv.2 }
    if kv.2 = 0 || kv.2 = was then d else d.poleOrder false p kv.2
  else if f32Special kv.2 then d
  else
    let x := f32Val kv.2
    let y := d.clampOrder p sub x
    if y = x then d.wr idx sub kv.2 else (d.wrF idx sub y).event idx sub lvWarn [(32, f32Of y)]

/-- The frames of pole `p` that are due at the start of a slow run take effect; the first ends a setpoint loss (R162, R163)
(assumption log 46). -/
def Device.framesDue (d : Device) (p : Nat) : Device :=
  let c := d.pole p
  let now := c.frames.filter fun (f : SetFrame) => decide (f.due ≤ d.tick)
  if now.isEmpty then d
  else
    let d := d.modPole p fun c => { c with frames := c.frames.filter fun (f : SetFrame) => decide (f.due > d.tick), fallback := false, fallWait := false }
    let d := if d.sub p 2 then (d.setSub p 2 false).event (poleIdx 0x3000 p) 2 lvInfo [] else d
    now.foldl (fun d (f : SetFrame) => f.vals.foldl (Device.frameValue p) d) d

/-! ### The means a slow run uses (R156) -/

/-- Means over the preceding period: P and Q in W, |V⁺| in V, V_dc in V, I_dc and the neutral current in A. -/
structure SlowMeans where
  p    : Rat
  q    : Rat
  u    : Rat
  vdc  : Rat
  idc  : Rat
  ineu : Rat
  deriving DecidableEq, Repr

/-- The means of a pole; where nothing was summed, what was last measured. -/
def Device.slowMeans (d : Device) (p : Nat) : SlowMeans :=
  let s := (d.pole p).sums
  let b := d.base p
  let f := (d.pole p).fast
  let (v, cur) := d.lastDc p
  let n : Rat := (s.n : Rat)
  let r : Rat := (s.runs : Rat)
  let m := fun (k : Nat) (x y : Rat) => if k = 0 then y else x
  { p := m s.runs (s.p / r) (f.pe * b.sa), q := m s.runs (s.q / r) (f.qe * b.sa)
    u := m s.runs (s.vp / r) (Config.realSqrt (f.trk.vpd * f.trk.vpd + f.trk.vpq * f.trk.vpq))
    vdc := m s.n (s.vdc / n) v, idc := m s.n (s.idc / n) cur, ineu := m s.n (s.ineu / n) 0 }

/-! ### Mode changes (R168, R176, R186) -/

/-- The integrators that reproduce the current order in force, turned from the machine's frame to the tracker's (R176). -/
def Device.reproduce (d : Device) (p : Nat) (m : SlowMeans) : Device :=
  let b := d.base p
  let i := poleIdx 0x3005 p
  let c := d.pole p
  let vg := ratMax (m.u / b.vb) (d.rdF i 0x40)
  let f := c.fast
  let (idp, iqp) := if f.vsm.lead then turn f.idp f.iqp (f.vsm.theta - f.thetaG) else (f.idp, f.iqp)
  let pc := 3 / 2 * vg * idp
  let qc := -(3 / 2 * vg * iqp)
  let sl := c.slow
  let po := sl.pRamp * 1000000 / b.sa
  let qo := sl.qRamp * 1000000 / b.sa
  let xP := pc - po - d.rdF i 1 * (po - m.p / b.sa)
  let share := d.shareFloor p m.vdc
  let xV := pc / (6 * share) - m.idc / b.ib / 3 - d.rdF i 3 * (sl.vRamp * 1000 / b.vb - m.vdc / b.vb)
  let xQ := qc - qo - d.rdF i 5 * (qo - m.q / b.sa)
  let uo := sl.uRamp * 1000 * peakOfRms / b.vb
  let xU := qc - d.rdF i 7 * (uo - m.u / b.vb - d.rdF i 9 * (m.q / b.sa))
  d.modSlow p fun s => { s with
    pc := pc, qc := qc, iz0 := pc / (6 * share), idp := idp, iqp := iqp
    xP := if s.dcMode = 0 then xP else s.xP, xV := if s.dcMode = 1 then xV else s.xV
    xQ := if s.acMode = 0 then xQ else s.xQ, xU := if s.acMode = 1 then xU else s.xU }

/-- A change of the DC mode takes effect without a step (R168). -/
def Device.dcModeChange (d : Device) (p : Nat) (m : SlowMeans) : Device :=
  let b := d.base p
  let mode := d.rd (poleIdx 0x3004 p) 1
  let sl := (d.pole p).slow
  if sl.dcMode = mode then d
  else
    let share := d.shareFloor p m.vdc
    d.modSlow p fun s =>
      if mode = 0 then { s with dcMode := 0, xP := s.pc - m.p / b.sa, pRamp := m.p / 1000000 }
      else { s with dcMode := 1, xV := s.pc / (6 * share) - m.idc / b.ib / 3, vRamp := m.vdc / 1000 }

/-- A change of the grid mode takes effect (R176). -/
def Device.gridModeChange (d : Device) (p : Nat) (m : SlowMeans) : Device :=
  let form := d.rd (poleIdx 0x3004 p) 3 == 1
  let sl := (d.pole p).slow
  if sl.form == form then d
  else
    let d := (d.modSlow p fun s => { s with form := form }).modPole p fun c => { c with modeSince := some d.tick }
    if form || !(d.poleState p == 4 || d.poleState p == 5) then d else d.reproduce p m

/-- An accepted RECONNECTED returns the pole to DEBLOCKED with its configured modes (R186). -/
def Device.reconnected (d : Device) (p : Nat) (m : SlowMeans) : Device :=
  if !(d.pole p).reconnect then d
  else
    let d := d.modPole p fun c => { c with reconnect := false }
    if d.poleState p ≠ 5 then d
    else
      let d := ((d.enterPole p 4).setSub p 1 true).modPole p fun c => { c with transUntil := d.tick + d.ticksOf 2000000 }
      let pe := (d.pole p).fast.pe * (d.base p).sa / 1000000
      let d := d.modSlow p fun s => { s with pRamp := pe, acMode := d.rd (poleIdx 0x3004 p) 2 }
      if (d.pole p).slow.form then d else d.reproduce p m

/-- The modes of a pole at the start of a slow run. -/
def Device.slowModes (d : Device) (p : Nat) (m : SlowMeans) : Device :=
  let d := ((d.reconnected p m).dcModeChange p m).gridModeChange p m
  d.modSlow p fun s => { s with acMode := d.rd (poleIdx 0x3004 p) 2 }

/-! ### Targets and ramps (R163 to R165, R177, R178, R185) -/

/-- The slow period in µs. -/
def Device.slowUs (d : Device) : Nat := d.rd 0x3004 0x0D

/-- Move a ramped order towards its target by at most `step` (R164). -/
def rampTo (x target step : Rat) : Rat :=
  if ratAbs (target - x) ≤ step then target else if target > x then x + step else x - step

/-- BIPOLE balancing is in force (R177). -/
def Device.bipole (d : Device) : Bool := d.rd 0x3004 0x0F == 1

/-- A pole carries power. -/
def Device.poleRuns (d : Device) (p : Nat) : Bool := d.poleState p == 4 || d.poleState p == 5

/-- The balancing power ΔP_n in MW from the neutral current, and its next integrator (R177). That the error is the neutral current in per
unit of I_b and the controller's output in per unit of S_a is the model's choice (assumption log 43). -/
def Device.balance (d : Device) (m : SlowMeans) : Rat × Rat :=
  let b := d.base 0
  let x := (d.pole 0).slow.xN
  if !(d.poleRuns 0 && d.poleRuns 1) then (0, 0)
  else
    let lim := d.rdF 0x3003 0x10 * b.pr / b.sa
    let e := m.ineu / b.ib
    let y := ratClamp (-lim) lim (d.rdF 0x3005 1 * e + x)
    (y * b.sa / 1000000, ratClamp (-lim) lim (x + d.rdF 0x3005 2 * (d.slowUs : Rat) / 1000000 * e))

/-- The order of a pole before balancing, in MW: run-back, fallback or the stored order (R163, R165). -/
def Device.pOrder (d : Device) (p : Nat) : Rat :=
  let c := d.pole p
  match c.runBack with
  | some x => x
  | none => if c.fallback then d.rdF (poleIdx 0x3003 p) 0x0E else d.rdF (poleIdx 0x3002 p) 1

/-- The P target of a pole in MW, and whether it ramps at the run-back rate. In BIPOLE a run-back of pole 0 acts on the bipole order, one of
pole 1 on that pole alone (R165, R177, R178). -/
def Device.pTarget (d : Device) (p : Nat) (dpn : Rat) : Rat × Bool :=
  let i := poleIdx 0x3003 p
  let own := if d.bipole && p = 1 then (d.pole 1).runBack else none
  let (t, fastRate) :=
    if let some x := own then (x, true)
    else if d.bipole then
      let bp := d.pOrder 0
      let back := (d.pole 0).runBack.isSome
      if d.poleRuns 0 && d.poleRuns 1 then (if p = 0 then bp / 2 - dpn else bp / 2 + dpn, back)
      else if d.poleRuns p then (ratMin bp (d.rdF i 6), true)
      else (bp / 2, back)
    else (d.pOrder p, (d.pole p).runBack.isSome)
  (ratClamp (d.rdF i 7) (d.rdF i 6) t, fastRate)

/-- The ramped orders of a run and whether any still differs from its target. In the run that changes the DC mode (`fresh`) the order of
the new mode stands at its measured value (R168). -/
def Device.ramps (d : Device) (p : Nat) (fresh : Bool) (dpn : Rat) : SlowRes :=
  let c := d.pole p
  let s := c.slow
  let i := poleIdx 0x3003 p
  let o := poleIdx 0x3002 p
  let ts := (d.slowUs : Rat) / 1000000
  let (pt, back) := d.pTarget p dpn
  let qt := ratClamp (d.rdF i 9) (d.rdF i 8) (if c.fallback then d.rdF i 0x0F else d.rdF o 2)
  let ut := d.rdF o 3
  let vt := d.rdF o 4
  let hold := c.fast.ride.state == 1 || c.fast.ride.state == 2
  let pStored := d.poleState p == 5
  let ramp := fun (x t : Rat) (k : Nat) => if hold then x else rampTo x t (d.rdF i k * ts)
  let pR := if pStored || (fresh && s.dcMode = 0) then s.pRamp else ramp s.pRamp pt (if back then 5 else 1)
  let qR := ramp s.qRamp qt 2
  let uR := ramp s.uRamp ut 3
  let vR := if fresh && s.dcMode = 1 then s.vRamp else ramp s.vRamp vt 4
  { s with pRamp := pR, qRamp := qR, uRamp := uR, vRamp := vR
           ramping := (!pStored && pR != pt) || qR != qt || uR != ut || vR != vt }

/-! ### The loops (R166, R167, R169) -/

/-- The slow results of a pole, from the ramped orders and the means (all loops in arm per unit). -/
def Device.loops (d : Device) (p : Nat) (s : SlowRes) (m : SlowMeans) (xN : Rat) : SlowRes :=
  let b := d.base p
  let i := poleIdx 0x3005 p
  let f := (d.pole p).fast
  let ts := (d.slowUs : Rat) / 1000000
  let lim := d.rdF i 0x42
  let riding := f.ride.state == 1 || f.ride.state == 2
  let run := d.poleRuns p
  let step := fun (on hold : Bool) (x ki e : Rat) =>
    if !run then 0 else if !on || hold || riding then x else ratClamp (-lim) lim (x + ki * ts * e)
  let vg := ratMax (m.u / b.vb) (d.rdF i 0x40)
  let share := d.shareFloor p m.vdc
  let po := s.pRamp * 1000000 / b.sa
  let eP := po - m.p / b.sa
  let eV := s.vRamp * 1000 / b.vb - m.vdc / b.vb
  let isP := s.dcMode = 0
  let izV := m.idc / b.ib / 3 + d.rdF i 3 * eV + s.xV
  let pc := if isP then po + d.rdF i 1 * eP + s.xP else 6 * share * izV
  let iz := if isP then pc / (6 * share) else izV
  let qo := s.qRamp * 1000000 / b.sa
  let eQ := qo - m.q / b.sa
  let isQ := s.acMode = 0
  let eU := s.uRamp * 1000 * peakOfRms / b.vb - m.u / b.vb - d.rdF i 9 * (m.q / b.sa)
  let qc := if isQ then qo + d.rdF i 5 * eQ + s.xQ else d.rdF i 7 * eU + s.xU
  { s with
    xP := step isP f.limD s.xP (d.rdF i 2) eP, xV := step (!isP) f.limD s.xV (d.rdF i 4) eV
    xQ := step isQ f.limQ s.xQ (d.rdF i 6) eQ, xU := step (!isQ) f.limQ s.xU (d.rdF i 8) eU
    xN := xN, pc := pc, qc := qc, iz0 := iz, vdcs := share, idp := pc / (3 / 2 * vg), iqp := -(qc / (3 / 2 * vg)) }

/-- The results of the slow run of a pole that starts at the present tick; `m0` are the means of pole 0. -/
def Device.slowRes (d : Device) (p : Nat) (fresh : Bool) (m m0 : SlowMeans) : SlowRes :=
  let (dpn, xN) := if d.bipole then d.balance m0 else (0, 0)
  d.loops p (d.ramps p fresh dpn) m xN

/-! ### The commit of a slow run -/

/-- The islanding transition of 2 s is over (R185, R186). -/
def Device.transitionOver (d : Device) (p : Nat) : Device :=
  if d.sub p 1 && d.tick ≥ (d.pole p).transUntil then d.setSub p 1 false else d

/-- Show the coordinates of the loss tracker in force (Table 11.5). -/
def Device.showXs (d : Device) (p : Nat) : Device :=
  let x := (d.pole p).slow.xs
  let i := 0x5001 + p
  (((d.wrF i 4 (x.getD 0 0)).wrF i 5 (x.getD 1 0)).wrF i 6 (x.getD 2 0)).wrF i 7 (x.getD 3 1)

/-- The slow run of a pole that commits at the present T0 (R158, R159); a missed one is counted for an absent other pole too
(assumption log 42). -/
def Device.commitSlow (d : Device) (p : Nat) : Device :=
  match (d.pole p).slowPend with
  | none => d
  | some x =>
    if x.commit ≠ d.tick then d
    else if x.finish then
      let d := d.modPole p fun c => { c with
        slow := x.res, slowPend := none, slowMiss := 0, overrun := if c.overrun = 2 then 0 else c.overrun }
      (d.setSub p 3 x.res.ramping).showXs p
    else
      let n := (d.pole p).slowMiss + 1
      let d := d.modPole p fun c => { c with slowPend := none, slowMiss := n }
      let d := d.bump (poleIdx 0x3000 p) 0x0F 0x10
      let d := if d.polePresent (1 - p) then d else d.bump (poleIdx 0x3000 (1 - p)) 0x0F 0x10
      d.missedRun true p n

end Sys2Proof.Machine
end

