-- ==== Sys2Proof/Machine/Metering.lean ====
section
/-! DEFINITION. The metering engine at work (spec/12_metering.md): the conversions of a tick, zero crossings, the close of a window with
its quality, harmonics and pulses, periodic saves, the metering lock and the restore after a reset.
Choices of the model: assumption log 48. -/
namespace Sys2Proof.Machine

/-! ### The conversions of a tick -/

/-- A crossing that follows the last one by 1 / (f_n + 10 Hz) to 1 / (f_n − 10 Hz) (R370); `hu` in half microseconds. -/
def Device.spaced (d : Device) (hu : Nat) : Bool :=
  let f := d.rd 0x6000 5
  decide (2000000 ≤ hu * (f + 10)) && decide (hu * (f - 10) ≤ 2000000)

/-- A conversion of the phase A voltage channel (R370, R371): `sync` is the window state. -/
def crossStep (spaced : Nat → Bool) (thrSq : Rat) (sync : Bool) (w : MeterWin) (x : Rat) : MeterWin :=
  let w := { w with since := w.since + 1, sinceCand := w.sinceCand + 1, low := w.low.map (· + 1) }
  let armed := match w.low with
    | some k => decide (k ≤ 10000)
    | none => false
  let below := match w.prev with
    | some y => decide (y < 0)
    | none => false
  let cand := decide (x ≥ 0) && below && armed
  let w := { w with prev := some x, low := if x < 0 ∧ x * x > thrSq then some 0 else w.low }
  if !cand then w
  else if sync then (if spaced w.since then { w with since := 0, accepted := w.accepted + 1 } else w)
  else
    let k := if w.cands ≠ 0 && spaced w.sinceCand then w.cands + 1 else 1
    { w with cands := k, sinceCand := 0, regain := w.regain || k == 3, since := if k = 3 then 0 else w.since }

/-- The square of the arming threshold 0.02 × U_n × √2 / √3, in V². -/
def Device.armingSq (d : Device) (p : Nat) : Rat :=
  let u := d.rdF (0x6001 + p) 6 * 1000
  4 / 10000 * u * u * 2 / 3

/-- The length of the tick in progress in half microseconds. -/
def Device.tickHu (d : Device) : Nat := (d.timer.lengthPs + 250000) / 500000

/-- The crossings of a pole after the conversions of the tick in progress; time runs on where the channel delivers none (R371). -/
def Device.crossings (d : Device) (p : Nat) : MeterWin :=
  let xs := (d.windowValues ((d.meterChannels p).getD 0 255)).map fun x =>
    d.rdF (chIdx ((d.meterChannels p).getD 0 255)) 5 * x + d.rdF (chIdx ((d.meterChannels p).getD 0 255)) 6
  let w := xs.foldl (crossStep d.spaced (d.armingSq p) (d.rd (0x6001 + p) 0x0A == 0)) (d.win p)
  let gap := d.tickHu - xs.length
  { w with since := w.since + gap, sinceCand := w.sinceCand + gap, low := w.low.map (· + gap) }

/-- The calibrated conversions of the tick in progress in engineering units (R105, R108). -/
def Device.convUnits (d : Device) (ch : Nat) : List Rat :=
  let k := d.rdF (chIdx ch) 5
  let o := d.rdF (chIdx ch) 6
  (d.windowValues ch).map fun x => k * x + o

/-- Σ v i over the conversions that both channels delivered. -/
def dotSum (v i : List Rat) : Rat := (List.zipWith (· * ·) v i).foldl (· + ·) 0

/-- Take the conversions of the tick that ends into the sums of a pole (R372, R373). -/
def Device.gatherPole (d : Device) (p : Nat) : Device :=
  if !d.metered p || (d.win p).opened.isNone then d
  else
    let ch := d.meterChannels p
    let v := (List.range 3).map fun x => d.convUnits (ch.getD x 255)
    let i := (List.range 3).map fun x => d.convUnits (ch.getD (x + 3) 255)
    let w := d.crossings p
    d.modWin p fun _ => { w with
      hu := w.hu + d.tickHu
      ep := List.zipWith (· + ·) w.ep (List.zipWith dotSum v i)
      i2 := List.zipWith (· + ·) w.i2 (i.map fun l => dotSum l l)
      n := List.zipWith (· + ·) w.n (i.map List.length) }

/-- The conversions of the tick in progress with their instants since the opening of the window, in units of 25 ns: half a microsecond apart
from the T0, or from the delay of R83 on in triggered mode. -/
def Device.convTimed (d : Device) (ch : Nat) : List (Nat × Rat) :=
  let i := chIdx ch
  let first := 20 * (d.win (d.seriesOf ch)).hu + (if d.rd i 1 = 2 then (d.rd i 2 + 19) / 20 else 0)
  (numbered 0 (d.convUnits ch)).map fun x => (first + 20 * x.1, x.2)

/-- The conversions of a series' channels before its first window opened belong to none of its windows. -/
def Device.clearStreams (d : Device) (p : Nat) : Device :=
  d.modMeter fun m => { m with streams := (List.range 12).map fun ch => if d.seriesOf ch = p then [] else m.streams.getD ch [] }

/-- Take the conversions of the tick that ends, with the calibration that held in it (R105, R398). -/
def Device.meterGather (d : Device) : Device :=
  if !d.meter.started then d
  else
    let d := d.modMeter fun m => { m with
      streams := (List.range 12).map fun ch =>
        if d.rd (chIdx ch) 1 = 0 then [] else (d.convTimed ch).reverse ++ m.streams.getD ch [] }
    let d := (d.gatherPole 0).gatherPole 1
    if d.metered 0 || d.metered 1 then d else d.modWin 2 fun w => { w with hu := w.hu + d.tickHu }

/-- What the values that landed at a T0 bring: the DC sums and the quality bits of Table 12.2. -/
def Device.meterLanded (d : Device) (ps p : Nat) : Device :=
  if !d.metered p || (d.win p).opened.isNone then d
  else
    let chs := d.meterChannels p
    let bits := fun (q ch : Nat) =>
      if ch ≥ 32 then q
      else
        let r := d.rd (chIdx ch) 9
        let forced := isMetering ch && d.rd (chIdx ch) 0x46 ≠ 0
        Nat.lor q (2 * b2n (!bit r 31) + 4 * b2n (bit r 30) + 8 * b2n forced + 64 * b2n (bit r 27) + 128 * b2n (bit r 28))
    let q := chs.foldl bits (d.win p).qual
    let vdc := if chs.getD 6 255 < 32 then d.units (chs.getD 6 255) else 0
    let idc := if chs.getD 7 255 < 32 then d.units (chs.getD 7 255) else 0
    d.modWin p fun w => { w with qual := q, dc := w.dc + vdc * idc * ((ps : Rat) / 1000000), idc := w.idc + idc, nDc := w.nDc + 1 }

/-! ### The close of a window -/

/-- The sums of a fresh window that opens at the present T0. -/
def MeterWin.reopen (w : MeterWin) (tick : Nat) (accepted : Nat) : MeterWin :=
  { w with
    opened := some tick, hu := 0, ep := [0, 0, 0], i2 := [0, 0, 0], n := [0, 0, 0], dc := 0, idc := 0, nDc := 0, qual := 0
    param := false, accepted := accepted, regain := false, shut := true }

/-- The harmonic results of a channel for the window that closes (R380, R381). -/
def Device.harmonics (d : Device) (ch hu qual : Nat) : Device :=
  let i := 0x6040 + ch
  let xs := d.stream ch
  let nc := d.cyclesPerWindow
  let sub := d.rd 0x6000 7 == 1
  let dc : Rat := (xs.map (·.2)).foldl (· + ·) 0 / ((max 1 xs.length : Nat) : Rat)
  let sq := (List.range 510).map fun h => groupSq xs hu nc sub (h + 2)
  let g1 := Config.realSqrt (groupSq xs hu nc sub 1)
  let vals := [dc, Config.realSqrt (binSq xs hu nc)] ++ sq.map Config.realSqrt
  let thd := fun (n : Nat) =>
    if g1 = 0 then Config.freeWord d.free % 2 ^ 32
    else f32Of (100 * Config.realSqrt ((sq.take n).foldl (· + ·) 0) / g1)
  let d := (d.wr i 1 (leNat (vals.flatMap fun x => leBytes 4 (f32Of x)))).wr i 2 (thd 49)
  let d := ((d.wr i 3 (thd 510)).wr i 4 d.tick).wr i 5 qual
  { d.wrF i 6 (if hu = 0 then 0 else ((2000000 * nc : Nat) : Rat) / (hu : Rat)) with free := d.free + 1 }

/-- The channels on that a series analyses. -/
def Device.analysed (d : Device) (p : Nat) : List Nat :=
  (List.range 12).filter fun ch => d.rd (chIdx ch) 1 != 0 && d.seriesOf ch == p

/-- Analyse the window of a series and clear its conversions. -/
def Device.analyse (d : Device) (p hu qual : Nat) : Device :=
  let chs := d.analysed p
  let d := chs.foldl (fun d ch => d.harmonics ch hu qual) d
  d.modMeter fun m => { m with streams := (List.range 12).map fun ch => if chs.contains ch then [] else m.streams.getD ch [] }

/-- The pulses that a window's increment owes on an output (R392); a backlog that reaches its limit is an entry of the log (R393). -/
def Device.owe (d : Device) (p : Nat) (incs : List Rat) (o : Nat) : Device :=
  let i := 0x6060 + o
  if d.rd i 1 ≠ p then d
  else
    let x := d.meter.pulses.getD o ⟨0, 0, false⟩
    let w := d.rdF i 3 * 1000
    let r := x.resid + incs.getD (d.rd i 2 - 1) 0
    let owed := if w ≤ 0 then 0 else (ratFloor (r / w)).toNat
    let d := d.modMeter fun m => { m with pulses := m.pulses.set o { x with resid := r - (owed : Rat) * w } }
    if owed = 0 then d
    else
      let was := d.rd i 6
      let d := d.bumpBy i 6 7 owed
      if was < 65535 && was + owed ≥ 65535 then d.meterLog 11 o 0 0 else d

/-- The window state and the log entry of a change of it (R371). -/
def Device.setWindowState (d : Device) (p st : Nat) : Device :=
  (d.wr (0x6001 + p) 0x0A st).meterLog (if st = 1 then 5 else 6) p 0 0

/-- Whether a window is settlement-valid (R375). -/
def settlementValid (q : Nat) : Bool := !bit q 1 && !bit q 2 && !bit q 3 && !bit q 8

/-- The window of a pole closes at the present T0 (R371 to R375, R378, R392); its length T_w is the count of its ticks (R369). -/
def Device.closeWindow (d : Device) (p : Nat) : Device :=
  let w := d.win p
  let i := 0x6001 + p
  let fixed := d.rd i 0x0A == 1
  let (incs, creep) := d.windowEnergy p
  let q := Nat.lor w.qual (creep + b2n fixed + 2 * b2n d.meter.fault + 256 * b2n w.param)
  let d := d.credit p incs
  let d := ((d.wr (0x6010 + p) 0x25 d.tick).wr (0x6010 + p) 0x26 q).wr i 0x0B w.nDc
  let d := if fixed then d.bump i 0x0C 0x0D else d
  let d := if settlementValid q then d else d.bump i 0x0E 0x0F
  let d := if creep ≠ 0 then d.bump i 0x10 0x11 else d
  let d := if !settlementValid q && !w.doubt then d.meterLog 3 p (q % 256) 0
    else if settlementValid q && w.doubt then d.meterLog 4 p 0 0
    else d
  let d := (List.range 8).foldl (fun d o => d.owe p incs o) d
  let d := d.analyse p w.hu q
  let d := if w.regain then d.setWindowState p 0 else d
  d.modWin p fun x => { x.reopen d.tick (if w.regain then 1 else 0) with
    resid := (d.win p).resid, lost := bit w.qual 1, doubt := !settlementValid q, cands := if w.regain then 0 else w.cands }

/-- The window of a series closes at the present T0 (R370, R371, R380, R398). -/
def Device.windowDue (d : Device) (p : Nat) : Bool :=
  let w := d.win p
  w.param || w.regain
    || (if p < 2 && d.rd (0x6001 + p) 0x0A = 0 then decide (w.accepted ≥ d.cyclesPerWindow) else decide (w.hu ≥ nominalHu))

/-- One pole's window at a T0. -/
def Device.meterPole (ps : Nat) (d : Device) (p : Nat) : Device :=
  let d := d.modWin p fun w => { w with shut := false }
  if !d.metered p then d
  else if (d.win p).opened.isNone then (d.clearStreams p).modWin p fun w => { w.reopen d.tick 0 with shut := false }
  else
    let d := d.meterLanded ps p
    if d.windowDue p then d.closeWindow p else d

/-- The metering engine's own series at a T0 (R380): its windows carry bit 0, bit 1 in METER-FAULT (R391) and bit 8 where one closes early
(R398). -/
def Device.meterOwn (d : Device) : Device :=
  if d.metered 0 || d.metered 1 then d.modWin 2 fun _ => MeterWin.reset
  else if (d.win 2).opened.isNone then (d.clearStreams 2).modWin 2 fun w => { w.reopen d.tick 0 with shut := false }
  else if d.windowDue 2 then
    (d.analyse 2 (d.win 2).hu (1 + 2 * b2n d.meter.fault + 256 * b2n (d.win 2).param)).modWin 2 fun w => w.reopen d.tick 0
  else d

/-- The metering state of Table 12.7. -/
def Device.showMeterState (d : Device) : Device := d.wr 0x6000 1 (if d.meter.fault then 2 else b2n d.meter.started)

/-- The metering engine at a T0, once the values have landed; `ps` is the length of the tick that ended. -/
def Device.meterTick (d : Device) (ps : Nat) : Device :=
  let us := ps / 1000000
  let d := d.modMeter fun m => { m with
    started := m.started || d.rd 0x5600 1 == 2
    sinceSave := m.sinceSave + us
    pulses := m.pulses.map fun (x : PulseOut) => { x with age := x.age + us } }
  if !d.meter.started then d
  else ((Device.meterPole ps (Device.meterPole ps d 0) 1).meterOwn).showMeterState

/-- CROSSING_TIMEOUT (R371): 40 ms after the last accepted crossing of pole `p`. A crossing accepted by the coming T0 keeps SYNC
(Table 12.6). -/
def execCrossingTimeout (p : Nat) (s : State) : Out :=
  s.run fun d =>
    let w := d.win p
    if d.boot.plantHeld || p ≥ 2 || w.opened.isNone || d.rd (0x6001 + p) 0x0A ≠ 0 then d
    else if w.since + 2 * d.period < 2000 * d.rd 0x6000 6 || (d.crossings p).accepted ≠ w.accepted then d
    else (d.setWindowState p 1).modWin p fun x => { x with cands := 0 }

/-! ### Saving and restoring -/

/-- PERIODIC_SAVE (R384): the save interval has elapsed. -/
def execPeriodicSave (s : State) : Out :=
  s.run fun d =>
    if d.boot.plantHeld || !d.meter.started || d.meter.sinceSave < 1000 * d.rd 0x6000 4 then d
    else
      let d := (d.writeSlot d.olderSlot (d.saveRecord false)).modMeter fun m => { m with sinceSave := 0 }
      (d.wr 0x6000 8 d.tick).bump 0x6000 9 0x0A

/-- Put the registers of a record back (R389). -/
def Device.putRecord (d : Device) (r : SaveRec) : Device :=
  let put := fun (d : Device) (k : Nat) =>
    let p := k / 18
    let j := k % 18
    let a := r.accs.getD k 0
    let d := ((d.wr (0x6010 + p) (j + 1) a).wr (0x6010 + p) (j + 0x13) (r.wraps.getD k 0)).wr (0x6018 + p) (j + 1) (a / 10 ^ 6 % 10 ^ 9)
    d.wr (0x6018 + p) (j + 0x13) (r.rolls.getD k 0)
  let d := (List.range 36).foldl put d
  let d := (List.range 8).foldl (fun d o => d.wr (0x6060 + o) 6 (r.backlog.getD o 0)) d
  let d := d.modMeter fun m => { m with
    pulses := (List.range 8).map fun o => ⟨r.pres.getD o 0, 500000000, false⟩
    wins := [{ MeterWin.reset with resid := r.resid.take 18 }, { MeterWin.reset with resid := r.resid.drop 18 }, MeterWin.reset] }
  (d.credit 0 (r.part.take 18)).credit 1 (r.part.drop 18)

/-- The plant half leaves reset: the metering registers are restored from the newest valid slot (R389, R391, R396). The UNSAVED
entries wait until the configuration tells the metered poles (assumption log 49). -/
def Device.meterRestore (d : Device) : Device :=
  let d := (d.wrB 0x6000 0x11 d.sealedPart).wrB 0x6000 2 d.sealedPart
  let d := d.showMeterLog
  match d.newestSave with
  | none => ((d.modMeter fun m => { m with fault := true }).meterLog 10 0xFF 0 0).showMeterState
  | some r =>
    let d := d.putRecord r
    if r.endgame then d.meterLog 2 0xFF 0 0
    else (d.modMeter fun m => { m with unsaved := some (r.tick, r.utc, r.every) }).bump 0x6000 0x0F 0x10

/-- The bound P_mb × T_save in mWh, of MW and ms. -/
def unsavedBound (mw : Rat) (ms : Nat) : Nat := (ratCeil (mw * (ms : Rat) * 10000 / 36)).toNat

/-- The UNSAVED entries of the metered poles, once a configuration is in force (assumption log 49). -/
def Device.meterUnsaved (d : Device) : Device :=
  match d.meter.unsaved with
  | none => d
  | some (tick, utc, every) =>
    let one := fun (d : Device) (p : Nat) =>
      if d.metered p then d.meterLogAt tick utc 1 p 0 (unsavedBound (d.rdF (0x6001 + p) 8) every) else d
    (one (one d 0) 1).modMeter fun m => { m with unsaved := none }

/-! ### Pulse outputs (R393) -/

/-- A pulse output. -/
def Device.pulse (d : Device) (o : Nat) : PulseOut := d.meter.pulses.getD o ⟨0, 0, false⟩

/-- PULSE_START (R393): output `o` owes a pulse and 1 / f_out has passed since its last one began. -/
def execPulseStart (o : Nat) (s : State) : Out :=
  s.run fun d =>
    let i := 0x6060 + o
    let x := d.pulse o
    if d.boot.plantHeld || o ≥ 8 || d.rd i 6 = 0 || x.on || decide (((x.age + d.period : Nat) : Rat) * d.rdF i 4 < 1000000) then d
    else
      let d := d.modMeter fun m => { m with pulses := m.pulses.set o { x with age := 0, on := true } }
      (d.wr i 6 (d.rd i 6 - 1)).accum i 8 9 1

/-- PULSE_END (R393): the pulse width has elapsed. -/
def execPulseEnd (o : Nat) (s : State) : Out :=
  s.run fun d =>
    let x := d.pulse o
    if !x.on || x.age + d.period < d.rd (0x6060 + o) 5 then d
    else d.modMeter fun m => { m with pulses := m.pulses.set o { x with on := false } }

/-! ### The metering lock (R396) and METER-FAULT (R391) -/

/-- Open or close the metering lock: only a TK8192-ME has one. -/
def Device.setLock (d : Device) (cmd : Nat) : Device :=
  if !d.sealedPart then d.abort 0x6000 0x12 0x08000020
  else
    let d := (d.wrB 0x6000 0x11 (cmd == 1)).showLockCrc.meterLog (if cmd = 2 then 8 else 9) 0xFF 0 d.lockCrc
    d.logRws 0x6000 0x12 0 cmd

/-- LOCK_OPEN (R396): a write of 0x02 to 0x6000.12 in a safety session. -/
def execLockOpen (s : State) : Out := s.run fun d => d.sdoRws 0x6000 0x12 1 2 fun d => d.setLock 2

/-- LOCK_CLOSE (R396): a write of 0x01 to 0x6000.12 in a safety session. -/
def execLockClose (s : State) : Out := s.run fun d => d.sdoRws 0x6000 0x12 1 1 fun d => d.setLock 1

/-- METER_FAULT_ACKNOWLEDGE (R391): a write of 0x01 to 0x6000.15 in a safety session. -/
def execMeterFaultAcknowledge (s : State) : Out :=
  s.run fun d => d.sdoRws 0x6000 0x15 1 1 fun d =>
    ((d.modMeter fun m => { m with fault := false }).showMeterState).logRws 0x6000 0x15 0 1

end Sys2Proof.Machine
end

