-- ==== Sys2Proof/Machine/Loss.lean ====
section
/-! DEFINITION. Loss-point tracking (spec/11_loss_tracking.md R351 to R366) and the slow run that carries it (R158).
Choices of the model: assumption log 50. -/
namespace Sys2Proof.Machine

/-- The object of a pole's tracker. -/
def lossIdx (p : Nat) : Nat := 0x5001 + p

/-- Change the tracker of a pole. -/
def Device.modLoss (d : Device) (p : Nat) (f : Loss → Loss) : Device := d.modPole p fun c => { c with loss := f c.loss }

/-! ### Coordinates (Table 11.1, R353) -/

/-- The neutral value of a coordinate. -/
def neutralOf (j : Nat) : Rat := if j = 3 then 1 else 0

/-- The step of a coordinate. -/
def Device.lossStep (d : Device) (j : Nat) : Rat := d.rdF 0x5000 ([6, 9, 0x0C, 0x0E].getD j 6)

/-- The bounds of a coordinate. -/
def Device.lossBounds (d : Device) (j : Nat) : Rat × Rat :=
  if j = 2 then (-(d.rdF 0x5000 0x0D), d.rdF 0x5000 0x0D)
  else (d.rdF 0x5000 ([7, 0x0A, 0, 0x0F].getD j 7), d.rdF 0x5000 ([8, 0x0B, 0, 0x10].getD j 8))

/-- A coordinate is eligible for a trial (R353). -/
def Device.eligible (d : Device) (p j : Nat) : Bool :=
  let legs := (List.range 3).map fun k => armIdx 0x4014 (6 * p + k)
  bit (d.rd 0x5000 2) j
    && (!(j == 1 || j == 2) || legs.all fun i => d.flag i 1)
    && (j != 2 || legs.all fun i => decide (d.rdF i 7 ≥ d.rdF 0x5000 0x41))
    && (j != 3 || decide (d.rdF (lossIdx p) 0x13 > 0))

/-- The next eligible coordinate after `j`, in the order 0, 1, 2, 3, 0; `j` itself where it is the only one or none is. -/
def Device.nextEligible (d : Device) (p j : Nat) : Nat :=
  (((List.range 4).map fun k => (j + 1 + k) % 4).find? (d.eligible p)).getD j

/-- A coordinate that may be stepped: `j`, or the next one that is eligible. -/
def Device.usable (d : Device) (p j : Nat) : Nat := if d.eligible p j then j else d.nextEligible p j

/-- The direction of a coordinate is −1. -/
def Device.downward (d : Device) (p j : Nat) : Bool := bit (d.rd (lossIdx p) 0x0B) j

/-- The tracker at configuration activation (R357). -/
def Device.lossActivate (d : Device) (p : Nat) : Device :=
  let d := (d.lossNeutral p).wr (lossIdx p) 0x0B 0
  (d.wr (lossIdx p) 3 (d.usable p 0)).modLoss p fun l => { l with cfg := [] }

/-! ### Windows (R354 to R356) -/

/-- The net energies of a pole in mWh: DC, AC active and reactive. -/
def Device.netEnergy (d : Device) (p : Nat) : Int × Int × Int :=
  let r := fun (k : Nat) => (d.rd (0x6010 + p) k : Int)
  (r 0x0F - r 0x10, r 7 - r 8, r 9 + r 0x0A - r 0x0B - r 0x0C)

/-- The sum of w over the present arms of a pole. -/
def Device.sumW (d : Device) (p : Nat) : Rat :=
  ((armsOf p).filter d.armPresent).foldl (fun (x : Rat) a => x + d.rdF (armIdx 0x4015 a) 6) 0

/-- Open a window at the present T0. -/
def Device.lossOpen (d : Device) (p : Nat) : Device :=
  let (dc, ac, q) := d.netEnergy p
  let w := d.sumW p
  let due := d.tick + d.ticksOf (1000 * d.rd 0x5000 3)
  d.modLoss p fun l => { l with win := some (d.tick, dc, ac, q, w), marks := (d.rdF 0x5000 5, d.rdF 0x5000 0x13), toOpen := false, bad := false, due := due, closed := none }

/-- Close a window at the present T0: L, P̄ and Q̄ in MW and Mvar (R354, R358). -/
def Device.lossClose (d : Device) (p : Nat) : Device :=
  match (d.pole p).loss.win with
  | none => d
  | some (t0, dc0, ac0, q0, w0) =>
    let (dc, ac, q) := d.netEnergy p
    let us : Rat := (((d.tick - t0) * d.period : Nat) : Rat)
    let mw := fun (e : Rat) => if us = 0 then 0 else e / us
    let joule := fun (a b : Int) => ((a - b : Int) : Rat) * 36 / 10
    let stored := d.rdF (lossIdx p) 0x13 * 1000000 * (d.sumW p - w0)
    let l := mw (joule dc dc0 - joule ac ac0 - stored)
    let pm := mw (joule ac ac0)
    let ok := !(d.pole p).loss.bad
    let i := lossIdx p
    let st := if d.rd i 1 = 6 then (d.pole p).loss.fwd else d.rd i 1
    let d := d.wrF i 0x0A pm
    let d := if ok then d else d.bump i 0x10 0x11
    let d := if st = 5 then d.bump i 0x0C 0x0D else d
    let d := if d.rd i 1 = 6 then d.wrF i (if st = 5 then 9 else 8) l else d
    d.modLoss p fun x => { x with win := none, bad := false, closed := some (l, pm, mw (joule q q0), ok) }

/-- A metering window of the pole ended at the present T0 (R355, R356). -/
def Device.lossAtWindow (d : Device) (p : Nat) : Device :=
  if !(d.win p).shut then d
  else
    let l := (d.pole p).loss
    if l.toOpen then d.lossOpen p
    else if l.win.isNone then d
    else
      let q := d.rd (0x6010 + p) 0x26
      let d := d.modLoss p fun x => { x with bad := x.bad || bit q 0 || (d.win p).lost }
      if d.tick ≥ l.due then d.lossClose p else d

/-- LOSS_SETTLE_EXPIRY (R357): the settle time of a pole's tracker has elapsed; a window opens at the next metering window end. -/
def execLossSettleExpiry (p : Nat) (s : State) : Out :=
  s.run fun d =>
    let i := lossIdx p
    let st := d.rd i 1
    if p ≥ 2 || !(st == 2 || st == 4) || d.tick < (d.pole p).loss.settle + d.ticksOf (1000 * d.rd 0x5000 4) then d
    else (d.wr i 1 (st + 1)).modLoss p fun l => { l with toOpen := true, closed := none }

/-! ### The tracker in a slow run (R357 to R364) -/

/-- The freeze reasons of Table 11.3; `power` is |P| of the run in MW, `res` its results. -/
def Device.freezeReasons (d : Device) (p : Nat) (power : Rat) (res : SlowRes) : Nat :=
  let l := (d.pole p).loss
  let pr := d.rdF (poleIdx 0x3004 p) 4
  let move := d.rdF 0x5000 0x11 * pr * (d.slowUs : Rat) / 1000000
  let ramp := decide (ratAbs (res.pRamp - l.last.1) > move) || decide (ratAbs (res.qRamp - l.last.2) > move)
  let held := match l.tripped with
    | some t => decide (d.tick < t + d.ticksOf (1000000 * d.rd 0x5000 0x12))
    | none => false
  let none4 := (List.range 4).all fun j => !d.eligible p j
  b2n (d.sub p 0) + 2 * b2n (d.poleState p == 5 || d.sub p 1) + 4 * b2n ramp + 8 * b2n held
    + 16 * b2n (decide (power < d.rdF 0x5000 0x40 * pr)) + 32 * b2n (d.sub p 2)
    + 64 * b2n ((res.dcMode, res.acMode, res.form) != l.modes) + 128 * b2n none4
    + 256 * b2n (l.active != (!d.twinProfile || d.isActive)) + 512 * b2n (d.sub p 4)

/-- The settings whose change touches a trial (R364). -/
def Device.lossCfg (d : Device) : List Nat := ([2] ++ (List.range 11).map (· + 6)).map (d.rd 0x5000)

/-- A change of the settings since the previous run touches coordinate `j`. -/
def cfgTouches (was now : List Nat) (j : Nat) : Bool :=
  let at' := fun (l : List Nat) (sub : Nat) => l.getD (sub - 5) 0
  was != [] && (bit (was.getD 0 0) j != bit (now.getD 0 0) j
    || ([[6, 7, 8], [9, 0x0A, 0x0B], [0x0C, 0x0D], [0x0E, 0x0F, 0x10]].getD j []).any fun s => at' was s != at' now s)

/-- Revert a step that stands on trial (R360). -/
def Device.lossRevert (d : Device) (p : Nat) : Device :=
  let l := (d.pole p).loss
  if l.onTrial then d.modLoss p fun x => { x with xs := x.xs.set (d.rd (lossIdx p) 3) l.saved, onTrial := false } else d

/-- Step the coordinate under trial (R359). -/
def Device.lossTrial (d : Device) (p : Nat) : Device :=
  let i := lossIdx p
  let d := d.wr i 3 (d.usable p (d.rd i 3))
  let j := d.rd i 3
  let (lo, hi) := d.lossBounds j
  let x := (d.pole p).loss.xs.getD j 0
  let down := d.downward p j
  let down := if down then decide (lo < x) else !decide (x < hi)
  let step := d.lossStep j
  let y := ratClamp lo hi (if down then x - step else x + step)
  (d.wrBit i 0x0B j down).modLoss p fun l => { l with xs := l.xs.set j y, saved := x, onTrial := true }

/-- Enter a state of Table 11.2; the settle time of states 2 and 4 runs from the commit tick. -/
def Device.lossEnter (d : Device) (p st commit : Nat) : Device :=
  (d.wr (lossIdx p) 1 st).modLoss p fun l =>
    { l with settle := if st = 2 || st = 4 then commit else l.settle, toOpen := false, win := none, closed := none, bad := false }

/-- A BASELINE window has closed (Table 11.2); whether a step follows. -/
def Device.lossBaseline (d : Device) (p : Nat) (w : Rat × Rat × Rat × Bool) : Device × Bool :=
  let (l, pm, qm, ok) := w
  if !ok then (d, false)
  else ((d.wrF (lossIdx p) 8 l).modLoss p fun x => { x with base := (l, pm, qm) }, true)

/-- A TRIAL window has closed (R358, Table 11.2), judged with the deadband and the band of the time it opened (R364); whether a step
follows. -/
def Device.lossDecide (d : Device) (p : Nat) (w : Rat × Rat × Rat × Bool) : Device × Bool :=
  let (l, pm, qm, ok) := w
  let (dead, range) := (d.pole p).loss.marks
  let (lb, pb, qb) := (d.pole p).loss.base
  let i := lossIdx p
  let pr := d.rdF (poleIdx 0x3004 p) 4
  let band := range * pr
  if !ok then (d.lossRevert p, false)
  else
    let d := d.wrF i 9 l
    if decide (ratAbs (pm - pb) > band) || decide (ratAbs (qm - qb) > band) then (d.lossRevert p, false)
    else if lb - l > dead * pr then
      let d := (d.bump i 0x0E 0x0F).wrF i 0x14 (d.rdF i 0x14 + (lb - l))
      let d := (d.wrF i 8 l).modLoss p fun x => { x with onTrial := false, base := (l, pm, qm) }
      (d.wr i 3 (d.nextEligible p (d.rd i 3)), true)
    else
      let j := d.rd i 3
      let d := (d.lossRevert p).wrBit i 0x0B j (!d.downward p j)
      (d.wr i 3 (d.nextEligible p j), false)

/-- What a window that closed since the previous run decides in state `st`; whether a step follows. -/
def Device.lossClosed (d : Device) (p st : Nat) : Device × Bool :=
  match (d.pole p).loss.closed with
  | none => (d, false)
  | some w => if st = 3 then d.lossBaseline p w else if st = 5 then d.lossDecide p w else (d, false)

/-- Enter FROZEN (R356, R361): a closed window decides, but no step is taken; a step whose window has not closed is reverted, and an open
window counts as invalid. -/
def Device.lossFreeze (d : Device) (p : Nat) : Device :=
  let d := ((d.lossClosed p (d.rd (lossIdx p) 1)).1).lossRevert p
  let d := if (d.pole p).loss.win.isSome then d.bump (lossIdx p) 0x10 0x11 else d
  d.lossEnter p 1 0

/-- The bounds and the mask of new settings act on the coordinates in force; whether a coordinate changed (R364). -/
def Device.lossLimits (d : Device) (p : Nat) : Device × Bool :=
  let xs := (d.pole p).loss.xs
  let ys := (List.range 4).map fun j =>
    let x := xs.getD j 0
    let (lo, hi) := d.lossBounds j
    if bit (d.rd 0x5000 2) j then ratClamp lo hi x else neutralOf j
  (d.modLoss p fun l => { l with xs := ys }, xs != ys)

/-- New settings act at the start of a run (R364): a trial that they touch is abandoned. -/
def Device.lossSettings (d : Device) (p commit : Nat) : Device :=
  let i := lossIdx p
  let st := d.rd i 1
  let now := d.lossCfg
  let was := (d.pole p).loss.cfg
  if st = 0 || was = now then d.modLoss p fun l => { l with cfg := now }
  else
    let j := d.rd i 3
    let trial := (d.pole p).loss.onTrial
    let (d1, changed) := d.lossLimits p
    let d1 := d1.modLoss p fun l => { l with cfg := now }
    if 2 ≤ st && st ≤ 5 && (changed || (trial && cfgTouches was now j)) then
      ((d1.lossRevert p).lossLimits p).1.lossEnter p 2 commit
    else d1

/-- The tracker stands in NEUTRAL after a run that found 0x5000.01 = 0 or the pole stopped; the coordinates follow at the run's commit tick
(R362). -/
def Device.lossStop (d : Device) (p : Nat) : Device :=
  let i := lossIdx p
  if d.rd i 1 = 0 then d
  else
    let d := (d.wr i 1 0).wr i 0x14 0
    d.modLoss p fun l =>
      { l with xs := [0, 0, 0, 1], onTrial := false, toOpen := false, win := none, closed := none, bad := false }

/-- The tracker of the ACTIVE unit, or of a stand-alone unit, in a run that commits at `commit` with the freeze reasons `why`. -/
def Device.lossLead (d : Device) (p commit why : Nat) : Device :=
  let i := lossIdx p
  let run := d.poleState p == 4 || d.poleState p == 5
  if !run || !d.flag 0x5000 1 then d.lossStop p
  else
    let d := d.lossSettings p commit
    let st := d.rd i 1
    if st = 0 then d.wr i 1 1
    else if why ≠ 0 then d.lossFreeze p
    else if st = 1 then d.lossEnter p 2 commit
    else if (d.pole p).loss.closed.isNone then d
    else
      let (d, step) := d.lossClosed p st
      if step then (d.lossTrial p).lossEnter p 4 commit else d.lossEnter p 2 commit

/-- The tracker of a unit in STANDBY-SYNC in a run: no decision, but a freeze reason spoils its own window, and it returns to NEUTRAL and to
FOLLOWING with 0x5000.01 and its pole (R356, R357, R363) (assumption log 50). -/
def Device.lossTrail (d : Device) (p why : Nat) : Device :=
  let i := lossIdx p
  if !d.flag 0x5000 1 then d.lossStop p
  else
    let d := if d.rd i 1 = 0 && (d.poleState p == 4 || d.poleState p == 5) then d.lossFollow p else d
    if why = 0 then d else d.modLoss p fun l => { l with bad := l.bad || l.win.isSome }

/-- The tracker of a pole in a slow run: the coordinates that the run commits (R351, R363). The ACTIVE unit forwards them. -/
def Device.lossRun (d : Device) (p commit : Nat) (power : Rat) (res : SlowRes) : Device × List Rat :=
  let i := lossIdx p
  let why := d.freezeReasons p power res
  let d := d.wr i 2 why
  let d := if !d.twinProfile || d.isActive then d.lossLead p commit why else if d.unit = 2 then d.lossTrail p why else d
  let d := d.modLoss p fun l => { l with
    last := (res.pRamp, res.qRamp), modes := (res.dcMode, res.acMode, res.form), active := !d.twinProfile || d.isActive }
  let xs := (d.pole p).loss.xs
  (d.forward 3 ([7, p, commit] ++ xs.map f32Of ++ [d.rd i 0x0B, d.rd i 1, d.rd i 3]), xs)

/-- A unit in STANDBY-SYNC takes the coordinates, directions, state and j that the ACTIVE unit forwarded, into the block of the same commit
tick (R363). -/
def Device.lossTake (d : Device) (p : Nat) (vals : List Nat) : Device :=
  let i := lossIdx p
  let xs := (vals.take 4).map f32Val
  let st := vals.getD 5 0
  let j := vals.getD 6 0
  let l := (d.pole p).loss
  let fresh := st = 4 && (l.fwd ≠ 4 || d.rd i 3 ≠ j)
  let opens := (st == 3 || st == 5) && l.fwd != st
  let trial := if st = 4 then true else if st = 5 then l.onTrial else false
  let d := (d.wr i 0x0B (vals.getD 4 0)).wr i 3 j
  let d := d.modPole p fun c =>
    let n : Loss := { c.loss with
      xs := xs, saved := if fresh then l.xs.getD j 0 else l.saved, onTrial := trial, fwd := st, toOpen := l.toOpen || opens }
    { c with loss := n, slow := { c.slow with xs := xs } }
  let d : Device := { d with refsNext := d.refsNext.set p ((d.refsNext.getD p RefBlock.reset).withXs xs) }
  d.showXs p

/-! ### The slow run -/

/-- SLOW_RUN of one pole: frames, modes, ramps, loops and the loss tracker, to be committed one period later. -/
def Device.slowPole (finish : Bool) (d : Device) (p : Nat) : Device :=
  if !d.polePresent p then d
  else
    let commit := d.tick + d.ticksOf d.slowUs
    let d := d.framesDue p
    let d := if (d.pole p).fallWait && !d.sub p 0 then d.modPole p fun c => { c with fallback := true, fallWait := false } else d
    let m := d.slowMeans p
    let was := (d.pole p).slow.dcMode
    let d := d.slowModes p m
    let res := d.slowRes p ((d.pole p).slow.dcMode != was) m (d.slowMeans 0)
    let (d, xs) := d.lossRun p commit (ratAbs m.p / 1000000) res
    let r : SlowRes := { res with xs := xs }
    d.modPole p fun c => { c with slowPend := some ⟨commit, finish, r⟩ }

/-- A slow-tier run starts at the T0 of the present tick, if it is a multiple of T_s (assumption log 42). -/
def Device.startSlow (d : Device) (finish : Bool) : Device :=
  let n := d.ticksOf d.slowUs
  let busy := [0, 1].any fun p =>
    match (d.pole p).slowPend with
    | some x => decide (x.commit > d.tick)
    | none => false
  if !d.outerRuns || n = 0 || d.tick % n ≠ 0 || busy then d
  else
    let d := [0, 1].foldl (Device.slowPole finish) d
    [0, 1].foldl (fun d p => d.modPole p fun c => { c with sums := ⟨0, 0, 0, 0, 0, 0, 0, 0⟩ }) d

/-- SLOW_RUN (R156 to R170): a slow-tier run starts at the T0 of a tick that is a multiple of T_s; `finish` says whether it ends by its
commit tick, which one of a halted pair 2 does not (R159, R468). -/
def execSlowRun (finish : Bool) (s : State) : Out := s.run fun d => d.startSlow (finish && !bit (d.rd 0x9010 0x43) 2)

end Sys2Proof.Machine
end

