-- ==== Sys2Proof/Machine/Sync.lean ====
section
/-! DEFINITION. SYNC_IN and SYNC_OUT, the SYNC tracker and the tick period (spec/02_control_tick.md R40 to R48, R68 to R76).
Choices of the model: assumption log 51. -/
namespace Sys2Proof.Machine

/-- Change the tick timer. -/
def Device.modTimer (d : Device) (f : TickTimer → TickTimer) : Device := { d with timer := f d.timer }

/-! ### The SYNC tracker (Table 2.5) -/

/-- The tracker's state, without the tracked flag. -/
def Device.syncState (d : Device) : Nat := d.rd 0x2010 7 % 128

/-- Enter a tracker state; the tracked flag is clear in every state but TRACKING. -/
def Device.setSync (d : Device) (st : Nat) : Device := d.wr 0x2010 7 st

/-- The unit is to track under R72. -/
def Device.toTrack (d : Device) : Bool :=
  let mode := d.rd 0x2010 5
  let peerActive := d.rd 0x2020 9 == 3
  mode == 1 || mode == 2 || (mode == 3 && !d.isActive && (peerActive || d.rd 0x2020 1 == 1))

/-- The tracking offset in ps, rounded to the nearest multiple of 25 (R70). -/
def Device.syncOffset (d : Device) : Int := divRound (d.rdI 0x2010 6) 25 * 25

/-- An edge is valid (R69): `off` its deviation in ps from the expected edge, `high` its high time in ns, `ppm` the deviation of the
source's period. -/
def Device.edgeValid (d : Device) (off : Int) (high : Nat) (ppm : Int) : Bool :=
  (!d.timer.expecting || decide (off.natAbs ≤ 250000)) && decide (50 ≤ high) && decide (high ≤ 400) && decide (ppm.natAbs ≤ 100)

/-- The average rate of the steps made since TRACKING began, in steps a tick. -/
def TickTimer.average (t : TickTimer) : Rat := (t.stepSum : Rat) / ((max 1 t.stepTicks : Nat) : Rat)

/-- An expected edge is missing or invalid; at the fourth HOLDOVER keeps the last average step rate (Table 2.5). -/
def Device.syncMiss (d : Device) : Device :=
  let d := d.modTimer fun t => { t with edgeRun := 0, farRun := 0, missRun := t.missRun + 1 }
  if d.syncState = 2 && d.timer.missRun ≥ 4 then
    ((d.setSync 3).modTimer fun t => { t with stepRate := t.average, owed := 0 }).event 0x2010 7 lvWarn [(8, 3)]
  else d

/-- A phase error in ps brought to less than half a period of `p` ps by whole periods; none at exactly half a period (R76). -/
def nearestPhase (e : Int) (p : Nat) : Option Int :=
  let r := e - divRound e p * p
  if 2 * r.natAbs < p then some r else none

/-- The realigning step: the tick in progress ends `r` ps earlier (R74, R76). -/
def Device.realign (d : Device) (r : Int) : Device :=
  ((d.wrI 0x2010 8 0).modTimer fun t => { t with
    aligning := -r, lengthPs := (((1000000 * d.period : Nat) : Int) - r).toNat }).event 0x2010 8 lvInfo []

/-- The tracker after a valid edge with phase error `e` in ps. -/
def Device.syncEdge (d : Device) (e : Int) : Device :=
  let st := d.syncState
  if st = 1 then
    if d.timer.edgeRun < 16 then d
    else
      let d := (d.setSync 2).modTimer fun t => { t with
        edgeRun := 0, farRun := 0, nearRun := 0, stepRate := 0, stepSum := 0, stepTicks := 0, owed := 0 }
      match if d.allBlocked then nearestPhase e (1000000 * d.period) else none with
      | some r => d.realign r
      | none => d
  else if st = 2 then
    let far := if e.natAbs > 100000 then d.timer.farRun + 1 else 0
    let d := d.modTimer fun t => { t with farRun := far }
    if far ≥ 16 then
      ((d.setSync 1).modTimer fun t => { t with edgeRun := 0, farRun := 0 }).event 0x2010 7 lvWarn [(8, 1)]
    else d
  else if st = 3 && d.timer.edgeRun ≥ 16 then (d.setSync 1).modTimer fun t => { t with edgeRun := 0 }
  else d

/-- SYNC_IN_EDGE (R69, R70, R74): a rising edge with T0 minus the edge `err` in ps, its deviation `off` in ps from the expected edge,
high time `high` in ns and period deviation `ppm`. An invalid edge is no marker, whatever its high time (assumption log 51). -/
def execSyncInEdge (err off : Int) (high : Nat) (ppm : Int) (s : State) : Out :=
  s.run fun d =>
    if !d.ticking || d.rd 0x2010 5 = 0 then d
    else if !d.edgeValid off high ppm then (d.bump 0x2010 0x0C 0x0D).syncMiss
    else
      let e := err - d.syncOffset
      let d := d.modTimer fun t => { t with expecting := true, edgeRun := t.edgeRun + 1, missRun := 0 }
      let d := if high > 200 then d.wr 0x2010 0x0E (d.tick % 65536) else d
      (d.wrI 0x2010 8 e).syncEdge e

/-- SYNC_EDGE_MISSING (R74): an expected edge has not come; the fourth in a row takes the tracker to HOLDOVER. -/
def execSyncEdgeMissing (s : State) : Out :=
  s.run fun d => if d.ticking && d.rd 0x2010 5 ≠ 0 && d.timer.expecting then d.syncMiss else d

/-- SYNC_PHASE_STEP (R71, R74, R686): one step of 25 ps towards the target in TRACKING, or one that the kept average rate owes in
HOLDOVER; at most one every 50 ENG cycles. -/
def execSyncPhaseStep (s : State) : Out :=
  s.run fun d =>
    let e := d.rdI 0x2010 8
    let st := d.syncState
    let one : Int := if st = 3 then (if d.timer.owed ≥ 1 then 1 else if d.timer.owed ≤ -1 then -1 else 0)
      else if e ≥ 25 then -1 else if e ≤ -25 then 1 else 0
    let dir := 25 * one
    if !d.ticking || !(st == 2 || st == 3) || dir = 0 || d.timer.steps ≥ d.engCycles / 50 then d
    else
      let d := d.modTimer fun t =>
        if st = 3 then { t with steps := t.steps + 1, owed := t.owed - (one : Rat) }
        else { t with steps := t.steps + 1, stepSum := t.stepSum + one }
      (if st = 2 then d.wrI 0x2010 8 (e + dir) else d).accum 0x5B00 5 6 1

/-- SYNC_TRACKED (R74): within ±20 ns for 1,000 consecutive ticks. -/
def execSyncTracked (s : State) : Out :=
  s.run fun d =>
    if d.rd 0x2010 7 = 2 && d.timer.nearRun ≥ 1000 then (d.wrBit 0x2010 7 7 true).event 0x2010 7 lvInfo [(8, 0x82)] else d

/-- The tracker at a T0: it leaves or enters OFF under R72, counts the ticks within ±20 ns and those of the average step rate, and in
HOLDOVER the steps that the kept rate owes. The tick that begins has its period's length. -/
def Device.syncBoundary (d : Device) : Device :=
  let st := d.syncState
  let near := if st = 2 && (d.rdI 0x2010 8).natAbs ≤ 20000 then d.timer.nearRun + 1 else 0
  let d := d.modTimer fun t => { t with
    nearRun := near, aligning := 0, lengthPs := 1000000 * d.period, steps := 0
    stepTicks := if st = 2 then t.stepTicks + 1 else t.stepTicks
    owed := if st = 3 then t.owed + t.stepRate else t.owed }
  if st = 0 then
    if d.toTrack then (d.setSync 1).modTimer fun t => { t with edgeRun := 0, farRun := 0, missRun := 0 } else d
  else if d.toTrack then d
  else (d.setSync 0).modTimer fun t => { t with edgeRun := 0, farRun := 0, expecting := d.rd 0x2010 5 != 0 && t.expecting }

/-- The length in ns of the SYNC_OUT pulse of a tick; 0 where it is disabled (R68). -/
def Device.syncPulse (d : Device) : Nat :=
  if !d.flag 0x2010 9 then 0 else if d.tick % 65536 = 0 then 300 else 100

/-! ### The tick period (R41 to R45) -/

/-- The first condition of R42 that fails for a period code, counted from 1; 0 when all hold. -/
def Device.periodFails (d : Device) (code : Nat) : Nat :=
  if !d.allBlocked then 1
  else if d.rd 0x2010 4 ≠ 0 then 2
  else if !d.holds then 3
  else
    let c := d.wr 0x2010 2 code
    if (List.range 32).all fun l => c.laneCells l == 0 || c.laneState l != 8 || c.laneFeasible l then 0 else 4

/-- An accepted tick-period change waits for its change tick (R43). -/
def Device.setPeriod (d : Device) (code change : Nat) : Device := (d.wr 0x2010 3 code).wr 0x2010 4 change

/-- A change is scheduled and forwarded (R43, R45). -/
def Device.changePeriod (d : Device) (code : Nat) : Device :=
  let c := d.futureTick 1024 256
  (d.setPeriod code c).forward 3 [5, code, c]

/-- TICK_PERIOD_REQUEST (R42): a write of `code` to 0x2010.03 (assumption log 52). -/
def execTickPeriodRequest (code : Nat) (s : State) : Out :=
  s.run fun d =>
    if !d.mailbox then d
    else
      let refuse := fun (k : Nat) =>
        (d.event 0x2010 3 lvWarn [(8, k)]).abort 0x2010 3 (if k = 1 then 0x08000022 else 0x08000020)
      match d.judgeAs true 0x2010 3 1 code with
      | some c => if c = 0x08000022 && d.plantReachable && !d.allBlocked then refuse 1 else d.abort 0x2010 3 c
      | none => if d.periodFails code = 0 then d.done.changePeriod code else refuse (d.periodFails code)

/-- TICK_PERIOD_CHANGE (R43, R310): at the change tick the new period is in force and the lanes are judged again. -/
def execTickPeriodChange (s : State) : Out :=
  s.run fun d =>
    if d.rd 0x2010 4 = 0 || d.tick < d.rd 0x2010 4 || !d.ticking then d
    else
      let d := (d.wr 0x2010 2 (d.rd 0x2010 3)).wr 0x2010 4 0
      (d.modTimer fun t => { t with lengthPs := 1000000 * d.period }).lanesPeriod

end Sys2Proof.Machine
end

