-- ==== Sys2Proof/Machine/Stream.lean ====
section
/-! DEFINITION. What the plant half sends to the disturbance recorder: the stream of channel 7 and the trigger events
(spec/20_recorder_and_health.md R673, R674, R676, R677).
Choices of the model: assumption log 75. -/
namespace Sys2Proof.Machine

/-- The value of an entry as the stream carries it: binary32 words as they stand, integers converted (R674). -/
def Device.streamValue (d : Device) (entry : Nat) : Nat :=
  if entry = 0 then noValue
  else
    let key := entry / 256
    match odEntry? key with
    | none => noValue
    | some (e, _) =>
      let v := odGet d.od key
      match e.ty with
      | .f32 => v
      | .i8 => f32Of (toInt 8 v : Rat)
      | .i16 => f32Of (toInt 16 v : Rat)
      | .i32 => f32Of (toInt 32 v : Rat)
      | _ => f32Of (v : Rat)

/-- Entry `i` of the channel list 0xB000.09. -/
def Device.streamEntry (d : Device) (i : Nat) : Nat := field (d.rd 0xB000 0x09) (32 * i) 32

/-- The recorded values of the present tick: the channels in use, then unused entries (assumption log 82). -/
def Device.streamValues (d : Device) : List Nat :=
  let c := d.recChannels
  (List.range c).map (fun i => d.streamValue (d.streamEntry i)) ++ List.replicate (512 - c) noValue

/-- The stream runs from LINKED onwards while the recorder is enabled. -/
def Device.streaming (d : Device) : Bool := decide (5 ≤ d.boot.plState) && d.flag 0xB000 0x01

/-- At the T0 that ends a tick its values are taken; those of an odd tick leave in the tick that begins, with those of the even
tick before. Call before the tick number advances; the message follows through `sendStream`. -/
def Device.sampleStream (d : Device) : Device × Option (List Nat) :=
  if !d.streaming then ({ d with recStream := { d.recStream with held := none } }, none)
  else
    let vals := d.streamValues
    if d.tick % 2 = 0 then ({ d with recStream := { d.recStream with held := some ⟨d.tick, vals⟩ } }, none)
    else
      let out := match d.recStream.held with
        | some h => if h.tick + 1 = d.tick then some (h.vals ++ vals) else none
        | none => none
      ({ d with recStream := { d.recStream with held := none } }, out)

/-- One CELL-SNAPSHOT message: the latched reports of lanes 2m and 2m + 1, 256 positions of 8 bytes each. -/
def Device.snapshotOf (d : Device) (m : Nat) : List Nat :=
  [2 * m, 2 * m + 1].flatMap fun l =>
    (List.range 256).flatMap fun g => if g < d.laneCells l then leBytes 8 (d.report (256 * l + g)) else leBytes 8 0

/-- TICK-CHANNELS of the two ticks that ended, then the snapshot of a tick at a multiple of 100 µs. -/
def Device.sendStream (d : Device) (out : Option (List Nat)) : Device :=
  if !d.streaming then d
  else
    let d := match out with
      | some vals => (d.send 7 5 1 0 (vals.flatMap (leBytes 4))).dev
      | none => d
    if d.tick % max 1 (100 / d.period) ≠ 0 then d
    else d.lanePairs.foldl (fun d m => (d.send 7 5 2 0 (d.snapshotOf m)).dev) d

/-! ### Triggers -/

/-- The value crosses the threshold in the set direction between two ticks. -/
def crossed (falling : Bool) (thr was now : Rat) : Bool :=
  if falling then decide (was ≥ thr) && decide (now < thr) else decide (was < thr) && decide (now ≥ thr)

/-- Level trigger `m` (R677) (assumption log 82). -/
def Device.levelTrigger (d : Device) (m : Nat) : Device :=
  let cfg := d.rd 0xB000 (0x20 + m)
  let was := d.recStream.levels.getD m noValue
  let now := if bit cfg 16 then d.streamValue (d.streamEntry (cfg % 512)) else noValue
  let d := if now = was then d else { d with recStream := { d.recStream with levels := d.recStream.levels.set m now } }
  if f32Special was || f32Special now then d
  else if crossed (bit cfg 15) (d.rdF 0xB000 (0x28 + m)) (f32Val was) (f32Val now) then d.noteTrigger 11 else d

/-- The tick tier finds the triggers of the tick and sends those enabled as one trigger event, with the source mask and the tick
(R676, R677). -/
def Device.sendTriggers (d : Device) : Device :=
  let d := (List.range 8).foldl Device.levelTrigger d
  if d.trigs = 0 then d
  else
    let mask := d.trigs &&& d.rd 0xB000 0x05
    let d : Device := { d with trigs := 0 }
    if mask = 0 then d else d.event 0xB000 0x31 lvInfo [(16, mask), (64, d.tick)]

end Sys2Proof.Machine
end

