-- ==== Sys2Proof/Machine/LockStep.lean ====
section
/-! DEFINITION. Lock-step faults and the other ways into the plant safe state, debugging, the slot of core pair 3 and extension tasks
(spec/14_lockstep_and_extensions.md, R37, R683).
Choices of the model: assumption log 54. -/
namespace Sys2Proof.Machine

/-! ### Into the safe state -/

/-- The slot of core pair 3 ends without its work. -/
def Device.slotCut (d : Device) : Device := { d with slot3 := ⟨false, none, [], 0⟩ }

/-- A self-test bit of Table 13.10 that the boot part holds fails. -/
def Device.failTest (d : Device) (b : Nat) : Device := d.modBoot fun x => { x with selfTest := setBit x.selfTest b false }

/-- The safe state, once. -/
def Device.toSafeState (d : Device) : Device :=
  let d := ((d.slotCut.wr 0x9010 0x40 0).wr 0x9010 0x43 0).plantSafeState
  { d with lanes := d.lanes.map fun (x : Lane) => { x with sent := false } }

/-- LOCK_STEP_FAULT (R459, R460, R462, R465): in core pair `pair`, of `kind` 1 to 3, with the differing output word. During the Gambit
test the test latch catches it and the test fails (R464). -/
def execLockStepFault (pair kind word : Nat) (s : State) : Out :=
  s.run fun d =>
    if d.boot.plantHeld || d.boot.pairsHalted || pair > 3 || kind < 1 || kind > 3 then d
    else if d.rd 0x9010 1 = 1 then (d.failTest 0).event 0x9010 3 lvFault [(8, pair)] |>.enterFault
    else
      let d := if kind = 2 then d.failTest 0 else if kind = 3 then d.failTest 1 else d
      (d.modBoot fun b => { b with lockStepRec := some (pair, kind, d.tick, word % 2 ^ 32), recsNew := setBit b.recsNew 0 true }).toSafeState

/-- UNCORRECTABLE_WORD (R683): an uncorrectable word of plant memory at `addr`. -/
def execUncorrectableWord (addr : Nat) (s : State) : Out :=
  s.run fun d =>
    if d.boot.plantHeld then d
    else
      let d := (d.failTest 2).modBoot fun b => { b with uncorrRec := some (addr % 2 ^ 32, d.tick), recsNew := setBit b.recsNew 1 true }
      if d.boot.pairsHalted then d else d.toSafeState

/-- CLOCK_LOSS (R37, R686): a synthesiser loses lock or reference. In the plant half FAULT_N and BLOCK_OUT assert and the safe state
follows; its gated clocks stop the tick. The station half is reset, which its count of lock losses does not outlast (R11) (assumption
log 71, 76). -/
def execClockLoss (plant : Bool) (s : State) : Out :=
  s.run fun d =>
    if plant then
      if !d.boot.plantClock then d
      else
        let d := ((d.bump 0x5B00 3 4).wr 0x5B00 1 0).wrF 0x5B00 2 0
        let d := (d.modBoot fun b => { b with plantClock := false }).modTimer fun t => { t with running := false }
        (if d.boot.pairsHalted then d else d.toSafeState).showBlockOut
    else if !d.boot.stationClock then d
    else
      (d.stCount 0x9000 0x17 0x18).stationReset.wr 0x9000 0x16 0

/-! ### Debugging (R466 to R468) -/

/-- DEBUG_ENABLE (R466): a write of `v` to 0x9010.40. -/
def execDebugEnable (v : Nat) (s : State) : Out :=
  s.run fun d => d.sdo 0x9010 0x40 1 v fun d =>
    let idle := fun p => d.poleState p == 0 || d.poleState p == 1
    let ok := if d.twinProfile then d.unit == 4 else idle 0 && idle 1
    if v ≠ 0 && !ok then d.abort 0x9010 0x40 0x08000022
    else if v ≠ 0 then d.wr 0x9010 0x40 1
    else (d.wr 0x9010 0x40 0).wr 0x9010 0x43 0

/-- DEBUG_ACCESS (R467): an access of the debugger to core pair `pair` is replayed to both copies; `kind` 0 is a read or write of a
register or of memory, 1 a halt, 2 a resume, 3 a step (assumption log 55). -/
def execDebugAccess (pair kind : Nat) (s : State) : Out :=
  s.run fun d =>
    if d.boot.plantHeld || d.boot.pairsHalted || !d.flag 0x9010 0x40 || pair > 3 || kind > 3 then d
    else
      let d := d.accum 0x9010 0x41 0x42 1
      if kind = 1 then d.wrBit 0x9010 0x43 pair true else if kind = 2 then d.wrBit 0x9010 0x43 pair false else d

/-- JTAG_BOUNDARY_SCAN (R466): boundary-scan and identification instructions are answered at all times and change no state of the
part. -/
def execJtagBoundaryScan (s : State) : Out := s.run fun d => d

/-! ### Extension tasks (R469 to R477) -/

/-- The object of a task. -/
def taskIdx (t : Nat) : Nat := 0x9030 + t

/-- A task. -/
def Device.task (d : Device) (t : Nat) : TaskCtl := d.tasks.getD t TaskCtl.reset

/-- Change a task. -/
def Device.modTask (d : Device) (t : Nat) (f : TaskCtl → TaskCtl) : Device := { d with tasks := d.tasks.set t (f (d.task t)) }

/-- The state of a task, Table 14.5. -/
def Device.taskState (d : Device) (t : Nat) : Nat := d.rd (taskIdx t) 1

/-- The initial data of a task image. -/
def taskData (im : List Nat) : List Nat :=
  match taskHead im with
  | some h => (im.drop (256 + h.codesz)).take h.datasz
  | none => []

/-- A configuration is activated: task `t` with its image, or without one (Table 14.5). -/
def Device.taskActivate (ts : List (Nat × List Nat)) (d : Device) (t : Nat) : Device :=
  let i := taskIdx t
  let im := match ts.find? (fun x => x.1 == t) with
    | some x => x.2
    | none => []
  match taskHead im with
  | some h =>
    let d := d.modTask t fun _ => ⟨im, taskData im, [], 0, 0⟩
    let d := (((d.wr i 1 1).wr i 2 h.ver).wr i 3 (crc32c im)).wr i 4 h.period
    ((d.wr i 5 h.phase).wr i 6 h.budget).wr i 0x12 h.slot
  | none =>
    let d := d.modTask t fun _ => TaskCtl.reset
    [1, 2, 3, 4, 5, 6, 0x12].foldl (fun d k => d.wr i k 0) d

/-- Show the tasks loaded and the largest budget due in a tick (Table 14.8). -/
def Device.showTasks (d : Device) (ts : List (Nat × List Nat)) : Device :=
  let loaded := ((List.range 8).map fun t => if d.taskState t = 0 then 0 else 2 ^ t).foldl (· + ·) 0
  (d.wr 0x9020 1 loaded).wr 0x9020 3 (((List.range 1024).map (dueBudget ts)).foldl max 0)

/-- The tasks of an activated configuration. -/
def Device.tasksActivate (d : Device) (ts : List (Nat × List Nat)) : Device :=
  let d := (List.range 8).foldl (Device.taskActivate ts) d
  if ts.isEmpty then (d.wr 0x9020 1 0).wr 0x9020 3 0 else d.showTasks ts

/-- A task command: 1 SUSPEND, 2 RESUME, 3 RESTART; refused where no row of Table 14.5 matches. -/
def Device.taskCommand (d : Device) (t code : Nat) : Device :=
  d.sdo (taskIdx t) 0x10 1 code fun d =>
    let st := d.taskState t
    if (code = 1 && st = 1) || (code = 2 && st = 2) || (code = 3 && (st = 2 || st = 3)) then
      d.modTask t fun x => { x with cmd := code }
    else d.abort (taskIdx t) 0x10 0x08000022

/-- SUSPEND (R476) (assumption log 13). -/
def execSuspend (t : Nat) (s : State) : Out := s.run fun d => d.taskCommand t 1

/-- RESUME (R476). -/
def execResume (t : Nat) (s : State) : Out := s.run fun d => d.taskCommand t 2

/-- RESTART (R476). -/
def execRestart (t : Nat) (s : State) : Out := s.run fun d => d.taskCommand t 3

/-- The command of a task takes effect at a T0 if its row still matches. -/
def Device.taskEffect (d : Device) (t : Nat) : Device :=
  let x := d.task t
  let st := d.taskState t
  let d := if x.cmd = 0 then d else d.modTask t fun y => { y with cmd := 0 }
  if x.cmd = 1 && st = 1 then d.wr (taskIdx t) 1 2
  else if x.cmd = 2 && st = 2 then (d.wr (taskIdx t) 1 1).modTask t fun y => { y with overs := 0 }
  else if x.cmd = 3 && (st = 2 || st = 3) then
    (d.wr (taskIdx t) 1 1).modTask t fun y => { y with data := taskData y.image, inbox := [], overs := 0 }
  else d

/-- Task commands at a T0. -/
def Device.tasksBoundary (d : Device) : Device :=
  if d.tasks.all fun x => x.cmd == 0 then d else (List.range 8).foldl Device.taskEffect d

/-- A task is due in the present tick (R472). -/
def Device.taskDue (d : Device) (t : Nat) : Bool :=
  let i := taskIdx t
  d.taskState t == 1 && d.rd i 4 != 0 && (d.tick + 1024 * d.rd i 4 - d.rd i 5) % d.rd i 4 == 0

/-- Tasks run in every unit state but OUT-OF-SERVICE, and not while pair 3 is halted (R477). -/
def Device.tasksRun (d : Device) : Bool :=
  !(d.twinProfile && d.unit == 4) && !d.boot.pairsHalted && !bit (d.rd 0x9010 0x43) 3

/-- A task is stopped before it returns: an overrun, its messages discarded; the third in a row suspends it (R473). -/
def Device.overrun (d : Device) (t : Nat) : Device :=
  let n := (d.task t).overs + 1
  let d := (d.bump (taskIdx t) 9 0x0A).modTask t fun x => { x with overs := n }
  if n < 3 then d else (d.wr (taskIdx t) 1 2).event (taskIdx t) 1 lvWarn []

/-- A run's cycles are shown. -/
def Device.showCycles (d : Device) (t n : Nat) : Device :=
  let d := d.wr (taskIdx t) 7 n
  if n > d.rd (taskIdx t) 8 then d.wr (taskIdx t) 8 n else d

/-- A run that ends by itself: it returns, with its outputs, or faults (R475, R476). -/
def Device.taskEnds (d : Device) (r : TaskRun) : Device :=
  let t := r.task
  let i := taskIdx t
  let d := (d.showCycles t r.cycles).modTask t fun x => { x with inbox := [] }
  if r.fault ≠ 0 then (((d.wr i 1 3).wr i 0x0D r.fault).bump i 0x0B 0x0C).event i 0x0B lvWarn [(8, r.fault)]
  else
    let d := d.modTask t fun x => { x with overs := 0, data := r.data }
    let d := d.wr i 0x14 r.result
    let d := ((r.msgs.take 4).map (·.take 256)).foldl (fun d m => (d.send 10 7 1 3 (t :: m)).dev) d
    match r.event with
    | some code => { d with ring := { d.ring with fresh := d.ring.fresh ++ [⟨(0xE0 + t) * 2 ^ 24 + code % 2 ^ 16, 0⟩] } }
    | none => d

/-- Run due tasks in ascending order in the `left` cycles of the slot. A task with no outcome in `runs`, or one that would need more than
its budget or than the slot still has, runs on; none starts at the slot end. -/
def Device.runTasks (runs : List TaskRun) : List Nat → Nat → Device → Device
  | [], left, d => { d with slot3 := ⟨true, none, [], left⟩ }
  | t :: rest, left, d =>
    match runs.find? (fun r => r.task == t) with
    | some r =>
      if left = 0 then { d with slot3 := ⟨true, none, t :: rest, 0⟩ }
      else if r.cycles ≤ d.rd (taskIdx t) 6 && r.cycles ≤ left && r.fault ≤ 3 then Device.runTasks runs rest (left - r.cycles) (d.taskEnds r)
      else { d with slot3 := ⟨true, some t, rest, left⟩ }
    | none => { d with slot3 := if left = 0 then ⟨true, none, t :: rest, 0⟩ else ⟨true, some t, rest, left⟩ }

/-- TASK_BUDGET_EXPIRY (R473): the budget of the running task is spent before the slot ends; the tasks after it run, with the outcomes
`runs`. -/
def execTaskBudgetExpiry (runs : List TaskRun) (s : State) : Out :=
  s.run fun d =>
    match d.slot3.current with
    | none => d
    | some t =>
      let budget := d.rd (taskIdx t) 6
      if d.slot3.left < budget then d
      else Device.runTasks runs d.slot3.waiting (d.slot3.left - budget) ((d.showCycles t budget).overrun t)

/-! ### The slot of core pair 3 -/

/-- PCORE cycles of the slot (R472). -/
def Device.slotCycles (d : Device) : Nat := [960, 1920, 3840, 4800].getD (d.rd 0x2010 2) 960

/-- PAIR3_SLOT_START (R65, R156, R196, R677): the tick tier runs first and commits the reference blocks; `tier` is the cycles it takes.
Then the due tasks run with the outcomes `runs`. -/
def execPair3SlotStart (tier : Nat) (runs : List TaskRun) (s : State) : Out :=
  s.run fun d =>
    if !d.ticking || d.boot.pairsHalted || d.slot3.opened || d.timer.committed then d
    else
      let due := if d.tasksRun then (List.range 8).filter d.taskDue else []
      if bit (d.rd 0x9010 0x43) 3 then { d with slot3 := ⟨true, none, [], 0⟩ }
      else if tier > d.slotCycles then { d.bump 0x9020 4 5 with slot3 := ⟨true, none, due, 0⟩ }
      else
        let d := if tier > 480 then d.bump 0x9020 4 5 else d
        let d := d.takeAll 4
        let d := if d.outerRuns then (d.tickTier 0).tickTier 1
                 else if d.twinProfile && d.unit = 1 && d.twin.loaded then (d.tierSample 0).tierSample 1 else d
        let d := d.sendTriggers
        Device.runTasks runs due (d.slotCycles - tier) (d.modTimer fun t => { t with committed := true })

/-- PAIR3_SLOT_END (R65, R473): a running task is stopped and counts an overrun; due tasks that have not started are skipped. -/
def execPair3SlotEnd (s : State) : Out :=
  s.run fun d =>
    if !d.slot3.opened then d
    else
      let d := match d.slot3.current with
        | some t => (d.showCycles t d.slot3.left).overrun t
        | none => d
      (d.slot3.waiting.foldl (fun d t => d.bump (taskIdx t) 0x13 0x15) d).slotCut

end Sys2Proof.Machine
end

