-- ==== Sys2Proof/Machine/CorePower.lean ====
section
/-! DEFINITION. The core-power controller, its gate drive and the holdup store (spec/19_core_power.md, R385 to R388).
Choices of the model: assumption log 72, 73. -/
namespace Sys2Proof.Machine

/-- Change the power part. -/
def Device.modPower (d : Device) (f : Power → Power) : Device := { d with power := f d.power }

/-- The regulator's state, Table 19.7: 0 OFF, 1 SELF-CHECK, 2 SOFT-START, 3 RUN, 4 HICCUP, 5 SHUTDOWN, 6 LATCHED. -/
def Device.regState (d : Device) : Nat := d.rd 0x5800 1

/-- The phases of a mask. -/
def phasesOf (m : Nat) : List Nat := (List.range 6).filter (bit m)

/-- The mask of some phases. -/
def phaseMask (hs : List Nat) : Nat := hs.foldl (fun m h => setBit m h true) 0

/-- Switch numbers: 2h is the high side of phase h, 2h + 1 its low side. -/
def switchesOf (m : Nat) : List Nat := (List.range 12).filter (bit m)

/-- Both switches of some phases. -/
def bothSwitches (hs : List Nat) : Nat := hs.foldl (fun m h => setBit (setBit m (2 * h) true) (2 * h + 1) true) 0

/-- The detected phases with no latched switch (R649). -/
def Device.usablePhases (d : Device) : List Nat :=
  let l := d.rd 0x5800 4
  (phasesOf (d.rd 0x5800 2)).filter fun h => !bit l (2 * h) && !bit l (2 * h + 1)

/-- The phases of the active set. -/
def Device.activePhases (d : Device) : List Nat := phasesOf (d.rd 0x5800 3)

/-- Phases leave the active set at once; a shed of one of them ends with it and counts no abort (R649, R662). -/
def Device.dropPhases (d : Device) (hs : List Nat) : Device :=
  let keep := d.activePhases.filter fun h => !hs.contains h
  let d := d.wr 0x5800 3 (phaseMask keep)
  match d.power.shed with
  | some r => if hs.contains r.phase then d.modPower fun p => { p with shed := none } else d
  | none => d

/-- Latch switches with a cause: held in the regulator record with the UTC second (R649, R658). -/
def Device.latchSwitches (d : Device) (bits cause : Nat) : Device :=
  let all := Nat.lor (d.rd 0x5800 4) bits
  let d := (d.wr 0x5800 4 all).modPower fun p => { p with cause := cause, recNew := true }
  let d := d.modBoot fun b => { b with regRec := some (cause, all, d.utc) }
  d.dropPhases ((List.range 6).filter fun h => bit bits (2 * h) || bit bits (2 * h + 1))

/-- The regulator changes its state; in every state but SOFT-START, RUN and SHUTDOWN every switch is off. -/
def Device.setReg (d : Device) (st : Nat) : Device :=
  let d := d.wr 0x5800 1 st
  if st = 2 || st = 3 || st = 5 then d
  else (d.wr 0x5800 3 0).modPower fun p => { p with shed := none, braking := false, locked := 0 }

/-- A soft-start attempt begins with every usable phase. -/
def Device.softStart (d : Device) (attempt : Nat) : Device :=
  let d := d.modPower fun p => { p with attempt := attempt, tripped := 0 }
  (d.wr 0x5800 3 (phaseMask d.usablePhases)).setReg 2

/-- A failed attempt: HICCUP, or at the fourth LATCHED with cause 3 for the switches that tripped in it (R652, R653). -/
def Device.softStartFails (d : Device) : Device :=
  if d.power.attempt < 4 then (d.bump 0x5800 8 9).setReg 4 else (d.latchSwitches d.power.tripped 3).setReg 6

/-- The settings that the controller uses are those of its record, or the factory's (R637). -/
def Device.regSetting (d : Device) (sub : Nat) : Nat :=
  match d.power.inUse.find? (fun kv => kv.1 == sub) with
  | some kv => kv.2
  | none => odDefault (odKey 0x5800 sub)

/-- The entries of 0x5800 with change class RESTART. -/
def regSubs : List Nat := [0x40, 0x41, 0x43, 0x44, 0x45, 0x46, 0x47, 0x50, 0x52, 0x54]

/-- The regulator record is written at an activation of kind RESTART or FIRMWARE (R637). -/
def Device.writeRegRecord (d : Device) : Device :=
  d.modPower fun p => { p with record := regSubs.map fun k => (k, d.rd 0x5800 k) }

/-- REG_EN_HIGH (R635, R637, R651, R652): with the retention domain up, HRPWM present and P_REG_EN high the regulator leaves OFF. The
controller finds the phases `detected` and the comparators `failed`, bits as 0x5800.1C. -/
def execRegEnHigh (detected failed : Nat) (s : State) : Out :=
  s.run fun d =>
    let d := d.modPower fun p => { p with enable := true }
    if !d.power.retention || !d.power.supply || d.power.saving || d.regState ≠ 0 then d
    else if d.power.cause ≠ 0 then d.setReg 6
    else
      let d := (d.setReg 1).modPower fun p => { p with inUse := p.record }
      let detected := detected % 64
      let d := d.wr 0x5800 2 detected
      let d := if detected = d.regSetting 0x54 then d else d.event 0x5800 2 lvWarn [(8, detected)]
      let d := d.wr 0x5800 0x1C (failed % 2 ^ 31)
      let bad := (phasesOf detected).filter fun h => field failed (5 * h) 5 != 0
      let d := if bad.isEmpty then d else d.latchSwitches (bothSwitches bad) 6
      if bit failed 30 || d.usablePhases.length < d.rd 0x5800 0x4B then (d.latchSwitches 0 6).setReg 6 else d.softStart 1

/-- POWER_GOOD (R652): the power-good window held for 200 µs; the core-rail domain may leave reset. -/
def execPowerGood (s : State) : Out := s.run fun d => if d.regState = 2 then d.setReg 3 else d

/-- SOFT_START_TIMEOUT (R652): power-good not reached 1 ms after the ramp ends. -/
def execSoftStartTimeout (s : State) : Out := s.run fun d => if d.regState = 2 then d.softStartFails else d

/-- HICCUP_EXPIRY (R652): 50 ms after a failure the next attempt begins. -/
def execHiccupExpiry (s : State) : Out :=
  s.run fun d => if d.regState = 4 then d.softStart (d.power.attempt + 1) else d

/-- SWITCH_SHORT_TRIP (R647, R649, R652, R653, R662): the switches of `soft` and `hard`, numbered as in 0x5800.04, trip in one cycle; a
switch in both trips as hard, once. In RUN they latch; in SOFT-START the attempt fails. -/
def execSwitchShortTrip (soft hard : Nat) (s : State) : Out :=
  s.run fun d =>
    let live := bothSwitches d.activePhases
    let hard := hard &&& live
    let all := Nat.lor (soft &&& live) hard
    if all = 0 then d
    else
      let d := d.bumpBy 0x5800 0x0A 0x0B (switchesOf all).length
      if d.regState = 3 then d.latchSwitches all (if hard = 0 then 1 else 2)
      else if d.regState = 2 then (d.modPower fun p => { p with tripped := all }).softStartFails
      else d

/-- All switches off after SHUTDOWN: LATCHED with the cause, and the core-rail domain in reset (R650, R652). -/
def Device.shutDown (d : Device) : Device :=
  let d := (d.latchSwitches (bothSwitches (phasesOf (d.rd 0x5800 2))) d.power.tripped).setReg 6
  if d.boot.plantHeld then d else d.plantHold

/-- CORE_RAIL_FAULT (R650): undervoltage (4), overvoltage (5) or loss of HRPWM (7). The endgame save runs as at a reset request, FAULT_N
is asserted and the plant safe state takes effect; after an HRPWM loss every switch is off at once. -/
def execCoreRailFault (cause : Nat) (s : State) : Out :=
  s.run fun d =>
    if d.regState ≠ 3 || !(cause = 4 || cause = 5 || cause = 7) then d
    else
      let d := (d.setReg 5).modPower fun p => { p with tripped := cause }
      let d := if d.boot.plantHeld then d else
        let d := d.endgameSave.modMeter fun m => { m with started := false }
        if d.boot.pairsHalted then d else d.toSafeState
      if cause = 7 then d.shutDown else d

/-- SHUTDOWN_EXPIRY (R650, R652): 5 µs have elapsed in SHUTDOWN. -/
def execShutdownExpiry (s : State) : Out := s.run fun d => if d.regState = 5 then d.shutDown else d

/-- The switches work: soft start, RUN or SHUTDOWN. -/
def Device.switching (d : Device) : Bool := d.regState == 2 || d.regState == 3 || d.regState == 5

/-- A supply locks out, once until it recovers. -/
def Device.lockOut (d : Device) (k : Nat) : Device :=
  if !d.switching || bit d.power.locked k then d
  else (d.bump 0x5800 0x0C 0x0D).modPower fun p => { p with locked := setBit p.locked k true }

/-- BOOTSTRAP_LOCKOUT (R648): the bootstrap supply of phase `h` falls below its threshold; its high side is off. -/
def execBootstrapLockout (h : Nat) (s : State) : Out := s.run fun d => if h < 6 then d.lockOut h else d

/-- VDRV_LOCKOUT (R648): VDRV falls below its threshold; every low side is off. -/
def execVdrvLockout (s : State) : Out := s.run fun d => d.lockOut 6

/-- LOCKOUT_RECOVERY (R648): supply `k`, 0 to 5 a bootstrap and 6 VDRV, has risen past its rising threshold. -/
def execLockoutRecovery (k : Nat) (s : State) : Out :=
  s.run fun d => d.modPower fun p => { p with locked := setBit p.locked k false }

/-- BRAKE_START (R645): not during the soft start. -/
def execBrakeStart (s : State) : Out :=
  s.run fun d =>
    if d.regState ≠ 3 || d.power.braking then d
    else (d.bump 0x5800 0x18 0x19).modPower fun p => { p with braking := true }

/-- BRAKE_END (R645). -/
def execBrakeEnd (s : State) : Out := s.run fun d => d.modPower fun p => { p with braking := false }

/-- A shed in progress is aborted and its phase keeps its full share (R644). -/
def Device.shedAbort (d : Device) : Device :=
  match d.power.shed with
  | some _ => (d.bump 0x5800 0x16 0x17).modPower fun p => { p with shed := none }
  | none => d

/-- LOAD_STEP (R644). -/
def execLoadStep (s : State) : Out := s.run Device.shedAbort

/-- The readings show a load step: VCORE below the setpoint by 0x5800.53, or I_avg above (n - 1) times the add threshold while a shed is in
progress (R644). -/
def Device.loadStep (d : Device) : Bool :=
  decide (d.rdF 0x5800 6 < f32Val (d.regSetting 0x40) - d.rdF 0x5800 0x53 / 1000)
    || (d.power.shed.isSome
        && decide ((d.power.iavg : Rat) / 1000 > ((d.activePhases.length - 1 : Nat) : Rat) * d.rdF 0x5800 0x48))

/-- I_avg lies below (n - 1) times the shed threshold (R642). -/
def Device.shedLow (d : Device) : Bool :=
  decide ((d.power.iavg : Rat) / 1000 < ((d.activePhases.length - 1 : Nat) : Rat) * d.rdF 0x5800 0x49)

/-- The burst window (R643): whether the anticipation signal is high `ns` after a T0, in a tick of `len` ns. It rises before the next T0
where the lead exceeds 200 ns. -/
def Device.burst (d : Device) (len ns : Rat) : Bool :=
  match d.power.rise with
  | none => false
  | some rise => (decide ((rise : Rat) ≤ ns) && decide (ns < 3000)) || decide (len + rise ≤ ns)

/-- What the controller adds to the demand of each active phase `ns` after a T0: the anticipation current, shared (R643). -/
def Device.addedDemand (d : Device) (len ns : Rat) : Rat :=
  if d.burst len ns then d.power.added / d.activePhases.length else 0

/-- The tick timer's anticipation signal from this T0 on (R643). -/
def Device.anticipate (d : Device) : Device :=
  d.modPower fun p => { p with rise := some (200 - (d.rd 0x5800 0x4C : Int)), added := d.rdF 0x5800 0x4D }

/-- A phase's period in ns, at the switching frequency of 0x5800.42 in kHz (R638). -/
def Device.phasePeriod (d : Device) : Rat := 1000000 / d.rd 0x5800 0x42

/-- The ns from the last T0 to a boundary of a phase's period: a free value below the period, in 65,536ths of it. -/
def Device.freeBoundary (d : Device) : Rat := d.phasePeriod * (Config.freeWord d.free % 65536 : Nat) / 65536

/-- PHASE_SHED (R642, R643): I_avg has lain below (n - 1) times the shed threshold for the shed delay and no load step is present, so the
highest phase of the active set is to be shed: it begins to give up its share at its first period boundary outside the burst window. Where
its boundaries lie is a free value (assumption log 73). -/
def execPhaseShed (s : State) : Out :=
  s.run fun d =>
    let on := d.activePhases
    if d.regState ≠ 3 || d.power.shed.isSome || on.length ≤ d.rd 0x5800 0x4B || d.loadStep then d
    else if !d.shedLow || d.power.lowPs < 1000000 * d.rd 0x5800 0x4A then d
    else
      match on.getLast? with
      | some h => (d.modPower fun p => { p with shed := some ⟨h, none, d.freeBoundary, d.phasePeriod⟩ }).drawn 1
      | none => d

/-- FORCED_REFRESH (R641, R662): the 32nd period of phase `h` after 31 at full duty; braking prevails. -/
def execForcedRefresh (h : Nat) (s : State) : Out :=
  s.run fun d => if !d.switching || d.power.braking || !bit (d.rd 0x5800 3) h then d else d.bump 0x5800 0x0E 0x0F

/-- COMPARATOR_TEST_PHASE (R651): a write of `v` = h + 1 to 0x5800.1B tests the comparators of phase h, of which those in `failed` fail. The
phase is shed for the test and added again at its boundaries outside the burst window (R643) within the command, which leaves the active
set as it was. -/
def execComparatorTestPhase (v failed : Nat) (s : State) : Out :=
  s.run fun d => d.sdo 0x5800 0x1B 1 v fun d =>
    let n := d.activePhases.length
    let h := v - 1
    if n < d.rd 0x5800 0x4B + 1 || (d.power.iavg : Rat) / 1000 > ((n - 1 : Nat) : Rat) * d.rdF 0x5800 0x48 then
      d.abort 0x5800 0x1B 0x08000022
    else
      let d := d.wr 0x5800 0x1C (setField (d.rd 0x5800 0x1C) (5 * h) 5 failed)
      if failed % 32 = 0 then d else d.latchSwitches (bothSwitches [h]) 6

/-! ### Once per tick -/

/-- The pulse on the ball for a requested pulse and dead time in ps (R640): its length, and whether it was dropped or stretched. -/
def ballPulse (req dead : Nat) : Nat × Bool × Bool :=
  if req < dead + 7500 then (0, true, false)
  else if req < dead + 15000 then (15000, false, true)
  else (req - dead, false, false)

/-- A shed at a boundary of its phase's period, inside the burst window or not (R642, R643): one that waits begins at the first outside it,
and one that has begun counts a period. -/
def shedBoundary (done : Option Nat) (inside : Bool) : Option Nat :=
  match done with
  | none => if inside then none else some 0
  | some n => some (n + 1)

/-- A shed goes on through the tick of `ps` picoseconds that ended: at each boundary of its phase it begins or counts a period, and the
phase stops at the first that ends 16 periods or more and lies outside the burst window (R642, R643). -/
def Device.shedProgress (d : Device) (ps : Nat) : Device :=
  match d.power.shed with
  | none => d
  | some r =>
    let len : Rat := (ps : Rat) / 1000
    let n := ((len - r.next) / r.period).ceil.toNat
    let inside := (List.range n).map fun (j : Nat) => d.burst len (r.next + j * r.period)
    let (done, stops) := inside.foldl (fun (done, stops) b =>
      let k := shedBoundary done b
      (k, stops || (!b && k.any fun m => decide (16 ≤ m)))) (r.done, false)
    if stops then (d.wr 0x5800 3 (setBit (d.rd 0x5800 3) r.phase false)).modPower fun p => { p with shed := none }
    else d.modPower fun p => { p with shed := some ⟨r.phase, done, r.next + n * r.period - len, d.phasePeriod⟩ }

/-- A phase is added when I_avg exceeds n times the add threshold and a usable phase is left (R642). -/
def Device.phaseAdd (d : Device) : Device :=
  let on := d.activePhases
  if d.regState ≠ 3 || d.power.shed.isSome || (d.power.iavg : Rat) / 1000 ≤ (on.length : Rat) * d.rdF 0x5800 0x48 then d
  else
    match d.usablePhases.find? (fun h => !on.contains h) with
    | some h => d.wr 0x5800 3 (setBit (d.rd 0x5800 3) h true)
    | none => d

/-- The store's energy above V_e, in mJ (R386). -/
def Device.storeEnergy (d : Device) : Rat :=
  let vs := d.rdF 0x5900 2
  let ve : Rat := 5 / 2 + 4 / 5 * d.rdF 0x5900 4
  if d.power.measured then ratMax 0 (1000 * (d.rdF 0x5900 3 / 2 * (vs * vs - ve * ve))) else 0

/-- Show the energy available and whether a save would begin: at least 2 E_2slot (R386). -/
def Device.showEnergy (d : Device) : Device :=
  let e := d.storeEnergy
  (d.wrF 0x6000 0x0D e).wrB 0x6000 0x0C (decide (e ≥ 2 * d.rdF 0x6000 0x0E))

/-- A charge that reaches 5.00 V less 1 % holds it (R659). -/
def Device.storeFloats (d : Device) : Device :=
  if d.rd 0x5900 1 = 0 && !d.power.measuring && d.power.charger && decide (d.rdF 0x5900 2 ≥ 495 / 100) then d.wr 0x5900 1 2 else d

/-- The controller's readings of the tick of `ps` picoseconds that ended, and what they decide. -/
def Device.powerTick (d : Device) (ps : Nat) (i : T0In) : Device :=
  if !d.power.retention || !d.power.supply then d
  else
    let d := (d.wr 0x5800 6 i.vcore).wr 0x5900 2 i.vstore
    let d := (List.range 6).foldl (fun d h => d.wr 0x5800 (0x20 + h) (i.phases.getD h 0)) d
    let total := (List.range 6).foldl (fun (a : Rat) h => a + d.rdF 0x5800 (0x20 + h)) 0
    let d := (d.wrF 0x5800 7 total).modPower fun p => { p with iavg := i.iavg }
    let d := d.modPower fun p => { p with lowPs := if d.shedLow then p.lowPs + ps else 0 }
    let d := if d.loadStep then d.shedAbort else d
    let on := i.pulses.map fun r => ballPulse r (d.regSetting 0x43)
    let d := d.bumpBy 0x5800 0x10 0x11 (on.filter fun x => x.2.1).length
    let d := d.bumpBy 0x5800 0x12 0x13 (on.filter fun x => x.2.2).length
    ((d.shedProgress ps).phaseAdd.storeFloats.showEnergy).anticipate

/-- A frequency write takes effect (R638, R639): in auto-transfer mode it and the offsets of a shed under way are transferred at their
own boundaries, a split update. -/
def Device.frequencyWritten (d : Device) : Device :=
  if d.rd 0x5800 0x51 = 1 && d.power.shed.isSome then (d.bump 0x5800 0x14 0x15).event 0x5800 0x14 lvWarn [] else d

/-! ### The regulator enable, supply loss and return -/

/-- REG_EN_LOW (R654, R655): P_REG_EN low beyond its filter turns the regulator off, clears the latches and requests a plant reset. -/
def execRegEnLow (s : State) : Out :=
  s.run fun d =>
    if !d.power.retention then d.modPower fun p => { p with enable := false }
    else
      let d := (d.wr 0x5800 4 0).modPower fun p => { p with enable := false, cause := 0, tripped := 0, attempt := 0 }
      let d := d.setReg 0
      if d.boot.plantHeld then d else d.plantReset

/-- SUPPLY_LOSS (R386, R387, R657, R662): the auxiliary supply is lost with the store at `vs`, a binary32 word. A measurement is
abandoned; the endgame save begins if the store holds 2 E_2slot; the core-rail domain is in reset, and the records of R462 and R683
are lost (R11) (assumption log 55, 74). -/
def execSupplyLoss (vs : Nat) (s : State) : Out :=
  s.run fun d =>
    if !d.power.supply then d
    else
      let d := d.wr 0x5900 2 vs
      let enough := decide (d.storeEnergy ≥ 2 * d.rdF 0x6000 0x0E)
      let save := if enough && !d.boot.plantHeld then some (d.saveRecord true) else none
      let d := d.setReg 0
      let d := if d.boot.plantHeld then d else d.plantHold
      let d := (d.modMeter fun m => { m with endgame := save }).modBoot fun b => { b with lockStepRec := none, uncorrRec := none }
      let d := (d.bump 0x5900 0x0B 0x0C).wr 0x5900 1 4
      d.modPower fun p => { p with supply := false, saving := true, returned := false, measuring := false, attempt := 0 }

/-- The retention domain restarts from the auxiliary supply: the regulator in OFF, the store charging and not yet measured. -/
def Device.retentionStart (d : Device) : Device :=
  let d := [0x580002, 0x580006, 0x580007, 0x58001C, 0x590001, 0x590002, 0x590003, 0x590004, 0x590005, 0x590006].foldl
    (fun d k => d.wr (k / 256) (k % 256) (odDefault k)) d
  let d := (List.range 6).foldl (fun d h => d.wr 0x5800 (0x20 + h) 0) d
  let d := d.setReg 0
  d.modPower fun p => { p with
    retention := true, saving := false, returned := false, measured := false, measuring := false, charger := true, locked := 0
    attempt := 0, tripped := 0 }

/-- ENDGAME_SAVE_END (R387, R388, R657): the save ends with `written` slots whole, or had not begun. If supply has not returned the
retention domain disconnects from the store and the plant half is unpowered (assumption log 74). -/
def execEndgameSaveEnd (written : Nat) (s : State) : Out :=
  s.run fun d =>
    if !d.power.saving then d
    else
      let d := match d.meter.endgame with
        | none => d
        | some r =>
          let first := d.olderSlot
          let torn := { r with ok := false }
          if written = 0 then d.writeSlot first torn
          else if written = 1 then (d.writeSlot first r).writeSlot (1 - first) torn
          else (d.writeSlot first r).writeSlot (1 - first) r
      let d := d.modMeter fun m => { m with endgame := none }
      if d.power.returned then d.retentionStart
      else d.modPower fun p => { p with retention := false, saving := false }

/-- SUPPLY_RETURN (R657): the auxiliary supply has stood above 10.5 V for 10 ms; a save in progress completes first. -/
def execSupplyReturn (s : State) : Out :=
  s.run fun d =>
    if d.power.supply then d
    else
      let d := d.modPower fun p => { p with supply := true }
      if d.power.saving then d.modPower fun p => { p with returned := true } else d.retentionStart

/-! ### The holdup store (R659 to R661) -/

/-- The charge step serves at the first charge after the retention domain starts with the store below 4.50 V; else the test load. -/
def Device.chargeStep (d : Device) : Bool := !d.power.measured && decide (d.rdF 0x5900 2 < 9 / 2) && d.power.charger

/-- A measurement begins. -/
def Device.measureStore (d : Device) (byCharge : Bool) : Device :=
  let d := d.modPower fun p => { p with measuring := true }
  if byCharge then d else d.wr 0x5900 1 1

/-- STORE_MEASUREMENT (R660): at start-up, or at each interval of 0x5900.42 hours while the store is in FLOAT (assumption log 74). -/
def execStoreMeasurement (s : State) : Out :=
  s.run fun d =>
    if !d.power.retention || !d.power.supply || d.power.measuring then d
    else if d.power.measured && (d.rd 0x5900 1 ≠ 2 || d.rd 0x5900 5 < 3600 * d.rd 0x5900 0x42) then d
    else d.measureStore d.chargeStep

/-- MEASURE_NOW (R660): a write of `v` = 1 to 0x5900.0E starts a test-load measurement. -/
def execMeasureNow (v : Nat) (s : State) : Out :=
  s.run fun d => d.sdo 0x5900 0x0E 1 v fun d => if d.power.measuring then d else d.measureStore false

/-- Take over the health bits: a new failure is counted with its event and puts the store in FAILED (R661). -/
def Device.storeHealth (d : Device) (bits : Nat) : Device :=
  let old := d.rd 0x5900 6
  let fresh := ((List.range 6).filter fun i => i != 4 && bit bits i && !bit old i).length
  let d := d.wr 0x5900 6 bits
  let d := if bits &&& 0x2F = 0 then d else d.wr 0x5900 1 3
  (List.range fresh).foldl (fun (d : Device) _ => d.bumpEvent 0x5900 9 0x0A lvWarn [(8, bits)]) d

/-- STORE_MEASUREMENT_COMPLETE (R386, R660, R661): capacitance `c` and resistance `esr` as binary32 words. A measurement that passes also
ends an overvoltage stop and a charge timeout. -/
def execStoreMeasurementComplete (c esr : Nat) (s : State) : Out :=
  s.run fun d =>
    if !d.power.measuring || !d.power.retention then d
    else
      let d := (((d.wr 0x5900 3 c).wr 0x5900 4 esr).wr 0x5900 5 0).bump 0x5900 7 8
      let d := d.modPower fun p => { p with measured := true, measuring := false }
      let bad := b2n (decide (f32Val c < d.rdF 0x5900 0x40)) + 2 * b2n (decide (f32Val c > 52 / 10))
        + 4 * b2n (decide (f32Val esr > d.rdF 0x5900 0x41))
      let d := if bad = 0 then (d.wr 0x5900 1 0).modPower fun p => { p with charger := true } else d
      let kept := if bad = 0 then 0 else d.rd 0x5900 6 &&& 0x28
      (d.storeHealth (Nat.lor bad kept)).showEnergy

/-- STORE_CHARGE_TIMEOUT (R661): a charge begun below 4.50 V has not reached 5.00 V in its time. -/
def execStoreChargeTimeout (s : State) : Out :=
  s.run fun d =>
    let charging := d.power.charger && !d.power.measuring && (d.rd 0x5900 1 == 0 || d.rd 0x5900 1 == 3)
    if d.power.retention && d.power.supply && charging then d.storeHealth (setBit (d.rd 0x5900 6) 3 true) else d

/-- STORE_OVERVOLTAGE (R661): above 5.25 V; the charger stops until the next measurement passes. -/
def execStoreOvervoltage (s : State) : Out :=
  s.run fun d =>
    if d.power.retention && d.power.supply then
      (d.storeHealth (setBit (d.rd 0x5900 6) 5 true)).modPower fun p => { p with charger := false }
    else d

end Sys2Proof.Machine
end

