-- ==== Sys2Proof/Machine/Access.lean ====
section
/-! DEFINITION. The station half's services: EtherCAT states, process data images, logins, device commands, emergency messages, the
export of the values in force and writes to entries that have no command of their own (spec/16_object_dictionary.md, R14 to R18). -/
namespace Sys2Proof.Machine

/-- Change the station part. -/
def Device.modStation (d : Device) (f : Station → Station) : Device := { d with station := f d.station }

/-- The station half runs. -/
def Device.stationUp (d : Device) : Bool := !d.boot.stationHeld && !d.boot.stationDown

/-! ### Access levels (R537 to R541) -/

/-- The level returns to Observer: a segmented transfer is aborted and an FoE write cut off leaves its region empty (R541, R591). -/
def Device.toObserver (d : Device) : Device :=
  let d := if d.station.segmented then (d.wr 0x2002 8 0x08000000).modStation fun x => { x with segmented := false, sdoResult := 0x08000000 }
    else d
  let d := if d.boot.writing.isSome then d.modBoot fun b => { b with writing := none } else d
  d.wr 0x2002 1 0

/-- The stored credential of a level opens for a string; Expert without one takes the empty string (R540). -/
def Device.credentialOpens (d : Device) (level : Nat) (bs : List Nat) : Bool :=
  match d.station.creds.getD level none with
  | some c => c.opens bs
  | none => level == 3 && bs.isEmpty

/-- LOGIN (R539, R540): byte 0 names the level, the rest is the credential (assumption log 15). -/
def execLogin (bytes : List Nat) (s : State) : Out :=
  s.run fun d => d.sdo 0x2002 2 bytes.length (leNat bytes) fun d =>
    let level := bytes.headD 0
    let cred := bytes.drop 1
    if level < 1 || level > 3 || !printable cred then d.abort 0x2002 2 0x06090030
    else if cred.length < 8 && !(level = 3 && cred.isEmpty) then d.abort 0x2002 2 0x06070010
    else if d.station.loginLock.locked then d.abort 0x2002 2 0x08000020
    else if d.credentialOpens level cred then (d.wr 0x2002 1 level).modStation fun x => { x with loginLock := ⟨0, false⟩ }
    else
      let n := d.station.loginLock.fails + 1
      let d := (d.bump 0x2002 5 6).stEvent 0x2002 5 lvWarn []
      let d := d.modStation fun x => { x with loginLock := ⟨n, decide (n ≥ 5)⟩ }
      let d := if n ≥ 5 then (d.wr 0x2002 0x0B (lockoutTime n)).stEvent 0x2002 0x0B lvWarn [] else d
      d.abort 0x2002 2 0x08000020

/-- LOGOUT (R541): a write of 0x01 to 0x2002.03. -/
def execLogout (s : State) : Out := s.run fun d => d.sdo 0x2002 3 1 1 Device.toObserver

/-- SET_CREDENTIAL (R540, R556): the credential of the level in byte 0 is written. -/
def execSetCredential (bytes : List Nat) (s : State) : Out :=
  s.run fun d => d.sdo 0x2002 0x0A bytes.length (leNat bytes) fun d =>
    let level := bytes.headD 0
    let cred := bytes.drop 1
    if cred.length < 8 then d.abort 0x2002 0x0A 0x06070010
    else if level < 1 || level > 3 || !printable cred then d.abort 0x2002 0x0A 0x06090030
    else
      let (c, d) := d.newSecret cred
      let d := d.modStation fun x => { x with creds := x.creds.set level (some c) }
      (d.wrBit 0x2002 0x40 level true).stEvent 0x2002 0x0A lvInfo [(8, level)]

/-- ACCESS_IDLE_EXPIRY (R541): no mailbox access for the idle time. -/
def execAccessIdleExpiry (s : State) : Out := s.run fun d => if d.stationUp then d.toObserver else d

/-- ACCESS_LOCKOUT_EXPIRY (R539): the seconds of the lockout have passed and logins are accepted again. -/
def execAccessLockoutExpiry (s : State) : Out :=
  s.run fun d =>
    if d.station.loginLock.locked && d.rd 0x2002 0x0B = 0 then
      d.modStation fun x => { x with loginLock := { x.loginLock with locked := false } }
    else d

/-! ### Device commands (R555, R656) -/

/-- ACKNOWLEDGE (R555). -/
def execAcknowledge (s : State) : Out :=
  s.run fun d => d.sdo 0x2001 1 1 2 fun d => (d.wrBit 0x2030 1 5 false).wr 0x2001 2 0

/-- The condition of RESET PLANT and RESET MODULE; `lost` says that the plant half has been unreachable for 1 s, which counts as FAULT
(assumption log 70). -/
def Device.resetAllowed (d : Device) (lost : Bool) : Bool :=
  if !d.plantReachable then lost
  else d.boot.plState == 12 || (if d.twinProfile then d.unit == 4 || d.unit == 0 || d.unit == 1 else d.allBlocked)

/-- S_REG_EN_DRV conducts, to be released after 20 ms. -/
def Device.conductRegEn (d : Device) (module : Bool) : Device :=
  (d.wr 0x2001 2 0).modStation fun x => { x with regEnDrv := true, regEnHiZ := false, resetAfter := module }

/-- A reset command of `code` under its condition. -/
def Device.resetCommand (d : Device) (code : Nat) (lost module : Bool) : Device :=
  d.sdo 0x2001 1 1 code fun d =>
    if d.resetAllowed lost then d.conductRegEn module else (d.wr 0x2001 2 1).abort 0x2001 1 0x08000022

/-- RESET_PLANT (R555, R656): the station half conducts S_REG_EN_DRV for 20 ms. -/
def execResetPlant (lost : Bool) (s : State) : Out := s.run fun d => d.resetCommand 3 lost false

/-- RESET_MODULE (R555): both halves; the station half is reset when the toggle has ended (assumption log 70). -/
def execResetModule (lost : Bool) (s : State) : Out := s.run fun d => d.resetCommand 5 lost true

/-- The station half's reset with its uptime (R14, R17). -/
def Device.stationReboot (d : Device) : Device :=
  let d := d.stationReset
  { d with life := { d.life with upSecs := 0 } }

/-- RESET_STATION (R555): after its response. -/
def execResetStation (s : State) : Out := s.run fun d => d.sdo 0x2001 1 1 4 fun d => d.stationReboot

/-- REG_EN_TOGGLE_END (R656): S_REG_EN_DRV is released after 20 ms. -/
def execRegEnToggleEnd (s : State) : Out :=
  s.run fun d =>
    if !d.station.regEnDrv then d
    else
      let after := d.station.resetAfter
      let d := d.modStation fun x => { x with regEnDrv := false, regEnHiZ := true, resetAfter := false }
      if after then d.stationReboot else d

/-- S_RESET_N_LOW (R695): S_RESET_N low for 10 µs resets the station half. -/
def execSResetNLow (s : State) : Out :=
  s.run fun d => if d.stationUp then d.stationReboot else d.modBoot fun b => { b with stationHeld := true }

/-- STATION_SUPPLY_LOSS (R14, R17): the station half is unpowered. -/
def execStationSupplyLoss (s : State) : Out :=
  s.run fun d => (if d.stationUp then d.stationReboot else d).modBoot fun b => { b with stationHeld := true, stationDown := true }

/-- A word of the recorder area that cannot be corrected is read as a gap, with ECC set in its slot (R679): word `w` of the values of
tick `t`, or of its snapshot of lane pair `pair`. -/
def Device.recorderEcc (d : Device) (slot t w : Nat) (pair : Option Nat) : Device :=
  let sl := d.recorder.getD slot RecSlot.reset
  let cut := fun (vals : List Nat) => (vals.set (2 * w) noValue).set (2 * w + 1) noValue
  let zero := fun (bs : List Nat) => (List.range 8).foldl (fun bs i => bs.set (8 * w + i) 0) bs
  let sl := { sl with flags := setBit sl.flags 2 true }
  let sl := match pair with
    | none => { sl with ticks := sl.ticks.map fun (x : StreamTick) => if x.tick = t then { x with vals := cut x.vals } else x }
    | some m => { sl with snaps := sl.snaps.map fun (x : Snapshot) =>
        if x.tick = t && x.pair = m then { x with reports := zero x.reports } else x }
  { d with recorder := d.recorder.set slot sl }

/-- DRAM_UNCORRECTABLE_WORD (R679, R683): outside the recorder area it resets the station half; inside it the word reads as a gap. -/
def execDramUncorrectableWord (recorder : Bool) (slot t w : Nat) (pair : Option Nat) (s : State) : Out :=
  s.run fun d =>
    if !d.stationUp then d
    else if recorder then if slot < d.recorder.length then d.recorderEcc slot t w pair else d
    else d.stationReboot

/-- MANUAL_TRIGGER (R676): a write of `v` = 1 to 0xB000.08. -/
def execManualTrigger (v : Nat) (s : State) : Out :=
  s.run fun d => d.sdo 0xB000 8 1 v fun d => if d.boot.plantHeld then d else d.noteTrigger 0

/-! ### EtherCAT (R527 to R531, R562 to R564) -/

/-- Enter an EtherCAT state: 1 INIT, 2 PREOP, 3 BOOT, 4 SAFEOP, 8 OP. -/
def Device.enterAl (d : Device) (st code : Nat) : Device :=
  let d := d.modStation fun x => { x with al := st, alStatus := code }
  let d := if st = 8 then d.modStation fun x => { x with windowCnt := 0, goodEdges := 0 } else d
  let d := if st = 1 || st = 2 || st = 3 then d.modStation fun x => { x with sm2Fresh := false } else d
  if st = 1 then d.toObserver else d

/-- The slave refuses a state and shows why. -/
def Device.refuseAl (d : Device) (code : Nat) : Device := d.modStation fun x => { x with alStatus := code }

/-- DC mode is selected. -/
def Device.dcMode (d : Device) : Bool := d.rd 0x1C32 1 == 2

/-- FSoE is in use and one of its containers is not mapped (R558). -/
def Device.fsoeUnmapped (d : Device) (tx : Bool) : Bool :=
  d.rd 0x7040 1 != 0 && !d.mapped tx (if tx then 0x204101 else 0x204001)

/-- Why SAFEOP is refused, or 0 (R529, R558, R562). -/
def Device.safeopCode (d : Device) (dcEnabled : Bool) (sync0Ns : Nat) : Nat :=
  if !d.pdoOk false || d.fsoeUnmapped false then 0x001D
  else if !d.pdoOk true || d.fsoeUnmapped true then 0x001E
  else if d.dcMode && !dcEnabled then 0x0030
  else if d.dcMode && !(sync0Ns % 50000 = 0 && 50000 ≤ sync0Ns && sync0Ns ≤ 10000000) then 0x0035
  else 0

/-- AL_STATE_REQUEST (R528, R529): the master requests a state, with the distributed-clock registers as they stand. A request for a
state that the state machine does not reach from the present one is refused with 0x0011, one for no state with 0x0012
(assumption log 17). -/
def execAlStateRequest (target : Nat) (dcEnabled : Bool) (sync0Ns : Nat) (s : State) : Out :=
  s.run fun d =>
    let al := d.station.al
    if !d.stationUp then d
    else if !([1, 2, 3, 4, 8].contains target) then d.refuseAl 0x0012
    else if target = 1 || target = al then d.enterAl target 0
    else if target = 2 && al ≠ 3 then d.enterAl 2 0
    else if target = 3 && al = 1 then d.enterAl 3 0
    else if target = 4 && al = 8 then d.enterAl 4 0
    else if target = 4 && al = 2 then
      let code := d.safeopCode dcEnabled sync0Ns
      if code ≠ 0 then d.refuseAl code
      else
        let cyc := if d.dcMode then sync0Ns else 0
        let d := (d.wr 0x1C32 2 cyc).wr 0x1C33 2 cyc
        (d.modStation fun x => { x with dcSync0 := dcEnabled, sync0Ns := sync0Ns }).enterAl 4 0
    else if target = 8 && al = 4 then d.enterAl 8 0
    else d.refuseAl 0x0011

/-- SM2_WATCHDOG_EXPIRY (R530). -/
def execSm2WatchdogExpiry (s : State) : Out :=
  s.run fun d => if d.stationUp && d.station.al = 8 then d.enterAl 4 0x001B else d

/-- ECAT_PORT_LINK (R527): S_ECAT1 has a link, so the loop is open at this slave, or has none and it is closed (assumption log 81). -/
def execEcatPortLink (up : Bool) (s : State) : Out := s.run fun d => if d.stationUp then d.modStation fun x => { x with port1 := up } else d

/-- Bits of a PDO, the first entry lowest: `pick` gives the value of a mapped entry. -/
def packPdo (pick : Nat → Nat) : List Nat → Nat → Nat
  | [], _ => 0
  | m :: r, at_ =>
    let v := if m / 2 ^ 16 = 0 then 0 else pick (mapKey m) % 2 ^ mapBits m
    v * 2 ^ at_ + packPdo pick r (at_ + mapBits m)

/-- Bytes of the mapped entries of a direction. -/
def Device.pdoBytes (d : Device) (tx : Bool) : Nat := (((d.pdoEntries tx).map mapBits).foldl (· + ·) 0 + 7) / 8

/-- The TxPDO bytes with the entries of one half, the others 0 (assumption log 18). -/
def Device.txBytes (d : Device) (station : Bool) : List Nat :=
  let pick := fun (key : Nat) => if stationServed (key / 256) == station then odShown d.od key else 0
  leBytes (d.pdoBytes true) (packPdo pick (d.pdoEntries true) 0)

/-- The error register 0x1001 (R571). -/
def Device.errorRegister (d : Device) : Nat :=
  let fault := d.rd 0x2000 1 == 12 || d.poleState 0 == 6 || d.poleState 1 == 6
  let comm := d.rd 0x5500 2 != 0 || (d.twinProfile && d.rd 0x8001 0x10 == 0) || d.sub 0 2 || d.sub 1 2
  b2n fault + 16 * b2n comm + 128 * b2n d.safeBlock

/-- The status word 0x2030.01, whose bits 0, 2 and 4 follow the device, and the error register (R557, R571). -/
def Device.showPdStatus (d : Device) : Device :=
  let w := setBit (d.rd 0x2030 1) 0 (!d.plantReachable)
  let w := setBit w 2 (d.twinProfile && !d.isActive)
  (d.wr 0x2030 1 (setBit w 4 (d.sub 0 2 || d.sub 1 2))).wr 0x1001 0 d.errorRegister

/-- The newest image received complete goes into SM3 with the station-side entries (R564) (assumption log 18). -/
def Device.placeSm3 (d : Device) : Device :=
  let d := d.showPdStatus
  match d.station.image with
  | none => d.modStation fun x => { x with sm3 := d.txBytes true }
  | some im =>
    let d := d.wr 0x2030 2 im.tick
    let own := d.txBytes true
    d.modStation fun x => { x with sm3 := leBytes own.length (Nat.lor (leNat im.bytes) (leNat own)) }

/-- The plant half's TxPDO image of a T0, on channel 3 (assumption log 83). -/
def Device.sendImage (d : Device) : Device :=
  (d.send 3 2 0x81 3 (leBytes 8 d.tick ++ d.txBytes false)).dev

/-- A SYNC0 edge in OP is judged for its instant (R530). -/
def Device.judgeEdge (d : Device) (deviationNs : Int) : Device :=
  if deviationNs.natAbs > 2000 then
    let d := (d.bump 0x1C32 0x20 0x21).bump 0x1C33 0x20 0x21
    let d := d.stEvent 0x1C32 0x20 lvWarn []
    let d := d.modStation fun x => { x with windowCnt := x.windowCnt + 1, goodEdges := 0 }
    if d.station.windowCnt ≥ d.rd 0x10F1 2 then d.enterAl 4 0x002C else d
  else
    d.modStation fun x =>
      if x.goodEdges + 1 ≥ 1000 then { x with goodEdges := 0, windowCnt := 0 } else { x with goodEdges := x.goodEdges + 1 }

/-- The newest complete SM2 buffer is sent to the plant half as a setpoint frame, if it is new (R562) (assumption log 18). -/
def Device.sendSm2 (d : Device) : Device :=
  if d.station.sm2Fresh then
    let d := d.modStation fun x => { x with sm2Fresh := false }
    (d.send 2 2 0x01 0 d.station.sm2).dev
  else
    let d := (d.bump 0x2030 3 4).stEvent 0x2030 3 lvWarn []
    (d.bump 0x1C32 0x0B 0x22).bump 0x1C33 0x0B 0x22

/-- SYNC0_EDGE (R530, R562, R564): an edge `deviationNs` from its expected instant, in SAFEOP or OP with DC mode selected. -/
def execSync0Edge (deviationNs : Int) (s : State) : Out :=
  s.run fun d =>
    if !d.stationUp || !d.dcMode || !(d.station.al = 4 || d.station.al = 8) then d
    else
      let d := if d.station.al = 8 then d.judgeEdge deviationNs else d
      let d := if d.station.al = 8 then d.sendSm2 else d
      let d := d.modStation fun x => { x with imageAge := x.imageAge + 1 }
      (d.wrBit 0x2030 1 1 (decide (d.station.imageAge > 2))).placeSm3

/-- SM2_BUFFER_COMPLETE (R562): the master has written the RxPDO bytes; in free run in OP they are sent at once. -/
def execSm2BufferComplete (bytes : List Nat) (s : State) : Out :=
  s.run fun d =>
    if !d.stationUp || !(d.station.al = 4 || d.station.al = 8) || bytes.length ≠ d.pdoBytes false then d
    else
      let d := d.modStation fun x => { x with sm2 := bytes, sm2Fresh := true }
      if d.station.al = 8 && d.rd 0x1C32 1 = 0 then d.sendSm2 else d

/-- SM3_BUFFER_READ (R564): in free run each read places the newest image. -/
def execSm3BufferRead (s : State) : Out :=
  s.run fun d =>
    if !d.stationUp || !(d.station.al = 4 || d.station.al = 8) || d.rd 0x1C33 1 ≠ 0 then d else d.placeSm3

/-! ### Emergency messages (R570, R571) -/

/-- EMCY_SEND (R570): the oldest queued event leaves as the emergency message of Table 16.18. -/
def execEmcySend (s : State) : Out :=
  s.run fun d =>
    match d.station.emcy with
    | [] => d
    | m :: rest =>
      if !d.mailbox then d
      else
        let d := d.wr 0x1001 0 d.errorRegister
        let w := m.errcode + m.event * 2 ^ 24 + d.errorRegister * 2 ^ 16 + m.rseq * 2 ^ 56
        d.modStation fun x => { x with emcy := rest, emcyOut := w }

/-! ### The values in force as an image (R545, R585 to R587) -/

/-- A record of a body with its padding. -/
def recBytes (idx sub : Nat) (data : List Nat) : List Nat :=
  leBytes 2 idx ++ [sub, 0] ++ leBytes 4 data.length ++ data ++ List.replicate ((4 - data.length % 4) % 4) 0

/-- The body: every carried entry that differs from its default, the one that the ratings give it where they do, in order of address,
then the task images. -/
def Device.runBody (d : Device) : List Nat :=
  let rated := d.ratingDefaults
  let own := fun (key : Nat) => !poleZeroOnly (key / 256) (key % 256) && !(rated.any fun x => x.1 == key)
  let vals := d.od.filter fun kv => carriedKey kv.1 && own kv.1
  let rated := (rated.filter fun kv => odGet d.od kv.1 != kv.2).map fun kv => (kv.1, odGet d.od kv.1)
  let vals := rated.foldl (fun m kv => cellPut m kv.1 kv.2) vals
  vals.flatMap (fun kv => recBytes (kv.1 / 256) (kv.1 % 256) (leBytes ((odBits kv.1 + 7) / 8) kv.2))
    ++ (List.range 8).flatMap fun t =>
      let im := (d.task t).image
      if im.isEmpty then [] else recBytes (0x9030 + t) 0xFF im

/-- The image, with the configuration version in force. Its signature is a free value: the spec gives this file none (assumption log 69). -/
def Device.runImage (d : Device) : List Nat :=
  let body := d.runBody
  let product := if d.rd 0x1018 2 % 2 = 1 then 2 else 1
  leBytes 4 0x4B434647 ++ [1, 0, product, 0] ++ leBytes 4 (d.rd 0xA000 3) ++ leBytes 4 d.fwVersion ++ leBytes 4 body.length
    ++ leBytes 4 (crc32c body) ++ leBytes 4 (d.rd 0x2000 5) ++ leBytes 164 0 ++ leBytes 64 (Config.freeWord d.free) ++ body

/-- FOE_READ_RUN (R545, R567): tk_run, at Engineer level (assumption log 69). -/
def execFoeReadRun (password : Nat) (s : State) : Out :=
  s.run fun d =>
    if !d.stationUp || d.station.al = 1 then d
    else if !d.foeOk password || d.level < 2 then d.foeError 0x8004
    else
      let d := d.foeFile d.runImage
      { d with free := d.free + 1 }

/-! ### What an accepted write does (R542 to R546) -/

/-- A mode change of a pole that stands refused with result 3: during a reaction of ride-through or of DC fault handling, or an exit
from grid-forming operation that R176 bars (R176, R221). -/
def Device.modeRefused (d : Device) (p sub v : Nat) : Bool :=
  let ride := d.rd (0x5100 + p) 0x0C
  let busy := ride == 1 || ride == 2 || d.rd (0x5104 + p) 0x10 != 0
  let now := d.rd (poleIdx 0x3004 p) sub
  (busy && v != now && (sub == 1 || sub == 3)) || (sub == 3 && v != now && d.islandedNow p)
    || (sub == 3 && v == 0 && now == 1 && d.poleState p == 4 && d.exitBarred p)

/-- A write that would break BIPOLE (R177). -/
def Device.breaksBipole (d : Device) (idx sub v : Nat) : Bool :=
  (idx == 0x3004 && sub == 0x0F && v == 1 && (d.rd 0x3004 1 != 0 || d.rd 0x3804 1 != 0))
    || ((idx == 0x3004 || idx == 0x3804) && sub == 1 && v == 1 && d.rd 0x3004 0x0F == 1)

/-- The recorder follows its enable and overwrite entries (Table 20.4). -/
def Device.recorderWritten (d : Device) (sub : Nat) : Device :=
  if sub = 1 && !d.flag 0xB000 1 then
    { d with recorder := d.recorder.map fun (x : RecSlot) => if x.state = 1 then RecSlot.reset else x }.showSlots
  else d.armRecorder

/-- An accepted write takes its way by its object. -/
def Device.sdoEffect (d : Device) (idx sub v : Nat) : Device :=
  let key := odKey idx sub
  let p := if idx ≥ 0x3800 then 1 else 0
  if isSafetyKey key then d.pendSafety key v
  else if (idx == 0x3004 || idx == 0x3804) && d.modeRefused p sub v then
    (d.wr (poleIdx 0x3001 p) 3 3).abort idx sub 0x08000022
  else if d.breaksBipole idx sub v then d.abort idx sub 0x08000020
  else if heldEntry idx sub && !d.scopeBlocked idx then d.holdLaneWrite (idx - 0x5530) sub v
  else
    let rws : Bool := match odEntry? key with
      | some (e, _) => e.acc == .rws
      | none => false
    let d := if rws = true then d.rwsUsed.logRws idx sub (d.rd idx sub) v else d
    let d := d.accept idx sub v
    if idx = 0xA000 && 0x40 ≤ sub && sub ≤ 0x43 then d.stEvent idx sub lvInfo []
    else if idx = 0xB000 && (sub = 1 || sub = 7) then d.recorderWritten sub else d

end Sys2Proof.Machine
end

