-- ==== Sys2Proof/Machine/Startup.lean ====
section
/-! DEFINITION. Start-up of both halves, the values a configuration brings in force, READY, and the switch of an activation
(spec/17_configuration_and_startup.md R573 to R608).
Choices of the model: assumption log 67. -/
namespace Sys2Proof.Machine

/-! ### States before LINKED -/

/-- STATION_RESET_RELEASE (R574 to R577, R579): the station half leaves reset and samples its straps as `word`, Table 17.2; `open_` says
that a strap is open; `syn` is the code of its synthesiser, 2 or 3. -/
def execStationResetRelease (word : Nat) (open_ : Bool) (syn : Nat) (s : State) : Out :=
  s.run fun d =>
    if d.stationUp then d
    else
      let w := setBit (word % 2 ^ 13) 13 open_
      let d := d.modBoot fun b => { b with
        stationHeld := false, stationDown := false, stationClock := true, stState := 2, stImage := b.selector }
      let d := ({ d with life := { d.life with upSecs := 0 } }.wr 0xA000 0x34 w).wr 0x9000 0x16 (if syn = 2 then 2 else 3)
      let d := if open_ then (d.modStation fun x => { x with faulted := true }).stEvent 0xA000 0x34 lvFault [(16, w)] else d
      let holds := !d.boot.plantHeld && decide (3 ≤ d.boot.plState)
      let d := if holds && d.rd 0xA000 1 ≠ w % 2 ^ 13 then d.stEvent 0xA000 0x34 lvWarn [(16, w)] else d
      d.armRecorder.stationBinding.openChannels.showReach

/-! ### The plant half leaves reset -/

/-- The records kept over the reset are shown, and entered in the ring if they are new (R462, R658, R683). -/
def Device.showRecords (d : Device) : Device :=
  let new := d.boot.recsNew
  let d := match d.boot.lockStepRec with
    | some (pair, kind, t, word) =>
      let d := ((d.wr 0x9010 5 pair).wr 0x9010 6 kind).wr 0x9010 7 t
      if bit new 0 then d.event 0x9010 6 lvFault [(8, pair), (8, kind), (64, t), (32, word)] else d
    | none => d
  let d := match d.boot.uncorrRec with
    | some (addr, t) =>
      let d := (d.wr 0x9000 0x0D addr).wr 0x9000 0x0E t
      if bit new 1 then d.event 0x9000 0x0D lvFault [(32, addr), (64, t)] else d
    | none => d
  let d := match d.boot.regRec with
    | some (cause, bits, utc) =>
      let d := (d.wr 0x5800 5 cause).wr 0x5800 0x1D utc
      if d.power.recNew then d.event 0x5800 5 lvWarn [(8, cause), (16, bits), (32, utc)] else d
    | none => d
  (d.modBoot fun b => { b with recsNew := 0 }).modPower fun p => { p with recNew := false }

/-- PLANT_RESET_RELEASE (R41, R46, R68, R74, R389, R462, R580, R652, R658): with the core rail up the plant half leaves reset, its
synthesiser locks with state `syn` (2 or 3) and quality `quality` (a binary32 word in %), and the metering registers are restored. The
tick timer starts: the release is the T0 of tick 0, with the pulse and the SYNC tracker's row of that T0; nothing else of a T0 runs
there, and the first TICK_T0 begins tick 1 (assumption log 89). -/
def execPlantResetRelease (syn quality : Nat) (s : State) : Out :=
  s.run fun d =>
    if !d.boot.plantHeld || d.regState ≠ 3 || !d.power.retention then d
    else
      let d := d.modBoot fun b => { b with plantHeld := false, plantClock := true, faultN := true, plState := 2, faultSince := false }
      let d := (d.wr 0x5B00 1 (if syn = 2 then 2 else 3)).wr 0x5B00 2 quality
      let w := d.rd 0xA000 0x34
      let code := field w 7 2
      let d := (((d.wr 0x2010 1 0).wr 0x2010 2 code).wr 0x2010 3 code).wr 0x2010 5 (if bit w 12 then 3 else 1)
      let d := d.modTimer fun _ => { TickTimer.reset with running := true }
      let d := (d.syncBoundary.modTimer fun t => { t with syncOutNs := d.syncPulse }).anticipate
      d.showRecords.meterRestore.showSession.showBlockOut.plantBinding.openChannels.showReach.markBoundary

/-! ### The boot load -/

/-- What the straps set (Table 17.1). -/
def Device.takeStraps (d : Device) : Device :=
  let w := d.rd 0xA000 0x34 % 2 ^ 13
  let d := ((d.wr 0xA000 1 w).wr 0x2020 1 (field w 0 1)).wr 0x2020 2 (field w 12 1)
  let d := ((d.wr 0x2010 2 (field w 7 2)).wr 0x2010 3 (field w 7 2)).wr 0x2010 5 (if bit w 12 then 3 else 1)
  d.wr 0x5500 4 (3 - field w 10 2)

/-- The governing firmware image, the one running where no record governs (R600). -/
def Device.bootImage (d : Device) : Nat :=
  match governing d.boot.commits 1 with
  | some g => g.slot
  | none => d.boot.stImage

/-- The configuration slot that governs, 0xFF for the factory baseline (R588, R600). -/
def Device.bootSlot (d : Device) : Nat :=
  if bit (d.rd 0xA000 1) 9 then 0xFF
  else
    match governing d.boot.commits 0 with
    | some g => if g.slot < 8 then g.slot else 0xFF
    | none => 0xFF

/-- The configuration of this boot is named in 0xA000.02 to .04; a slot that governs without being ACTIVE switches in (Table 17.12). -/
def Device.nameConfig (d : Device) (slot : Nat) : Device :=
  if slot = 0xFF then ((d.wr 0xA000 2 0xFF).wr 0xA000 3 0).wr 0xA000 4 (crc32c [])
  else
    let back := match governing d.boot.commits 0 with
      | some g => g.kind == 4
      | none => false
    if d.slotState slot = 3 then
      ((d.wr 0xA000 2 slot).wr 0xA000 3 (d.slotVersion slot)).wr 0xA000 4 (d.slotCrc slot)
    else d.slotsSwitched slot back

/-- The image of a slot passes its header, CRC and signature. -/
def Device.slotSound (d : Device) (slot : Nat) : Bool :=
  if slot = 0xFF then true
  else
    let r := d.headVerdict (d.slotImage slot).image false true
    (d.slotImage slot).flashOk && !(r == 1 || r == 2 || r == 3)

/-- A failed start-up check: FAULT, with an event. -/
def Device.startFault (d : Device) (idx sub : Nat) (data : List (Nat × Nat)) : Device := (d.event idx sub lvFault data).enterFault

/-- The Gambit test (R463, R464): `fail` is the class, pair and step index of the first failing step, `us` its duration
(assumption log 55). -/
def Device.gambit (d : Device) (fail : Option (Nat × Nat × Nat)) (us : Nat) : Device :=
  let d := d.wr 0x9010 4 us
  match fail with
  | none =>
    let d := ((d.wr 0x9010 1 2).wr 0x9010 2 0xFF).wr 0x9010 3 0xFFFF
    d.modBoot fun b => { b with selfTest := setBit (setBit (setBit b.selfTest 0 true) 1 true) 2 true }
  | some (cls, pair, step) =>
    let d := ((d.wr 0x9010 1 1).wr 0x9010 2 (2 ^ cls - 1)).wr 0x9010 3 (cls % 8 * 2 ^ 13 + pair % 4 * 2 ^ 11 + step % 2 ^ 11)
    d.startFault 0x9010 3 [(8, pair), (8, cls), (8, step)]

/-- SELF-TEST is entered: reference buffer and Gambit test (Table 17.3), with the safety configuration loaded for the tests of R487
(Table 17.4). -/
def Device.enterSelfTest (d : Device) (fail : Option (Nat × Nat × Nat)) (us : Nat) : Device :=
  let d := (d.setDevState 3).modBoot fun b => { b with selfEntered := d.tick }
  let d := if d.rd 0x5600 0x40 = 1 && d.rd 0x5600 1 = 0 then d.refWarm else d
  (d.safetyLoad.wr 0x9010 1 1).gambit fail us

/-- BOOT_LOAD_COMPLETE (R577, R579, R580, R600, R606): the plant half holds the strap word, its firmware part, which passes as `fwOk`
says, and the configuration; `fail` and `us` are the outcome of the Gambit test. A station half that runs the other image rewrites its
selector and resets itself. -/
def execBootLoadComplete (fwOk : Bool) (fail : Option (Nat × Nat × Nat)) (us : Nat) (s : State) : Out :=
  s.run fun d =>
    if d.boot.plantHeld || d.boot.plState ≠ 2 || !d.plantReachable || d.station.faulted then d
    else
      let d := d.takeStraps
      let img := d.bootImage
      if img ≠ d.boot.stImage then
        ((d.modBoot fun b => { b with selector := img }).stEvent 0xA000 0x15 lvWarn [(8, img)]).stationReboot
      else
        let d := d.wr 0xA000 0x15 img
        let slot := d.bootSlot
        let d := d.nameConfig slot
        let trial := d.trialOf 0 || d.trialOf 1
        let d := (d.wrB 0xA000 0x33 trial).modBoot fun b => { b with trial := trial, readyDone := false }
        if !fwOk then d.startFault 0xA000 0x15 [(8, img)]
        else if !d.slotSound slot then d.startFault 0xA000 2 [(8, slot)]
        else d.enterSelfTest fail us

/-! ### A configuration in force -/

/-- A present pole leaves ABSENT, an absent one returns to it (Table 5.4); its tracker starts in IDLE (R172). -/
def Device.poleActivate (d : Device) (p : Nat) : Device :=
  let i := poleIdx 0x3000 p
  if d.polePresent p then
    if d.poleState p = 0 then
      ((d.wr i 1 1).wr i 3 d.tick).modPole p fun c => { PoleCtl.reset with lastFrame := c.lastFrame }
    else d
  else if d.poleState p = 0 then d
  else (d.wr i 1 0).wr i 3 d.tick

/-- The settings of a lane whose change retrains it (R319). -/
def laneSetting (l key : Nat) : Bool := key / 256 == 0x5530 + l && ([1, 2, 3, 4, 0x47].contains (key % 256))

/-- The values `vals` and tasks `ts` of a configuration take effect together (R587, R593, R597). -/
def Device.configActivate (d : Device) (vals : List (Nat × Nat)) (ts : List (Nat × List Nat)) : Device :=
  let keys := d.differing vals
  let note := fun (d : Device) => keys.foldl Device.noteParam d
  let d := note (note d |>.withConfig vals)
  let d := d.modBoot fun b => { b with running := vals }
  let d := (List.range 12).foldl Device.deriveArm d
  let d := (List.range 12).foldl Device.armActivate d
  let d := (d.poleActivate 0).poleActivate 1
  let d := (List.range 32).foldl (fun d l => d.laneActivate l (keys.any (laneSetting l))) d
  let d := keys.foldl Device.breakWindow d
  let d := (d.deriveConsumers.tasksActivate ts).lossActivate 0
  let d := (d.lossActivate 1).meterUnsaved
  (d.showLockCrc.showBands).showPulses

/-- The records of a slot, none for the baseline. -/
def Device.slotRecs (d : Device) (slot : Nat) : List CfgRec := if slot = 0xFF then [] else imageRecs (d.slotImage slot).image

/-- The boot validation of the running slot (R581). -/
def Device.bootVerdict (d : Device) (slot : Nat) : Verdict := if slot = 0xFF then ⟨0, 0⟩ else d.slotVerdict slot true true

/-- A configuration in force whose tick period differs from the one in force asks for a change under R42 (R41); one that R42 refuses is an
event (assumption log 52). -/
def Device.wantPeriod (d : Device) : Device :=
  let want := d.rd 0x2010 3
  if want = d.rd 0x2010 2 then d
  else if d.periodFails want = 0 || d.periodFails want = 3 then d.changePeriod want
  else d.event 0x2010 3 lvWarn [(8, d.periodFails want)]

/-- SELF-TEST is left for CONFIGURED: the values in force, the tick period the configuration asks for as a change under R42 (R41)
(assumption log 52). -/
def Device.configure (d : Device) : Device :=
  let slot := d.rd 0xA000 2
  let id := d.rd 0x2020 1
  let rs := d.slotRecs slot
  let d := d.configActivate (recValues id rs) (recTasks id rs)
  let d := d.recorderSetup
  let d := d.safeStart
  (d.setDevState 4).wantPeriod

/-- SELF_TEST_COMPLETE (R37, R88, R389, R579, R581, R603, Table 17.4): `detectors` and `mram` are the outcomes of the checks that no entry
shows. The state waits for the reference buffer for 1 s. -/
def execSelfTestComplete (detectors mram : Bool) (s : State) : Out :=
  s.run fun d =>
    if d.boot.plantHeld || d.boot.plState ≠ 3 then d
    else
      let d := d.modBoot fun b => { b with selfTest := setBit (setBit b.selfTest 3 detectors) 6 mram }
      let slot := d.rd 0xA000 2
      if !detectors then d.startFault 0x5B00 1 []
      else if !mram then d.startFault 0x2000 1 []
      else if d.rd 0x5800 4 ≠ 0 then d.startFault 0x5800 4 [(16, d.rd 0x5800 4)]
      else if d.rd 0x5600 0x40 = 1 && d.rd 0x5600 1 ≠ 2 then
        if d.tick < d.boot.selfEntered + d.ticksOf 1000000 then d else d.startFault 0x5600 1 [(8, d.rd 0x5600 1)]
      else
        let v := d.bootVerdict slot
        if v.reason = 0 then d.configure
        else
          let d := ((d.wr 0xA000 0x30 v.reason).wr 0xA000 0x31 v.addr).wr 0xA000 0x32 slot
          if d.inTrial then d.automaticRollback else d.startFault 0xA000 0x30 [(8, v.reason), (32, v.addr)]

/-! ### LINKED and READY -/

/-- The READY record of a target on trial (R601). -/
def Device.readyRecord (d : Device) (target : Nat) : Device :=
  match governing d.boot.commits target with
  | some g =>
    if recordTrial d.boot.commits g && d.trialOf target then
      d.commit ⟨0, 3, target, g.slot, 0, g.version, g.crc, 0, g.seq, 0⟩
    else d
  | none => d

/-- The device enters LINKED: unit state, READY and its record (R405, R582, R601, Table 13.2). -/
def Device.enterLinked (d : Device) : Device :=
  let d := d.setDevState 5
  let d := if !d.twinProfile then d.setUnit 3 else if d.twin.oos then d else d.setUnit 0
  let d := if d.boot.trial then (d.readyRecord 0).readyRecord 1 else d
  (d.wr 0xA000 0x33 0).modBoot fun b => { b with readyDone := true, trial := false }

/-- Every lane carrying cells is OPERATIONAL or LIMITED and, in the twin profile, the Rolpor link is up. -/
def Device.linksUp (d : Device) : Bool :=
  ((List.range 32).all fun l => d.laneCells l == 0 || d.laneState l == 7 || d.laneState l == 8)
    && (!d.twinProfile || decide (2 ≤ d.rd 0x8002 1))

/-- ENTER_LINKED (R579). -/
def execEnterLinked (s : State) : Out :=
  s.run fun d => if !d.ticking || d.boot.plState ≠ 4 || !d.linksUp then d else d.enterLinked

/-- LINK_WAIT_EXPIRY (R579): the link wait 0xA000.14 has elapsed since entry to CONFIGURED. -/
def execLinkWaitExpiry (s : State) : Out :=
  s.run fun d =>
    if !d.ticking || d.boot.plState ≠ 4 || d.tick < d.rd 0x2000 2 + d.ticksOf (1000000 * d.rd 0xA000 0x14) then d else d.enterLinked

/-- READY_TIMEOUT (R603): the ready timeout has passed since the plant reset without READY. -/
def execReadyTimeout (s : State) : Out :=
  s.run fun d =>
    if d.boot.plantHeld || !d.inTrial || d.tick < d.ticksOf (1000000 * d.rd 0xA000 0x13) then d else d.automaticRollback

/-! ### The switch of an activation (R597) -/

/-- The unit may switch: its own COMMIT stands and, where the peer rows apply, the peer's has been reported. -/
def Device.switchReady (d : Device) : Bool :=
  let act := d.boot.act
  act.pending && !act.abandon && act.myCommit.isSome && (!act.peer || act.peerDone) && d.tick ≥ d.rd 0xA000 0x0C

/-- The slot states after the switch; a firmware activation changes none. -/
def Device.switchSlots (d : Device) : Device :=
  let act := d.boot.act
  if act.fwTarget then d else d.slotsSwitched act.slot act.rollback

/-- ACTIVATION_SWITCH (R597, R637): at the T0 of tick a. LIVE values take effect with a READY record; RESTART resets the plant half,
FIRMWARE both halves. -/
def execActivationSwitch (s : State) : Out :=
  s.run fun d =>
    if !d.ticking || !d.switchReady then d
    else
      let act := d.boot.act
      let kind := d.rd 0xA000 0x0D
      let d := ((d.switchSlots).wr 0xA000 0x0B 5).modAct fun _ => Activation.reset
      if kind = 0 then
        let ts := recTasks (d.rd 0x2020 1) (d.slotRecs act.slot)
        let d := (d.configActivate act.shadow ts).wantPeriod
        d.commit ⟨0, 3, 0, act.slot, 0, d.slotVersion act.slot, d.slotCrc act.slot, 0, act.myCommit.getD 0, 0⟩
      else
        let c := if act.fwTarget then d else d.withConfig act.shadow
        let d := { d with power := c.writeRegRecord.power }
        if kind = 1 then d.plantReset else d.plantReset.stationReboot

/-- The device state of Table 17.5 at a tick boundary (R583). -/
def Device.deviceState (d : Device) : Device :=
  if d.boot.plState < 5 then d
  else
    let any := fun (st : Nat) => d.poleState 0 == st || d.poleState 1 == st
    d.setDevState
      (if d.boot.faultSince then 12
       else if d.safeBlock then 11
       else if d.twinProfile && d.unit ≠ 3 then 9
       else if any 4 || any 5 then 8
       else if any 3 then 7
       else if any 2 then 6
       else if any 6 then 10
       else 5)

end Sys2Proof.Machine
end

