-- ==== Sys2Proof/Machine/TwinSync.lean ====
section
/-! DEFINITION. What the twin link carries into the tick (spec/13_twin_and_lease.md): TICK records, forwarded writes and decisions as
they take effect, the state hash (R431) and the replay of a resynchronisation (R443, Table 13.11).
Choices of the model: assumption log 63. -/
namespace Sys2Proof.Machine

/-! ### The state hash (R431) -/

/-- A rational as two integers. -/
def ratInts (x : Rat) : List Int := [x.num, (x.den : Int)]

/-- The selection and firing state of a cell. -/
def cellInts (c : Cell) : List Int :=
  let f : Int × Int := match c.fire with
    | some (t, o) => ((t : Int), (o : Int))
    | none => (-1, -1)
  [c.pol, (c.pin : Int), (c.byp : Int), (c.ov : Int), (c.uv : Int), (c.lift : Int), (c.lastChg : Int), (c.cmd : Int), f.1, f.2]

/-- The engine and selection state of an arm. -/
def armInts (x : Arm) : List Int :=
  [x.xi, x.xw, x.s, x.amp, (x.phi : Int), x.debt, (x.map : Int)] ++ ratInts x.ubar ++ x.cells.flatMap cellInts

/-- A reference block. -/
def blockInts (b : RefBlock) : List Int :=
  [(b.thetaB : Int), (b.nB : Int), (b.dTheta : Int), (b2n b.angleOk : Int), (b2n b.permit : Int), b.idp, b.iqp, b.idn, b.iqn, b.vdp,
    b.vqp, b.vdn, b.vqn, b.vdcs, b.r, b.dA2, (b.dPhi2 : Int)] ++ b.iz0 ++ b.dw ++ ratInts b.band

/-- The outer-control state of a pole as committed. -/
def outerInts (c : PoleCtl) : List Int :=
  let f := c.fast
  let s := c.slow
  let t := f.trk
  let rs : List Rat := [t.integ, t.theta, t.freq, t.rocof, t.vpd, t.vpq, t.vnd, t.vnq, t.ipd, t.ipq, t.ind, t.inq] ++ t.inner
    ++ [f.vsm.omega, f.vsm.theta, f.vsm.ed, f.vsm.eq, f.vsm.dd, f.vsm.dq, f.vsm.pm, f.vsm.iso, f.ride.pcHeld, f.ride.iqHeld, f.ride.ramp, f.ride.upre,
      f.idp, f.iqp, f.idn, f.iqn, f.xE, f.vt, f.xR, s.pRamp, s.qRamp, s.uRamp, s.vRamp, s.xP, s.xV, s.xQ, s.xU, s.xN, s.pc, s.qc,
      s.iz0, s.vdcs, s.idp, s.iqp] ++ s.xs
  [(t.state : Int), (f.ride.state : Int), (f.thetaB : Int), (f.nB : Int), (f.dTheta : Int), (s.dcMode : Int), (s.acMode : Int)]
    ++ rs.flatMap ratInts

/-- The contents of an arm's compensation tables in LEARNING, with their numbers (R135). -/
def Device.learnedInts (d : Device) (a : Nat) : List Int :=
  ((List.range 8).filter fun t => d.rd (armIdx 0x4020 a + t) 1 == 2).flatMap fun t =>
    [Int.ofNat t, Int.ofNat (d.rd (armIdx 0x4020 a + t) 0x0B)]

/-- The state that the hash covers (assumption log 61). -/
def Device.hashState (d : Device) : List Int :=
  [(d.poleState 0 : Int), (d.poleState 1 : Int)] ++ (List.range 12).map (fun a => (d.armState a : Int))
    ++ d.arms.flatMap armInts ++ (List.range 12).flatMap d.learnedInts ++ d.refs.flatMap blockInts ++ d.poles.flatMap outerInts

/-- At the T0 that ends a tick its hash is kept for the comparison of the next tick. -/
def Device.keepHash (d : Device) : Device :=
  if d.twinProfile then d.modTwin fun t => { t with prevHash := Config.stateHash d.hashState } else d

/-! ### TICK and REFBLK records of the active unit -/

/-- TICK_RECORD_SEND (R424, R425): at T0 + 0.04 µs, with every result register, the latch map and the digest. -/
def execTickRecordSend (s : State) : Out :=
  s.run fun d =>
    if !d.ticking then d
    else d.sendTickRecord ((List.range 32).map fun ch => d.rd (chIdx ch) 9) d.latchMap d.latchDigest

/-- While the peer shows RESYNC the active unit sends the reference blocks in force in every tick (R443, step 2) (assumption log 62). -/
def Device.sendBlocks (d : Device) : Device :=
  if d.twinProfile && d.isActive && !d.boot.safeState && d.peerShows 1 0 then
    d.modTwin fun t => { t with
      txSeq := (t.txSeq + 1) % 2 ^ 32, lastTx := [7, d.tick] ++ d.refs.flatMap fun b => (blockInts b).map fun x => ofInt 64 x }
  else d

/-! ### Forwarded writes and decisions -/

/-- A LIVE write acts at its T0: a retrain starts, a lane setting written with every arm of the lane blocked retrains it, a frequency write
may be a split update, metering windows close early where the entry is a parameter of theirs and the CRC of Table 12.4 follows it, a force
request is due once its last entry has taken its value, every other entry takes its value (R64, R279, R319, R396, R398, R638). -/
def Device.liveWrite (d : Device) (key v : Nat) : Device :=
  let idx := key / 256
  if 0x5530 ≤ idx && idx ≤ 0x554F && key % 256 = 0x1A then d.laneRetrain (idx - 0x5530) 9
  else if heldEntry idx (key % 256) then
    let l := idx - 0x5530
    if d.laneLive l then d.holdLaneWrite l (key % 256) v else (d.putLive key v).laneRetrain l 10
  else if (idx = 0x5104 || idx = 0x5105) && key % 256 = 0x11 then d.restartAsked (idx - 0x5104)
  else if (idx = 0x5108 || idx = 0x5109) && key % 256 = 0x12 then d.abortCharge (idx - 0x5108)
  else
    let d := ((d.noteParam key).putLive key v).noteParam key
    let d := if d.underLock idx (key % 256) then d.showLockCrc else d
    if 0x4000 ≤ idx && idx < 0x4C00 && idx % 0x100 = 3 && key % 256 = 5 then d.forceWritten ((idx - 0x4000) / 0x100)
    else if key = 0x580042 then d.frequencyWritten
    else if key = 0x5A0040 then d.lanesChanged
    else if 0x4000 ≤ idx && idx < 0x4C00 && idx % 0x100 = 0 && (key % 256 = 2 || key % 256 = 3) then
      let a := (idx - 0x4000) / 0x100
      (d.armResize a).poleActivate (poleOf a)
    else d

/-- A forwarded decision takes effect. -/
def Device.takeDecision (due : Nat) (d : Device) (x : Decision) : Device :=
  match x with
  | .command p code arg => d.poleEffect p code arg
  | .blockAll => d.blockAll
  | .deblock p t => d.setDeblock p t
  | .outcome p k => if p < 2 && (d.pole p).deblockAt.isSome then d.deblockOutcome p k else d
  | .setpoint vals => d.takeFrame due vals
  | .period code t => d.setPeriod code t
  | .island p => d.islandAct p
  | .loss _ _ => d

/-- The values of a forwarded loss-tracker decision, applied after the commit of the slow run (R363). -/
def Device.takeLoss (d : Device) (x : Decision) : Device :=
  match x with
  | .loss p vals => if p < 2 then d.lossTake p vals else d
  | _ => d

/-- DECISION_RECORD (R189, R429, R430): its content takes effect at the T0 of tick `eff`; the outcome of a deblock judged at the T0 of
the present tick acts at once. -/
def execDecisionRecord (rseq eff : Nat) (x : Decision) (single : Bool) (s : State) : Out :=
  s.run fun d =>
    if !d.twinProfile || d.isActive then d
    else
      let d := d.recordSeq rseq single
      let follows := d.unit = 2 || (d.unit = 1 && d.twin.loaded)
      match x with
      | .outcome _ _ =>
        if follows && eff = d.tick then Device.takeDecision eff d x
        else if d.unit = 2 then d.loseSync
        else if d.unit = 1 then d.modTwin fun t => { t with decisions := t.decisions ++ [(eff, x)] }
        else d
      | _ =>
        if d.unit = 2 && eff ≤ d.tick then d.loseSync
        else if d.unit = 2 || d.unit = 1 then d.modTwin fun t => { t with decisions := t.decisions ++ [(eff, x)] }
        else d

/-- The unit computes its poles at a tick boundary: alone, ACTIVE, in STANDBY-SYNC, or in RESYNC with the state loaded (R408, R443). -/
def Device.follows (d : Device) : Bool := d.enginesRun || (d.unit == 1 && d.twin.loaded)

/-- Forwarded writes whose T0 has come, as addresses and values. -/
def Device.dueWrites (d : Device) : Device × List (Nat × Nat) :=
  let due := fun (w : Nat × Nat × Nat) => decide (w.1 ≤ d.tick)
  let now := (d.twin.writes ++ d.twin.bufWrites).filter due
  (d.modTwin fun t => { t with
    writes := t.writes.filter fun w => !due w, bufWrites := t.bufWrites.filter fun w => !due w }, now.map (·.2))

/-- Forwarded decisions whose T0 has come; those of the loss tracker are answered for later. -/
def Device.dueDecisions (d : Device) : Device × List Decision :=
  let due := fun (w : Nat × Decision) => decide (w.1 ≤ d.tick)
  let now := d.twin.decisions.filter due
  let d := d.modTwin fun t => { t with decisions := t.decisions.filter fun w => !due w }
  (now.foldl (fun d w => Device.takeDecision w.1 d w.2) d, now.map (·.2))

/-! ### Resynchronisation (R443) -/

/-- STATE_RECORD (R443, step 2): a piece of the active unit's state is buffered (assumption log 62). -/
def execStateRecord (rseq : Nat) (part : StatePart) (single : Bool) (s : State) : Out :=
  s.run fun d =>
    let d := if d.twinProfile && !d.isActive then d.recordSeq rseq single else d
    if d.twinProfile && d.unit = 1 then d.modTwin fun t => { t with bufState := t.bufState ++ [part] } else d

/-- Entries that a STATE record may carry: those of the poles and arms. -/
def statePartKey (key : Nat) : Bool := decide (0x300000 ≤ key) && decide (key < 0x550000)

/-- Load one piece. -/
def Device.loadPart (d : Device) (x : StatePart) : Device :=
  match x with
  | .arm a x => if a < 12 then d.modArm a fun y => { x with newByp := y.newByp, newFault := y.newFault } else d
  | .entry key v => if statePartKey key then { d with od := odPut d.od key v } else d
  | .block p b => { d with refs := d.refs.set p b }

/-- The engines of the tick in a unit that replays it: aligned to the TICK record, with the reference blocks of the active unit until
the unit's own are in force. No frame leaves. -/
def Device.replayEngines (d : Device) : Device :=
  let d := d.alignLatch.automaticBypass.cellImages
  let d := if d.twin.ownBlocks then d
    else match d.twin.bufBlocks.find? (fun b => b.1 == d.tick) with
      | some b => { d with refs := b.2 }
      | none => d
  let d := d.takeAll 1
  let d := d.presentArms.foldl (fun d a =>
    if d.rd (armIdx 0x4010 a) 1 ≥ 32 || resultValid (d.result (d.rd (armIdx 0x4010 a) 1)) then d else d.modArm a fun x => { x with slip := 1 }) d
  d.controlEngine.rankEngine.commitTick.fire

/-- The tick that ends is computed in a unit in RESYNC that has loaded the state; a missing TICK record ends the attempt (R444). -/
def Device.resyncTick (d : Device) : Device :=
  if d.twinProfile && d.unit = 1 && d.twin.loaded then
    match d.forwarded? with
    | none => d.resyncFail
    | some _ => d.replayEngines.modTwin fun t => { t with
        buffered := t.buffered.filter fun r => decide (r.tick > d.tick), bufBlocks := t.bufBlocks.filter fun b => decide (b.1 > d.tick) }
  else d

/-- The lanes as the unit's own latch had them in a tick. -/
def Device.lanesOf (d : Device) (xs : List LaneReports) : Device :=
  { d with lanes := (numbered 0 d.lanes).map fun (x : Nat × Lane) =>
      match xs[x.1]? with
      | some r => { x.2 with took := r.took, stale := !r.took, old := r.old, reports := r.reports }
      | none => x.2 }

/-- The unit's own latch of a tick joins the buffer while the state has not been loaded (step 3). -/
def Device.bufferReports (d : Device) : Device :=
  if d.twinProfile && d.unit = 1 && !d.twin.loaded then
    d.modTwin fun t => { t with
      bufReports := t.bufReports ++ [(d.tick, d.lanes.map fun (x : Lane) => (⟨x.took, x.old, x.reports⟩ : LaneReports))] }
  else d

/-- The boundary of tick `n` in the replay. -/
def Device.replayHead (d : Device) (n : Nat) : Device :=
  let (d, ws) := (d.wr 0x2010 1 n).dueWrites
  let d := ws.foldl (fun d w => d.liveWrite w.1 w.2) d
  let (d, _) := d.dueDecisions
  ((d.forceEffect).armsBegin.poleBoundary 0).poleBoundary 1

/-- Replay tick `n`, which has ended (step 4). -/
def Device.replayTick (d : Device) (n : Nat) : Device :=
  let d := d.replayHead n
  let d := match d.twin.bufReports.find? (fun r => r.1 == n) with
    | some r => d.lanesOf r.2
    | none => d
  (d.modTwin fun t => { t with tickRec := t.buffered.find? (fun r => r.tick == n) }).resyncTick

/-- Replay `k` ticks from `n` on. -/
def replayFrom : Nat → Nat → Device → Device
  | 0, _, d => d
  | k + 1, n, d => replayFrom k (n + 1) (d.replayTick n)

/-- RESYNC_STATE_LOADED (R443, step 4): the whole state has been received: it is loaded, and the ticks from s + 1 to the one before
the present tick are replayed; the present one is computed with its end. -/
def execResyncStateLoaded (s : State) : Out :=
  s.run fun d =>
    if !d.twinProfile || d.unit ≠ 1 || d.twin.loaded || d.twin.leaveSync then d
    else
      let now := d.tick
      let here := d.lanes.map fun (x : Lane) => (⟨x.took, x.old, x.reports⟩ : LaneReports)
      let d := d.twin.bufState.foldl Device.loadPart d
      let d : Device := { d with poles := d.poles.map fun (c : PoleCtl) => { c with trips := [], goto := none } }
      let d := d.modTwin fun t => { t with loaded := true, bufState := [] }
      let d := replayFrom (now - d.twin.snapTick - 1) (d.twin.snapTick + 1) d
      let d := (d.replayHead now).lanesOf here
      d.modTwin fun t => { t with bufReports := [], tickRec := t.buffered.find? (fun r => r.tick == now) }

/-- The samples that the unit's own tick tier took since the T0 of tick `v`, oldest first. -/
def Device.samplesSince (d : Device) (p v : Nat) : List (List Rat) :=
  let xs := (d.pole p).samples
  xs.drop (xs.length - (d.tick - v))

/-- OUTER_RECORD (R443, steps 5 and 6): the outer-control state and tick-tier sums at the T0 of tick `v`. The fast and slow runs of tick
`v` start on receipt and commit when those of the active unit do; `finish` says whether they end by then (assumption log 62). -/
def execOuterRecord (rseq v : Nat) (poles : List PoleCtl) (finish single : Bool) (s : State) : Out :=
  s.run fun d =>
    if !d.twinProfile || d.isActive then d
    else
      let d := d.recordSeq rseq single
      if d.unit ≠ 1 || !d.twin.loaded || d.twin.gotOuter || d.twin.leaveSync || d.tick < v then d
      else
        let now := d.tick
        let own := [d.samplesSince 0 v, d.samplesSince 1 v]
        let d : Device := { d with poles := [poles.getD 0 PoleCtl.reset, poles.getD 1 PoleCtl.reset] }
        let d := (d.modTwin fun t => { t with gotOuter := true }).wr 0x2010 1 v
        let d := (((d.startFast 0 finish).startFast 1 finish).startSlow finish).wr 0x2010 1 now
        [0, 1].foldl (fun d p => d.modPole p fun c => (own.getD p []).foldl PoleCtl.addSample c) d

/-- From the commit tick of its first slow run a unit in RESYNC uses its own reference blocks (step 6). -/
def Device.ownBlocks (d : Device) : Device :=
  let commits := [0, 1].any fun p =>
    match (d.pole p).slowPend with
    | some x => x.finish && x.commit == d.tick
    | none => false
  if d.twinProfile && d.unit = 1 && d.twin.gotOuter && commits then d.modTwin fun t => { t with ownBlocks := true } else d

end Sys2Proof.Machine
end

