-- ==== Sys2Proof/Machine/Tick.lean ====
section
/-! DEFINITION. The T0 of a tick (spec/02_control_tick.md R46 to R50, R62 to R64): the tick that ended is closed, the tick number
advances, and everything that acts atomically at T0 acts in a fixed order. -/
namespace Sys2Proof.Machine

/-! ### The tick that ends -/

/-- What closes a tick: the replay of RESYNC, the conversions metered, the hash, the stream values, the events (R443, R366, R431, R674,
R669). -/
def Device.closeTick (d : Device) : Device × Option (List Nat) :=
  let (d, out) := d.resyncTick.meterGather.keepHash.sampleStream
  (d.flushEvents, out)

/-- The tick number of the tick that begins: one more, or that taken up from the active unit, which is an event (R46, R47). -/
def Device.advance (d : Device) : Device :=
  match d.twin.takeUp with
  | some n =>
    let old := d.tick
    ((d.modTwin fun t => { t with takeUp := none }).wr 0x2010 1 n).event 0x2010 1 lvInfo [(64, old), (64, n)]
  | none => d.wr 0x2010 1 (d.tick + 1)

/-- What was particular to the tick that ended is forgotten. -/
def Device.freshTick (d : Device) : Device :=
  let d := ((d.slotCut).armsBegin).modTimer fun t => { t with stage := 0 }
  let d : Device := { d with lanes := d.lanes.map fun (x : Lane) => { x with sent := false } }
  d.modTwin fun t => { t with diverged := false }

/-! ### What takes effect at the T0 -/

/-- A channel that changes its mode has not converted throughout the window that begins (R86) (assumption log 31). -/
def Device.modeWrite (d : Device) (kv : Nat × Nat) : Device :=
  if odGet d.od kv.1 = kv.2 then d else (d.putLive kv.1 kv.2).breakWindow kv.1

/-- The LIVE writes completed before the T0 take effect together, with those that the active unit forwarded (R64, R429); those of
channel modes after the values of the window that ended have landed. `ps` is the length of the tick that ended (assumption log 31). -/
def Device.takeLive (d : Device) (ps : Nat) : Device :=
  let (d, due) := if d.follows then d.dueWrites else (d, [])
  let ws := d.live ++ due
  let was := d
  let d : Device := { d.warmTick ps with live := [] }
  let d := (ws.filter fun w => !modeKey w.1).foldl (fun d w => d.liveWrite w.1 w.2) d
  let d := ((d.land fun ch => was.rd (chIdx ch) 3).windowComparators).meterTick ps
  let d := (d.lossAtWindow 0).lossAtWindow 1
  (ws.filter fun w => modeKey w.1).foldl Device.modeWrite d

/-- What decides which tier fills a pole's block: its state, that of DC fault suppression and that of the energisation sequence. -/
def Device.blockMode (d : Device) (p : Nat) : Nat × Nat × Nat := (d.poleState p, d.dcState p, d.rd (enIdx p) 0x0E)

/-- A decision that takes effect at this T0 acts in the block of this T0 too (R185, R206, R219). `was` is the device before the decisions. -/
def Device.recompose (was : Device) (d : Device) (p : Nat) : Device :=
  if d.blockMode p = was.blockMode p then d else { d with refsNext := d.refsNext.set p (d.composeFor p d.tick) }

/-- Runs commit, forwarded decisions act, and what the loss tracker was told follows (R158, R363, R429). -/
def Device.commitRuns (d : Device) : Device :=
  let was := d
  let (d, xs) := if d.follows then d.dueDecisions else (d, [])
  let d := (d.ownBlocks.commitFast 0).commitFast 1
  let d := xs.foldl Device.takeLoss ((d.commitSlow 0).commitSlow 1)
  [0, 1].foldl (fun d p => (d.recompose was p).transitionOver p) d

/-- The reference blocks swap, or the tick is a reference hold; 200 µs of holds trip (R62, R63, R160) (assumption log 38). -/
def Device.swapRefs (d : Device) : Device :=
  if d.timer.committed then
    { d with refs := d.refsNext }.modTimer fun t => { t with committed := false, holds := 0 }
  else
    let n := d.timer.holds + 1
    let d := (d.bump 0x2010 0x0A 0x0B).modTimer fun t => { t with holds := n }
    let d := if n * d.period ≥ 200 then d.tripAll 2 else d
    if d.twinProfile && d.unit = 2 then d.loseSync else d

/-- Fitness, unit role, protection and pole states at the boundary, in this order (R434, R407, R490, R495, R188, R583). -/
def Device.boundaries (d : Device) (i : T0In) : Device :=
  let d := (d.withdrawIfUnfit.unitBoundary.judgeSafe []).guardT0 i.outside
  let d := if d.follows then (d.poleBoundary 0).poleBoundary 1 else d
  (d.clearLatches.activationBoundary.castleRecheck).deviceState

/-- The report latch, automatic bypass and the cell images; a unit in STANDBY-SYNC or RESYNC bypasses, and rewrites the images, once it has
aligned its latch (R50, R238, R239, R258, R427) (assumption log 28). -/
def Device.latchReports (d : Device) : Device :=
  let d := d.reportLatch
  let d := if d.enginesRun && !(d.twinProfile && d.unit == 2) then d.automaticBypass else d
  d.cellImages.bufferReports

/-- Add one tick to a count that stops at its width. -/
def Device.ageEntry (d : Device) (idx sub : Nat) : Device := d.wr idx sub (min (2 ^ odBits (odKey idx sub) - 1) (d.rd idx sub + 1))

/-- The counts in ticks of the lease and the link, the lease's remaining time and the epoch window (R410, R412, R415, R433, R447). -/
def Device.countTicks (d : Device) : Device :=
  let d := d.modLease fun l => { l with
    noLease := if d.isActive && l.valid then 0 else l.noLease + 1, noTick := l.noTick + 1, noHolder := l.noHolder + 1 }
  let d := d.modTwin fun t => { t with dispQuiet := t.dispQuiet + 1 }
  ((d.ageEntry 0x8011 2).wr 0x8001 4 (d.rd 0x8001 4 - d.period)).wr 0x5501 4 d.epwin

/-- What the plant half sends and shows at a T0 that ends a tick of `ps` picoseconds. -/
def Device.showTick (d : Device) (ps : Nat) (i : T0In) (out : Option (List Nat)) : Device :=
  let d := ((d.zeroEnergyT0.outputsT0 i.differ).showLockout.showBands).showPulses
  let d := (d.wr 0x7040 5 d.fsoeSent).powerTick ps i
  let d := if i.corrected = 0 then d else d.bumpBy 0x9010 8 9 i.corrected
  let d := d.syncBoundary.modTimer fun t => { t with syncOutNs := d.syncPulse }
  (d.sendBlocks.sendImage.showPdStatus).sendStream out

/-- The T0 of a tick (assumption log 39). -/
def Device.tickT0 (d : Device) (i : T0In) : Device :=
  let ps := d.timer.lengthPs
  let (d, out) := d.closeTick
  let d := ((d.advance.freshTick.takeLive ps).forceEffect.safetyEffect).tasksBoundary
  let d := ((d.commitRuns.swapRefs.boundaries i).latchReports).countTicks
  (d.showTick ps i out).markBoundary

/-- TICK_T0 (R46 to R50, R62 to R64, R68): the tick number advances and the pipeline of the tick begins (assumption log 2). -/
def execTickT0 (i : T0In) (s : State) : Out := s.run fun d => if d.ticking then d.tickT0 i else d

end Sys2Proof.Machine
end

