-- ==== Sys2Proof/Machine/Write.lean ====
section
/-! DEFINITION. SDO_WRITE: a write by SDO to any entry (spec/16_object_dictionary.md R542 to R546). A write to an entry that a rule makes a
command performs that command. -/
namespace Sys2Proof.Machine

/-- A part of a force request, which only a whole-object write carries (R276) (assumption log 19). -/
def forcePart (idx sub : Nat) : Bool := 0x4000 ≤ idx && idx < 0x4C00 && idx % 0x100 == 3 && 1 ≤ sub && sub ≤ 5

/-- A free value drawn for an outcome that a plain write does not carry (assumption log 19). -/
def drawn (f : Nat → State → Out) (s : State) : Out :=
  f (Config.freeWord s.dev.free) { s with dev := { s.dev with free := s.dev.free + 1 } }

/-- The device commands (R555). -/
def deviceWrite (v : Nat) : Option (State → Out) :=
  match v with
  | 1 => some execBlockAll
  | 2 => some execAcknowledge
  | 3 => some (drawn fun w => execResetPlant (w % 2 == 1))
  | 4 => some execResetStation
  | 5 => some (drawn fun w => execResetModule (w % 2 == 1))
  | _ => none

/-- The commands of a pole (R188). -/
def poleWrite (p v : Nat) : Option (State → Out) :=
  match v with
  | 1 => some (execEnergise p)
  | 2 => some (execDeblock p)
  | 3 => some (execBlock p)
  | 4 => some (execReset p)
  | 5 => some (execDeEnergise p)
  | 6 => some (execReconnected p)
  | 7 => some (execRunBack p)
  | 8 => some (execRunBackEnd p)
  | _ => none

/-- The commands of the twin (R447). -/
def twinWrite (v : Nat) : Option (State → Out) :=
  match v with
  | 1 => some execCastle
  | 2 => some execResync
  | 3 => some execOutOfService
  | 4 => some execReturn
  | 5 => some execAbandonCastling
  | _ => none

/-- The commands of the configuration store (R592 to R605). -/
def storeWrite (v : Nat) : Option (State → Out) :=
  match v with
  | 1 => some execValidate
  | 2 => some execActivate
  | 3 => some execRollback
  | 4 => some execErase
  | 5 => some execAbandon
  | 6 => some execActivateFirmware
  | _ => none

/-- The commands of an extension task (R476). -/
def taskWrite (t v : Nat) : Option (State → Out) :=
  match v with
  | 1 => some (execSuspend t)
  | 2 => some (execResume t)
  | 3 => some (execRestart t)
  | _ => none

/-- The commands of the metering lock and of METER-FAULT (R391, R396). -/
def meteringWrite (sub v : Nat) : Option (State → Out) :=
  if sub = 0x12 then (if v = 1 then some execLockClose else if v = 2 then some execLockOpen else none)
  else if sub = 0x15 && v = 1 then some execMeterFaultAcknowledge else none

/-- The commands of safety sessions (R515 to R519); `len` bytes of a passphrase are the bytes of `v`. -/
def sessionWrite (sub len v : Nat) : Option (State → Out) :=
  match sub with
  | 1 => some (execSessionOpen (leBytes len v))
  | 2 => if v = 1 then some execSessionClose else none
  | 3 => some (execNewPassphrase (leBytes len v))
  | 7 => if v = 1 then some execSafetyCommit else if v = 2 then some execSafetyDiscard else none
  | _ => none

/-- The commands of access (R539, R541). -/
def accessWrite (sub len v : Nat) : Option (State → Out) :=
  match sub with
  | 2 => some (execLogin (leBytes len v))
  | 3 => if v = 1 then some execLogout else none
  | 0x0A => some (execSetCredential (leBytes len v))
  | _ => none

/-- The commands of lane `l` (R301, R319). -/
def laneWrite (l sub v : Nat) : Option (State → Out) :=
  if sub = 0x1A && v = 1 then some (execLaneRetrain l) else if sub = 0x48 && v = 1 then some (execBitSlip l) else none

/-- The commands of one entry each. -/
def entryWrite (idx sub v : Nat) : Option (State → Out) :=
  if idx = 0x2010 && sub = 3 then some (execTickPeriodRequest v)
  else if idx = 0x5600 && sub = 0x41 then some (execBufferEnableWrite v)
  else if idx = 0x5800 && sub = 0x1B then some (drawn fun w => execComparatorTestPhase v (w % 32))
  else if idx = 0x5900 && sub = 0x0E then some (execMeasureNow v)
  else if idx = 0x7002 && sub = 3 then some (drawn fun w => execLogAcknowledge v (w % 2 == 1))
  else if idx = 0x9000 && sub = 2 then some (execClearAll v)
  else if idx = 0x9010 && sub = 0x40 then some (execDebugEnable v)
  else if idx = 0xB000 && sub = 8 then some (execManualTrigger v)
  else none

/-- The command that a write of value `v`, `len` bytes long, to an entry is, if a rule makes it one (assumption log 19). -/
def ownWrite (idx sub len v : Nat) : Option (State → Out) :=
  if isClear idx sub then some (execCounterClear idx sub v)
  else if idx = 0x2001 && sub = 1 then deviceWrite v
  else if idx = 0x2002 then accessWrite sub len v
  else if (idx = 0x3001 || idx = 0x3801) && sub = 1 then poleWrite (if idx = 0x3001 then 0 else 1) v
  else if 0x4000 ≤ idx && idx < 0x4C00 && idx % 0x100 = 2 && sub = 1 then some (execExclusionMapWrite ((idx - 0x4000) / 0x100) v)
  else if (idx = 0x5104 || idx = 0x5105) && sub = 0x11 && v = 1 then some (execDcRestart (idx - 0x5104))
  else if (idx = 0x5108 || idx = 0x5109) && sub = 0x12 && v = 1 then some (execEnergisationAbort (idx - 0x5108))
  else if 0x5530 ≤ idx && idx < 0x5550 then laneWrite (idx - 0x5530) sub v
  else if 0x5601 ≤ idx && idx < 0x5621 && sub = 0x49 && v = 1 then some (execOverlapCheck (idx - 0x5601))
  else if idx = 0x6000 then meteringWrite sub v
  else if idx = 0x7001 then sessionWrite sub len v
  else if idx = 0x8000 && sub = 1 then twinWrite v
  else if 0x9030 ≤ idx && idx < 0x9038 && sub = 0x10 then taskWrite (idx - 0x9030) v
  else if idx = 0xA000 && sub = 7 then storeWrite v
  else entryWrite idx sub v

/-- The length of a write to an entry is one that its type takes; a string of R515 and R539 has any. -/
def lengthFits (idx sub len : Nat) : Bool :=
  shortString idx sub ||
    (match odEntry? (odKey idx sub) with
     | some (e, _) => len == e.ty.bytes
     | none => false)

/-- SDO_WRITE (R542 to R546): a write of `len` bytes with value `v` to an entry (assumption log 19). -/
def execSdoWrite (idx sub len v : Nat) (s : State) : Out :=
  if forcePart idx sub then s.run fun d => if d.mailbox then d.abort idx sub 0x06010000 else d
  else
    match if lengthFits idx sub len then ownWrite idx sub len v else none with
    | some f => f s
    | none => s.run fun d => d.sdo idx sub len v fun d => d.sdoEffect idx sub v

end Sys2Proof.Machine
end

