-- ==== Sys2Proof/Machine/Dispatch.lean ====
section
/-! DEFINITION. Each command to its meaning. -/
namespace Sys2Proof.Machine

/-- The effect of a command on everything but the queue. -/
def exec (i : Instr) (s : State) : Host.Outcome State Fault Refusal :=
  match i with
  | .stationResetRelease word open_ syn => Sys2Proof.Machine.execStationResetRelease word open_ syn s
  | .sResetNLow => Sys2Proof.Machine.execSResetNLow s
  | .plantResetRelease syn quality => Sys2Proof.Machine.execPlantResetRelease syn quality s
  | .bootLoadComplete fwOk fail us => Sys2Proof.Machine.execBootLoadComplete fwOk fail us s
  | .selfTestComplete detectors mram => Sys2Proof.Machine.execSelfTestComplete detectors mram s
  | .enterLinked => Sys2Proof.Machine.execEnterLinked s
  | .linkWaitExpiry => Sys2Proof.Machine.execLinkWaitExpiry s
  | .readyTimeout => Sys2Proof.Machine.execReadyTimeout s
  | .clockLoss plant => Sys2Proof.Machine.execClockLoss plant s
  | .lockStepFault pair kind word => Sys2Proof.Machine.execLockStepFault pair kind word s
  | .uncorrectableWord addr => Sys2Proof.Machine.execUncorrectableWord addr s
  | .memoryScrub corrected dram => Sys2Proof.Machine.execMemoryScrub corrected dram s
  | .supplyLoss vs => Sys2Proof.Machine.execSupplyLoss vs s
  | .endgameSaveEnd written => Sys2Proof.Machine.execEndgameSaveEnd written s
  | .supplyReturn => Sys2Proof.Machine.execSupplyReturn s
  | .regEnLow => Sys2Proof.Machine.execRegEnLow s
  | .regEnHigh detected failed => Sys2Proof.Machine.execRegEnHigh detected failed s
  | .powerGood => Sys2Proof.Machine.execPowerGood s
  | .softStartTimeout => Sys2Proof.Machine.execSoftStartTimeout s
  | .hiccupExpiry => Sys2Proof.Machine.execHiccupExpiry s
  | .switchShortTrip soft hard => Sys2Proof.Machine.execSwitchShortTrip soft hard s
  | .coreRailFault cause => Sys2Proof.Machine.execCoreRailFault cause s
  | .shutdownExpiry => Sys2Proof.Machine.execShutdownExpiry s
  | .bootstrapLockout h => Sys2Proof.Machine.execBootstrapLockout h s
  | .vdrvLockout => Sys2Proof.Machine.execVdrvLockout s
  | .lockoutRecovery k => Sys2Proof.Machine.execLockoutRecovery k s
  | .brakeStart => Sys2Proof.Machine.execBrakeStart s
  | .brakeEnd => Sys2Proof.Machine.execBrakeEnd s
  | .loadStep => Sys2Proof.Machine.execLoadStep s
  | .phaseShed => Sys2Proof.Machine.execPhaseShed s
  | .forcedRefresh h => Sys2Proof.Machine.execForcedRefresh h s
  | .comparatorTestPhase v failed => Sys2Proof.Machine.execComparatorTestPhase v failed s
  | .storeMeasurement => Sys2Proof.Machine.execStoreMeasurement s
  | .measureNow v => Sys2Proof.Machine.execMeasureNow v s
  | .storeMeasurementComplete c esr => Sys2Proof.Machine.execStoreMeasurementComplete c esr s
  | .storeChargeTimeout => Sys2Proof.Machine.execStoreChargeTimeout s
  | .tickT0 n => Sys2Proof.Machine.execTickT0 n s
  | .measurementDeadline late => Sys2Proof.Machine.execMeasurementDeadline late s
  | .controlEngineDeadline incomplete => Sys2Proof.Machine.execControlEngineDeadline incomplete s
  | .rankEngineDeadline incomplete => Sys2Proof.Machine.execRankEngineDeadline incomplete s
  | .pair3SlotStart tier runs => Sys2Proof.Machine.execPair3SlotStart tier runs s
  | .taskBudgetExpiry runs => Sys2Proof.Machine.execTaskBudgetExpiry runs s
  | .pair3SlotEnd => Sys2Proof.Machine.execPair3SlotEnd s
  | .tickRecordSend => Sys2Proof.Machine.execTickRecordSend s
  | .healthRecordSend => Sys2Proof.Machine.execHealthRecordSend s
  | .tickRecordDeadline => Sys2Proof.Machine.execTickRecordDeadline s
  | .conversionComplete ch raw => Sys2Proof.Machine.execConversionComplete ch raw s
  | .referenceWarmupExpiry dev => Sys2Proof.Machine.execReferenceWarmupExpiry dev s
  | .referenceMonitorFault dev => Sys2Proof.Machine.execReferenceMonitorFault dev s
  | .referenceMonitorRecovery dev => Sys2Proof.Machine.execReferenceMonitorRecovery dev s
  | .bufferEnableWrite v => Sys2Proof.Machine.execBufferEnableWrite v s
  | .overlapCheck ch => Sys2Proof.Machine.execOverlapCheck ch s
  | .overlapCheckComplete => Sys2Proof.Machine.execOverlapCheckComplete s
  | .syncInEdge err off high ppm => Sys2Proof.Machine.execSyncInEdge err off high ppm s
  | .syncEdgeMissing => Sys2Proof.Machine.execSyncEdgeMissing s
  | .syncPhaseStep => Sys2Proof.Machine.execSyncPhaseStep s
  | .syncTracked => Sys2Proof.Machine.execSyncTracked s
  | .tickPeriodRequest code => Sys2Proof.Machine.execTickPeriodRequest code s
  | .tickPeriodChange => Sys2Proof.Machine.execTickPeriodChange s
  | .losAssert l => Sys2Proof.Machine.execLosAssert l s
  | .losClear l => Sys2Proof.Machine.execLosClear l s
  | .lolAssert l => Sys2Proof.Machine.execLolAssert l s
  | .lolClear l => Sys2Proof.Machine.execLolClear l s
  | .alignmentLost l => Sys2Proof.Machine.execAlignmentLost l s
  | .signalSettled l => Sys2Proof.Machine.execSignalSettled l s
  | .alignmentAchieved l pos words => Sys2Proof.Machine.execAlignmentAchieved l pos words s
  | .alignmentSearchFail l => Sys2Proof.Machine.execAlignmentSearchFail l s
  | .bitSlip l => Sys2Proof.Machine.execBitSlip l s
  | .trainReceived l lf cleanUs => Sys2Proof.Machine.execTrainReceived l lf cleanUs s
  | .capabilityReceived l lf mask largest => Sys2Proof.Machine.execCapabilityReceived l lf mask largest s
  | .identityReceived l lf version identity => Sys2Proof.Machine.execIdentityReceived l lf version identity s
  | .configAckReceived l lf body => Sys2Proof.Machine.execConfigAckReceived l lf body s
  | .rangeEchoReceived l cycles dc => Sys2Proof.Machine.execRangeEchoReceived l cycles dc s
  | .rateAckReceived l rate => Sys2Proof.Machine.execRateAckReceived l rate s
  | .readyReceived l rate => Sys2Proof.Machine.execReadyReceived l rate s
  | .nackReceived l lf reason => Sys2Proof.Machine.execNackReceived l lf reason s
  | .handshakeTimeout l => Sys2Proof.Machine.execHandshakeTimeout l s
  | .rangingTimeout l => Sys2Proof.Machine.execRangingTimeout l s
  | .stepTimeout l => Sys2Proof.Machine.execStepTimeout l s
  | .trainingTimeout l => Sys2Proof.Machine.execTrainingTimeout l s
  | .laneQuietExpiry l => Sys2Proof.Machine.execLaneQuietExpiry l s
  | .laneRetrain l => Sys2Proof.Machine.execLaneRetrain l s
  | .laneChangeEffect l => Sys2Proof.Machine.execLaneChangeEffect l s
  | .upstreamFrame l head stream => Sys2Proof.Machine.execUpstreamFrame l head stream s
  | .disputeEnd => Sys2Proof.Machine.execDisputeEnd s
  | .energise p => Sys2Proof.Machine.execEnergise p s
  | .deblock p => Sys2Proof.Machine.execDeblock p s
  | .block p => Sys2Proof.Machine.execBlock p s
  | .reset p => Sys2Proof.Machine.execReset p s
  | .deEnergise p => Sys2Proof.Machine.execDeEnergise p s
  | .reconnected p => Sys2Proof.Machine.execReconnected p s
  | .runBack p => Sys2Proof.Machine.execRunBack p s
  | .runBackEnd p => Sys2Proof.Machine.execRunBackEnd p s
  | .deblockTick p => Sys2Proof.Machine.execDeblockTick p s
  | .fastRun p finish => Sys2Proof.Machine.execFastRun p finish s
  | .slowRun finish => Sys2Proof.Machine.execSlowRun finish s
  | .angleLossTrip p => Sys2Proof.Machine.execAngleLossTrip p s
  | .energisationTimeout p => Sys2Proof.Machine.execEnergisationTimeout p s
  | .energisationAbort p => Sys2Proof.Machine.execEnergisationAbort p s
  | .setpointFrame vals => Sys2Proof.Machine.execSetpointFrame vals s
  | .setpointLoss p => Sys2Proof.Machine.execSetpointLoss p s
  | .extinctionHoldExpiry p => Sys2Proof.Machine.execExtinctionHoldExpiry p s
  | .extinctionLimitExpiry p => Sys2Proof.Machine.execExtinctionLimitExpiry p s
  | .deionisationExpiry p => Sys2Proof.Machine.execDeionisationExpiry p s
  | .dcRestart p => Sys2Proof.Machine.execDcRestart p s
  | .lossSettleExpiry p => Sys2Proof.Machine.execLossSettleExpiry p s
  | .exclusionMapWrite a map => Sys2Proof.Machine.execExclusionMapWrite a map s
  | .forceRequest a scope pattern lanes level offset => Sys2Proof.Machine.execForceRequest a scope pattern lanes level offset s
  | .crossingTimeout p => Sys2Proof.Machine.execCrossingTimeout p s
  | .periodicSave => Sys2Proof.Machine.execPeriodicSave s
  | .pulseStart o => Sys2Proof.Machine.execPulseStart o s
  | .pulseEnd o => Sys2Proof.Machine.execPulseEnd o s
  | .lockOpen => Sys2Proof.Machine.execLockOpen s
  | .lockClose => Sys2Proof.Machine.execLockClose s
  | .meterFaultAcknowledge => Sys2Proof.Machine.execMeterFaultAcknowledge s
  | .grantReceived seq epoch isNew duration since crcOk => Sys2Proof.Machine.execGrantReceived seq epoch isNew duration since crcOk s
  | .denyReceived epoch holder age sinceT0 crcOk => Sys2Proof.Machine.execDenyReceived epoch holder age sinceT0 crcOk s
  | .noticeReceived epoch holder age sinceT0 crcOk => Sys2Proof.Machine.execNoticeReceived epoch holder age sinceT0 crcOk s
  | .leaseRenewal => Sys2Proof.Machine.execLeaseRenewal s
  | .flagFall => Sys2Proof.Machine.execFlagFall s
  | .arbiterLinkDown => Sys2Proof.Machine.execArbiterLinkDown s
  | .stalemate => Sys2Proof.Machine.execStalemate s
  | .coldStartRequest => Sys2Proof.Machine.execColdStartRequest s
  | .rolporLinkUp straps lanes delay => Sys2Proof.Machine.execRolporLinkUp straps lanes delay s
  | .rolporTickRecord r rseq single crcOk margin => Sys2Proof.Machine.execRolporTickRecord r rseq single crcOk margin s
  | .writeRecord rseq idx sub eff v single => Sys2Proof.Machine.execWriteRecord rseq idx sub eff v single s
  | .decisionRecord rseq eff x single => Sys2Proof.Machine.execDecisionRecord rseq eff x single s
  | .healthRecord rseq body single crcOk => Sys2Proof.Machine.execHealthRecord rseq body single crcOk s
  | .peerHealthStale => Sys2Proof.Machine.execPeerHealthStale s
  | .resyncRequest => Sys2Proof.Machine.execResyncRequest s
  | .resyncAck c => Sys2Proof.Machine.execResyncAck c s
  | .snapshotTick => Sys2Proof.Machine.execSnapshotTick s
  | .stateRecord rseq part single => Sys2Proof.Machine.execStateRecord rseq part single s
  | .refblkRecord rseq n blocks single => Sys2Proof.Machine.execRefblkRecord rseq n blocks single s
  | .outerRecord rseq v poles finish single => Sys2Proof.Machine.execOuterRecord rseq v poles finish single s
  | .resyncStateLoaded => Sys2Proof.Machine.execResyncStateLoaded s
  | .resyncVerified => Sys2Proof.Machine.execResyncVerified s
  | .resyncTimeout => Sys2Proof.Machine.execResyncTimeout s
  | .bridgingTimeout => Sys2Proof.Machine.execBridgingTimeout s
  | .castle => Sys2Proof.Machine.execCastle s
  | .resync => Sys2Proof.Machine.execResync s
  | .outOfService => Sys2Proof.Machine.execOutOfService s
  | .returnToService => Sys2Proof.Machine.execReturn s
  | .abandonCastling => Sys2Proof.Machine.execAbandonCastling s
  | .castlePropose c => Sys2Proof.Machine.execCastlePropose c s
  | .castleAck c => Sys2Proof.Machine.execCastleAck c s
  | .castleAbandon => Sys2Proof.Machine.execCastleAbandon s
  | .abdicate c => Sys2Proof.Machine.execAbdicate c s
  | .castlingTick => Sys2Proof.Machine.execCastlingTick s
  | .castlingGrantTimeout => Sys2Proof.Machine.execCastlingGrantTimeout s
  | .comparatorTrip k cycle sent => Sys2Proof.Machine.execComparatorTrip k cycle sent s
  | .blankingWindowEnd j w => Sys2Proof.Machine.execBlankingWindowEnd j w s
  | .comparatorSelfTest => Sys2Proof.Machine.execComparatorSelfTest s
  | .comparatorTestStep pass => Sys2Proof.Machine.execComparatorTestStep pass s
  | .blockOutReadbackMismatch => Sys2Proof.Machine.execBlockOutReadbackMismatch s
  | .safeInputFiltered n b level sent => Sys2Proof.Machine.execSafeInputFiltered n b level sent s
  | .discrepancyFault n => Sys2Proof.Machine.execDiscrepancyFault n s
  | .safeResetEdge highMs lowMs => Sys2Proof.Machine.execSafeResetEdge highMs lowMs s
  | .safeResetStuck => Sys2Proof.Machine.execSafeResetStuck s
  | .safeBlockDisagreement => Sys2Proof.Machine.execSafeBlockDisagreement s
  | .outputTestPulse o b released => Sys2Proof.Machine.execOutputTestPulse o b released s
  | .zeroEnergyHoldExpiry => Sys2Proof.Machine.execZeroEnergyHoldExpiry s
  | .fsoeFrame conn data => Sys2Proof.Machine.execFsoeFrame conn data s
  | .fsoeWatchdogExpiry => Sys2Proof.Machine.execFsoeWatchdogExpiry s
  | .sessionOpen pass => Sys2Proof.Machine.execSessionOpen pass s
  | .sessionClose => Sys2Proof.Machine.execSessionClose s
  | .newPassphrase pass => Sys2Proof.Machine.execNewPassphrase pass s
  | .safetyCommit => Sys2Proof.Machine.execSafetyCommit s
  | .safetyDiscard => Sys2Proof.Machine.execSafetyDiscard s
  | .sessionIdleExpiry => Sys2Proof.Machine.execSessionIdleExpiry s
  | .sessionLockoutExpiry => Sys2Proof.Machine.execSessionLockoutExpiry s
  | .logAcknowledge seq wasRead => Sys2Proof.Machine.execLogAcknowledge seq wasRead s
  | .sdoWrite idx sub len v => Sys2Proof.Machine.execSdoWrite idx sub len v s
  | .counterClear idx sub v => Sys2Proof.Machine.execCounterClear idx sub v s
  | .clearAll v => Sys2Proof.Machine.execClearAll v s
  | .login bytes => Sys2Proof.Machine.execLogin bytes s
  | .logout => Sys2Proof.Machine.execLogout s
  | .setCredential bytes => Sys2Proof.Machine.execSetCredential bytes s
  | .accessIdleExpiry => Sys2Proof.Machine.execAccessIdleExpiry s
  | .blockAll => Sys2Proof.Machine.execBlockAll s
  | .acknowledge => Sys2Proof.Machine.execAcknowledge s
  | .resetPlant lost => Sys2Proof.Machine.execResetPlant lost s
  | .resetStation => Sys2Proof.Machine.execResetStation s
  | .resetModule lost => Sys2Proof.Machine.execResetModule lost s
  | .regEnToggleEnd => Sys2Proof.Machine.execRegEnToggleEnd s
  | .sync0Edge deviationNs => Sys2Proof.Machine.execSync0Edge deviationNs s
  | .sm2WatchdogExpiry => Sys2Proof.Machine.execSm2WatchdogExpiry s
  | .alStateRequest target dcEnabled sync0Ns => Sys2Proof.Machine.execAlStateRequest target dcEnabled sync0Ns s
  | .emcySend => Sys2Proof.Machine.execEmcySend s
  | .foeWriteSegment file password => Sys2Proof.Machine.execFoeWriteSegment file password s
  | .foeConfigComplete slot im => Sys2Proof.Machine.execFoeConfigComplete slot im s
  | .foeFirmwareComplete version crc meter sigOk productOk => Sys2Proof.Machine.execFoeFirmwareComplete version crc meter sigOk productOk s
  | .foeReadRun password => Sys2Proof.Machine.execFoeReadRun password s
  | .foeReadRecord n password => Sys2Proof.Machine.execFoeReadRecord n password s
  | .foeReadEventLog password => Sys2Proof.Machine.execFoeReadEventLog password s
  | .validate => Sys2Proof.Machine.execValidate s
  | .validationComplete => Sys2Proof.Machine.execValidationComplete s
  | .activate => Sys2Proof.Machine.execActivate s
  | .rollback => Sys2Proof.Machine.execRollback s
  | .erase => Sys2Proof.Machine.execErase s
  | .abandon => Sys2Proof.Machine.execAbandon s
  | .activateFirmware => Sys2Proof.Machine.execActivateFirmware s
  | .actPropose kind version crc a => Sys2Proof.Machine.execActPropose kind version crc a s
  | .actReady => Sys2Proof.Machine.execActReady s
  | .actRefuse => Sys2Proof.Machine.execActRefuse s
  | .actCommitted => Sys2Proof.Machine.execActCommitted s
  | .actAbandon => Sys2Proof.Machine.execActAbandon s
  | .shadowLoad => Sys2Proof.Machine.execShadowLoad s
  | .commitRecord => Sys2Proof.Machine.execCommitRecord s
  | .committedDeadline => Sys2Proof.Machine.execCommittedDeadline s
  | .activationSwitch => Sys2Proof.Machine.execActivationSwitch s
  | .configAdoption => Sys2Proof.Machine.execConfigAdoption s
  | .flashRefresh failed => Sys2Proof.Machine.execFlashRefresh failed s
  | .debugEnable v => Sys2Proof.Machine.execDebugEnable v s
  | .debugAccess pair kind => Sys2Proof.Machine.execDebugAccess pair kind s
  | .suspend t => Sys2Proof.Machine.execSuspend t s
  | .resume t => Sys2Proof.Machine.execResume t s
  | .restart t => Sys2Proof.Machine.execRestart t s
  | .taskMessageReceived => Sys2Proof.Machine.execTaskMessageReceived s
  | .messageSend ident pair c cls typ payload => Sys2Proof.Machine.execMessageSend ident pair c cls typ payload s
  | .messageReceived c crcOk => Sys2Proof.Machine.execMessageReceived c crcOk s
  | .messageTake ident pair c => Sys2Proof.Machine.execMessageTake ident pair c s
  | .doorbellSet ident pair c bits => Sys2Proof.Machine.execDoorbellSet ident pair c bits s
  | .doorbellClear ident pair c bits => Sys2Proof.Machine.execDoorbellClear ident pair c bits s
  | .barrierLaneFailure toStation lane => Sys2Proof.Machine.execBarrierLaneFailure toStation lane s
  | .barrierLaneTrained toStation lane crcEqual => Sys2Proof.Machine.execBarrierLaneTrained toStation lane crcEqual s
  | .linkStatusBlock => Sys2Proof.Machine.execLinkStatusBlock s
  | .timeEdge mode reading offUs delay => Sys2Proof.Machine.execTimeEdge mode reading offUs delay s
  | .timeMessage sec delay sinceT0 => Sys2Proof.Machine.execTimeMessage sec delay sinceT0 s
  | .timeHoldover => Sys2Proof.Machine.execTimeHoldover s
  | .recorderTrigger src t => Sys2Proof.Machine.execRecorderTrigger src t s
  | .manualTrigger v => Sys2Proof.Machine.execManualTrigger v s
  | .recordingEnd => Sys2Proof.Machine.execRecordingEnd s
  | .recordingStreamTimeout => Sys2Proof.Machine.execRecordingStreamTimeout s
  | .lifeAccounting mC => Sys2Proof.Machine.execLifeAccounting mC s
  | .stationSupplyLoss => Sys2Proof.Machine.execStationSupplyLoss s
  | .dramUncorrectableWord recorder slot t w pair => Sys2Proof.Machine.execDramUncorrectableWord recorder slot t w pair s
  | .rolporLinkDown => Sys2Proof.Machine.execRolporLinkDown s
  | .sdoResponseTimeout idx sub => Sys2Proof.Machine.execSdoResponseTimeout idx sub s
  | .sm2BufferComplete bytes => Sys2Proof.Machine.execSm2BufferComplete bytes s
  | .sm3BufferRead => Sys2Proof.Machine.execSm3BufferRead s
  | .accessLockoutExpiry => Sys2Proof.Machine.execAccessLockoutExpiry s
  | .storeOvervoltage => Sys2Proof.Machine.execStoreOvervoltage s
  | .ecatPortLink up => Sys2Proof.Machine.execEcatPortLink up s
  | .jtagBoundaryScan => Sys2Proof.Machine.execJtagBoundaryScan s

end Sys2Proof.Machine
end

