-- ==== Sys2Proof/Safety.lean ====
section
/-! DEFINITION. What counts as a sound state, in the terms the claims use: the dictionary store is in canonical form and the device
holds as many of each part as the spec gives it. And the shapes of the claims: a command completes, and what it leaves unchanged. -/
namespace Sys2Proof.Machine

/-- A sound device: the dictionary store lists rising addresses and no default value, and there are 2 poles, 12 arms, 32 Minak lanes,
8 extension tasks, 16 channels of the barrier and 32 measurement channels (R22 to R24, R80, R473, R609). -/
structure Device.Sound (d : Device) : Prop where
  wf : odWf d.od = true
  poles : d.poles.length = 2
  arms : d.arms.length = 12
  lanes : d.lanes.length = 32
  tasks : d.tasks.length = 8
  chans : d.barrier.chans.length = 16
  convs : d.front.chans.length = 32

/-- The command completes: the answer is a next state that differs in the device only, and its device satisfies `P`. -/
def Answers (i : Instr) (s : State) (P : Device → Prop) : Prop := ∃ e, exec i s = .next ⟨e, s.pending⟩ ∧ P e

/-- Every dictionary entry but those at the addresses `ks` reads in `e` as in `d`. -/
def Device.KeepsEntries (d e : Device) (ks : List Nat) : Prop := ∀ k, k ∉ ks → odGet e.od k = odGet d.od k

/-- Nothing changed from `d` to `e` but the dictionary entries at the addresses `ks`. -/
def Device.OnlyEntries (d e : Device) (ks : List Nat) : Prop := { e with od := d.od } = d ∧ d.KeepsEntries e ks

/-- Nothing changed from `d` to `e` but lane `l` and the dictionary entries at the addresses `ks`. -/
def Device.OnlyLane (d e : Device) (l : Nat) (ks : List Nat) : Prop :=
  { e with od := d.od, lanes := d.lanes } = d ∧ (∀ j, j ≠ l → e.lane j = d.lane j) ∧ d.KeepsEntries e ks

/-- As `OnlyLane`, for a command upon which the lane sends a message of bring-up, whose free values it draws. -/
def Device.OnlyLaneSends (d e : Device) (l : Nat) (ks : List Nat) : Prop :=
  { e with od := d.od, lanes := d.lanes, free := d.free } = d ∧ (∀ j, j ≠ l → e.lane j = d.lane j) ∧ d.KeepsEntries e ks

/-- The lane sends a message of type `typ` (Table 9.4). -/
def Device.Sends (e : Device) (l typ : Nat) : Prop := (e.lane l).message / 2 ^ 40 = typ * 256 + l

/-- The lane has received bits [55:0] of the message once: once more and it acts (R304). -/
def Device.heardOnce (d : Device) (l typ lf body : Nat) : Prop := (d.lane l).seen = some (messageWord typ lf body)

/-- The entries that show the state of lane `l` (Table 9.8). -/
def laneStateKeys (l : Nat) : List Nat := [odKey (laneIdx l) 5, odKey 0x5500 1, odKey 0x5500 2, odKey 0x5500 3]

/-- Lane `l` entered FAULT from bring-up with a cause of Table 9.6 (R315): state, cause and tick are shown, the rate is 0, the entry is
counted in the lane and in 0x5500, the transmitter is quiet, and no other lane changed. -/
def Device.LaneFaulted (d e : Device) (l cause : Nat) : Prop :=
  e.laneState l = 9 ∧ e.rd (laneIdx l) 0x0E = cause ∧ e.rd (laneIdx l) 0x0F = d.tick ∧ e.rd (laneIdx l) 6 = 0 ∧
    e.rd (laneIdx l) 0x10 = min (2 ^ 32 - 1) (d.rd (laneIdx l) 0x10 + 1) ∧ e.rd 0x5500 5 = min (2 ^ 32 - 1) (d.rd 0x5500 5 + 1) ∧
    (e.lane l).message = 0 ∧ (∀ j, j ≠ l → e.lane j = d.lane j) ∧
    { e with od := d.od, lanes := d.lanes, ring := d.ring, trigs := d.trigs } = d

/-- The checks of R336 on a frame with header `head` and stream bytes `stream` on lane `l`. -/
def Device.frameOk (d : Device) (l head : Nat) (stream : List Nat) : Bool :=
  let n := d.laneCells l
  let data := streamData (8 * n) (8 * n) stream
  let body := withCrcs (beBytes 7 head) (segments data.length data)
  data.length == 8 * n && body == stream.take body.length && field head 0 4 == 1 && field head 16 8 == l && field head 7 9 == n

/-- The event counter (idx, sub) of 32 bits counted one more, saturating at its maximum (R7). -/
def Device.Counted (d e : Device) (idx sub : Nat) : Prop := e.rd idx sub = min (2 ^ 32 - 1) (d.rd idx sub + 1)

/-- The unit may take the command `code` of pole `p` from SDO: the mailbox serves it, the write is judged, and the unit holds the role. -/
def Device.poleServed (d : Device) (p code : Nat) : Prop :=
  p < 2 ∧ d.mailbox = true ∧ d.judgeAs true (poleIdx 0x3001 p) 1 1 code = none ∧ d.holds = true ∧ (d.twinProfile = true → d.unit = 3)

end Sys2Proof.Machine
end

