-- ==== Sys2Proof/Laws/Dict.lean ====
section
/-! SUPPORT. The laws of the dictionary store: every operation keeps the canonical form, a read after a write gives the value
written, and a write leaves every other entry alone. -/
namespace Sys2Proof.Machine

set_option linter.all false
set_option Elab.async false

/-- Every listed address lies above `k`. -/
def Above (k : Nat) (m : List (Nat × Nat)) : Prop := ∀ x ∈ m, k < x.1

/-- The canonical form, by its head and tail. -/
theorem odWf_cons (k v : Nat) (r : List (Nat × Nat)) :
    odWf ((k, v) :: r) = true ↔ odCellOk k v = true ∧ Above k r ∧ odWf r = true := by
  induction r generalizing k v with
  | nil => simp [odWf, Above]
  | cons x r ih =>
    obtain ⟨k', v'⟩ := x
    simp only [odWf, Bool.and_eq_true, decide_eq_true_eq]
    constructor
    · rintro ⟨⟨h1, h2⟩, h3⟩
      refine ⟨h2, ?_, h3⟩
      have h4 := ((ih k' v').1 h3).2.1
      intro x hx
      rcases List.mem_cons.1 hx with rfl | hx
      · exact h1
      · exact Nat.lt_trans h1 (h4 x hx)
    · rintro ⟨h1, h2, h3⟩
      exact ⟨⟨h2 (k', v') (List.mem_cons_self ..), h1⟩, h3⟩

theorem above_cellDel {k key : Nat} {m : List (Nat × Nat)} (h : Above k m) : Above k (cellDel m key) := by
  induction m with
  | nil => exact h
  | cons x r ih =>
    obtain ⟨a, b⟩ := x
    have hr : Above k r := fun y hy => h y (List.mem_cons_of_mem _ hy)
    unfold cellDel
    split
    · exact hr
    · intro y hy
      rcases List.mem_cons.1 hy with rfl | hy
      · exact h _ (List.mem_cons_self ..)
      · exact ih hr y hy

theorem above_cellPut {k key v : Nat} {m : List (Nat × Nat)} (hk : k < key) (h : Above k m) : Above k (cellPut m key v) := by
  induction m with
  | nil =>
    intro y hy
    rcases List.mem_cons.1 hy with rfl | hy
    · exact hk
    · cases hy
  | cons x r ih =>
    obtain ⟨a, b⟩ := x
    have hr : Above k r := fun y hy => h y (List.mem_cons_of_mem _ hy)
    unfold cellPut
    split
    · intro y hy
      rcases List.mem_cons.1 hy with rfl | hy
      · exact hk
      · exact h y hy
    · split
      · intro y hy
        rcases List.mem_cons.1 hy with rfl | hy
        · exact hk
        · exact hr y hy
      · intro y hy
        rcases List.mem_cons.1 hy with rfl | hy
        · exact h _ (List.mem_cons_self ..)
        · exact ih hr y hy

/-- Taking an address out keeps the canonical form. -/
theorem odWf_cellDel {key : Nat} {m : List (Nat × Nat)} (h : odWf m = true) : odWf (cellDel m key) = true := by
  induction m with
  | nil => rfl
  | cons x r ih =>
    obtain ⟨a, b⟩ := x
    have ⟨h1, h2, h3⟩ := (odWf_cons a b r).1 h
    unfold cellDel
    split
    · exact h3
    · exact (odWf_cons ..).2 ⟨h1, above_cellDel h2, ih h3⟩

/-- Putting a value that is no default and fits the width keeps the canonical form. -/
theorem odWf_cellPut {key v : Nat} {m : List (Nat × Nat)} (hv : odCellOk key v = true) (h : odWf m = true) :
    odWf (cellPut m key v) = true := by
  induction m with
  | nil => simp [cellPut, odWf, hv]
  | cons x r ih =>
    obtain ⟨a, b⟩ := x
    have ⟨h1, h2, h3⟩ := (odWf_cons a b r).1 h
    unfold cellPut
    split
    · next hk =>
      refine (odWf_cons ..).2 ⟨hv, ?_, h⟩
      intro y hy
      rcases List.mem_cons.1 hy with rfl | hy
      · exact hk
      · exact Nat.lt_trans hk (h2 y hy)
    · split
      · next hk he => subst he; exact (odWf_cons ..).2 ⟨hv, h2, h3⟩
      · next hk he => exact (odWf_cons ..).2 ⟨h1, above_cellPut (by omega) h2, ih h3⟩

/-- A write keeps the canonical form. -/
theorem odWf_odPut {m : List (Nat × Nat)} (key v : Nat) (h : odWf m = true) : odWf (odPut m key v) = true := by
  unfold odPut
  split
  · exact h
  · split
    · exact odWf_cellDel h
    · next hv =>
      refine odWf_cellPut ?_ h
      rw [odCellOk, Bool.and_eq_true, decide_eq_true_eq, bne_iff_ne]
      exact ⟨hv, Nat.mod_lt _ (Nat.two_pow_pos _)⟩

/-- Keeping some addresses and dropping the others keeps the canonical form. -/
theorem odWf_filter {m : List (Nat × Nat)} (p : Nat × Nat → Bool) (h : odWf m = true) : odWf (m.filter p) = true := by
  induction m with
  | nil => rfl
  | cons x r ih =>
    obtain ⟨a, b⟩ := x
    have ⟨h1, h2, h3⟩ := (odWf_cons a b r).1 h
    rw [List.filter_cons]
    split
    · exact (odWf_cons ..).2 ⟨h1, fun y hy => h2 y (List.mem_filter.1 hy).1, ih h3⟩
    · exact ih h3

/-- A list of writes keeps the canonical form. -/
theorem odWf_puts (l : List (Nat × Nat)) {m : List (Nat × Nat)} (h : odWf m = true) :
    odWf (l.foldl (fun m kv => odPut m kv.1 kv.2) m) = true := by
  induction l generalizing m with
  | nil => exact h
  | cons x r ih => exact ih (odWf_odPut _ _ h)

/-! ### Reading after writing -/

theorem cellGet_above {k : Nat} {m : List (Nat × Nat)} (h : Above k m) : cellGet m k = none := by
  cases m with
  | nil => rfl
  | cons x r => obtain ⟨a, b⟩ := x; simp [cellGet, h (a, b) (List.mem_cons_self ..)]

theorem cellGet_cellPut_same (m : List (Nat × Nat)) (k v : Nat) : cellGet (cellPut m k v) k = some v := by
  induction m with
  | nil => simp [cellPut, cellGet]
  | cons x r ih =>
    obtain ⟨a, b⟩ := x
    unfold cellPut
    split
    · simp [cellGet]
    · split
      · simp [cellGet]
      · next h1 h2 => simp [cellGet, h1, h2, ih]

theorem cellGet_cellPut_other (m : List (Nat × Nat)) {k key : Nat} (v : Nat) (h : k ≠ key) :
    cellGet (cellPut m key v) k = cellGet m k := by
  induction m with
  | nil => unfold cellPut cellGet; simp [cellGet]; omega
  | cons x r ih =>
    obtain ⟨a, b⟩ := x
    unfold cellPut
    split
    · next h1 =>
      simp only [cellGet]
      by_cases h2 : k < key
      · simp [h2]; omega
      · simp [h2, Ne.symm h]
    · split
      · next h1 h2 => subst h2; simp [cellGet, Ne.symm h]
      · simp only [cellGet, ih]

theorem cellGet_cellDel_same {m : List (Nat × Nat)} (k : Nat) (h : odWf m = true) : cellGet (cellDel m k) k = none := by
  induction m with
  | nil => rfl
  | cons x r ih =>
    obtain ⟨a, b⟩ := x
    have ⟨_, h2, h3⟩ := (odWf_cons a b r).1 h
    unfold cellDel
    split
    · next he => subst he; exact cellGet_above h2
    · next he => simp only [cellGet, he, ↓reduceIte, ih h3]; split <;> rfl

theorem cellGet_cellDel_other {m : List (Nat × Nat)} {k key : Nat} (h : k ≠ key) (hw : odWf m = true) :
    cellGet (cellDel m key) k = cellGet m k := by
  induction m with
  | nil => rfl
  | cons x r ih =>
    obtain ⟨a, b⟩ := x
    have ⟨_, h2, h3⟩ := (odWf_cons a b r).1 hw
    unfold cellDel
    split
    · next he =>
      subst he
      by_cases hk : k < a
      · simp only [cellGet, hk, ↓reduceIte]
        exact cellGet_above fun y hy => Nat.lt_trans hk (h2 y hy)
      · simp [cellGet, hk, Ne.symm h]
    · simp only [cellGet, ih h3]

/-- A read of the entry just written gives the value, cut to the entry's width. -/
theorem odGet_odPut_same {m : List (Nat × Nat)} {k : Nat} (v : Nat) (hb : odBits k ≠ 0) (h : odWf m = true) :
    odGet (odPut m k v) k = v % 2 ^ odBits k := by
  unfold odPut
  rw [if_neg hb]
  by_cases hd : v % 2 ^ odBits k = odDefault k
  · rw [if_pos hd, odGet, cellGet_cellDel_same k h, hd]
  · rw [if_neg hd, odGet, cellGet_cellPut_same]

/-- A write leaves every other entry as it was. -/
theorem odGet_odPut_other {m : List (Nat × Nat)} {k key : Nat} (v : Nat) (hk : k ≠ key) (h : odWf m = true) :
    odGet (odPut m key v) k = odGet m k := by
  unfold odPut
  split
  · rfl
  · split
    · unfold odGet; rw [cellGet_cellDel_other hk h]
    · unfold odGet; rw [cellGet_cellPut_other m _ hk]

/-- A value listed fits its width, so an entry whose default does reads within it. -/
theorem odGet_lt {m : List (Nat × Nat)} {k : Nat} (h : odWf m = true) (hd : odDefault k < 2 ^ odBits k) : odGet m k < 2 ^ odBits k := by
  induction m with
  | nil => exact hd
  | cons x r ih =>
    obtain ⟨a, b⟩ := x
    have ⟨h1, _, h3⟩ := (odWf_cons a b r).1 h
    simp only [odCellOk, Bool.and_eq_true, decide_eq_true_eq] at h1
    by_cases h4 : k < a
    · simp only [odGet, cellGet, h4, ↓reduceIte]; exact hd
    · by_cases he : a = k
      · subst he; simp only [odGet, cellGet, Nat.lt_irrefl, ↓reduceIte]; exact h1.2
      · have := ih h3
        simpa only [odGet, cellGet, h4, he, ↓reduceIte] using this

/-- Two entries are one only where index and subindex agree. -/
theorem odKey_inj {i s i' s' : Nat} (h : s < 256) (h' : s' < 256) : odKey i s = odKey i' s' ↔ i = i' ∧ s = s' := by
  unfold odKey; omega

/-! ### The device's view -/

theorem Device.wr_wf {d : Device} (h : odWf d.od = true) (i s v : Nat) : odWf (d.wr i s v).od = true := odWf_odPut _ _ h

/-- The entry written reads as the value. -/
theorem Device.rd_wr_same {d : Device} (h : odWf d.od = true) (i s v : Nat) (hb : odBits (odKey i s) ≠ 0) :
    (d.wr i s v).rd i s = v % 2 ^ odBits (odKey i s) := odGet_odPut_same v hb h

/-- Every other entry reads as before. -/
theorem Device.rd_wr_other {d : Device} (h : odWf d.od = true) (i s v j t : Nat) (hk : odKey j t ≠ odKey i s) :
    (d.wr i s v).rd j t = d.rd j t := odGet_odPut_other v hk h

end Sys2Proof.Machine
end

