-- ==== Sys2Proof/Laws/Sound.lean ====
section
/-! SUPPORT. What every command's meaning promises: it completes, leaves the queue alone, and keeps a sound device sound. -/
namespace Sys2Proof.Machine

set_option linter.all false
set_option Elab.async false

theorem numbered_length {α : Type} (i : Nat) (l : List α) : (numbered i l).length = l.length := by
  induction l generalizing i with
  | nil => rfl
  | cons x r ih => simp [numbered, ih]

/-- An entry written keeps the device sound. -/
theorem Device.wr_sound (d : Device) (idx sub v : Nat) (hd : Device.Sound d) : Device.Sound (d.wr idx sub v) :=
  ⟨odWf_odPut _ _ hd.wf, hd.poles, hd.arms, hd.lanes, hd.tasks, hd.chans, hd.convs⟩

/-- A fold over operations that keep a device sound keeps it sound. -/
theorem foldl_sound {α : Type} {f : Device → α → Device} {l : List α} {d : Device}
    (hf : ∀ d x, Device.Sound d → Device.Sound (f d x)) (h : Device.Sound d) : Device.Sound (l.foldl f d) := by
  induction l generalizing d with
  | nil => exact h
  | cons x r ih => exact ih (hf d x h)

/-- A choice between two sound devices is sound. -/
theorem ite_sound {c : Prop} [Decidable c] {a b : Device} (ha : Device.Sound a) (hb : Device.Sound b) :
    Device.Sound (if c then a else b) := by
  split <;> assumption

/-- A name for a sound device is sound. -/
theorem sound_of_eq {x v : Device} (h : x = v) (hv : Device.Sound v) : Device.Sound x := h ▸ hv

theorem sound_of_eq_send {x v : SendResult} (h : x = v) (hv : Device.Sound v.dev) : Device.Sound x.dev := h ▸ hv

theorem sound_of_eq_fun {x v : Device → Device} (h : x = v) (hv : ∀ y : Device, Device.Sound y → Device.Sound (v y)) :
    ∀ y : Device, Device.Sound y → Device.Sound (x y) := h ▸ hv

theorem sound_of_eq_fun₂ {α : Type} {x v : Device → α → Device} (h : x = v)
    (hv : ∀ (y : Device) (z : α), Device.Sound y → Device.Sound (v y z)) :
    ∀ (y : Device) (z : α), Device.Sound y → Device.Sound (x y z) := h ▸ hv

theorem sound_of_eq_fun₃ {α β : Type} {x v : Device → α → β → Device} (h : x = v)
    (hv : ∀ (y : Device) (z : α) (w : β), Device.Sound y → Device.Sound (v y z w)) :
    ∀ (y : Device) (z : α) (w : β), Device.Sound y → Device.Sound (x y z w) := h ▸ hv

theorem sound_front {d : Device} (f : Front) (hf : f.chans.length = 32) (h : Device.Sound d) :
    Device.Sound { d with front := f } := ⟨h.wf, h.poles, h.arms, h.lanes, h.tasks, h.chans, hf⟩

theorem sound_life {d : Device} (f : Life) (h : Device.Sound d) : Device.Sound { d with life := f } :=
  ⟨h.wf, h.poles, h.arms, h.lanes, h.tasks, h.chans, h.convs⟩

/-- The device at reset is sound. -/
theorem Device.reset_sound : Device.Sound Device.reset := ⟨rfl, rfl, rfl, rfl, rfl, rfl, rfl⟩

/-- The answer is a next state that differs in the device only, and a sound device stays sound. -/
def Keeps (s : State) (o : Out) : Prop := ∃ e, o = .next ⟨e, s.pending⟩ ∧ (Device.Sound s.dev → Device.Sound e)

/-- What `State.run` does. -/
theorem State.run_keeps {s : State} {f : Device → Device} (h : ∀ d, Device.Sound d → Device.Sound (f d)) :
    Keeps s (s.run f) := ⟨f s.dev, rfl, h s.dev⟩

end Sys2Proof.Machine
end

