-- ==== Sys2Proof/Laws/State.lean ====
section
/-! SUPPORT. What each update of the device leaves as it was, one lemma per field, and what it makes of the part it changes. -/
namespace Sys2Proof.Machine

set_option linter.all false
set_option Elab.async false

/-! ### `wr` -/

@[simp] theorem Device.wr_live (d : Device) (idx sub v : Nat) : (d.wr idx sub v).live = d.live := rfl
@[simp] theorem Device.wr_ring (d : Device) (idx sub v : Nat) : (d.wr idx sub v).ring = d.ring := rfl
@[simp] theorem Device.wr_recorder (d : Device) (idx sub v : Nat) : (d.wr idx sub v).recorder = d.recorder := rfl
@[simp] theorem Device.wr_recStream (d : Device) (idx sub v : Nat) : (d.wr idx sub v).recStream = d.recStream := rfl
@[simp] theorem Device.wr_time (d : Device) (idx sub v : Nat) : (d.wr idx sub v).time = d.time := rfl
@[simp] theorem Device.wr_life (d : Device) (idx sub v : Nat) : (d.wr idx sub v).life = d.life := rfl
@[simp] theorem Device.wr_barrier (d : Device) (idx sub v : Nat) : (d.wr idx sub v).barrier = d.barrier := rfl
@[simp] theorem Device.wr_boundary (d : Device) (idx sub v : Nat) : (d.wr idx sub v).boundary = d.boundary := rfl
@[simp] theorem Device.wr_station (d : Device) (idx sub v : Nat) : (d.wr idx sub v).station = d.station := rfl
@[simp] theorem Device.wr_boot (d : Device) (idx sub v : Nat) : (d.wr idx sub v).boot = d.boot := rfl
@[simp] theorem Device.wr_session (d : Device) (idx sub v : Nat) : (d.wr idx sub v).session = d.session := rfl
@[simp] theorem Device.wr_guard (d : Device) (idx sub v : Nat) : (d.wr idx sub v).guard = d.guard := rfl
@[simp] theorem Device.wr_timer (d : Device) (idx sub v : Nat) : (d.wr idx sub v).timer = d.timer := rfl
@[simp] theorem Device.wr_lease (d : Device) (idx sub v : Nat) : (d.wr idx sub v).lease = d.lease := rfl
@[simp] theorem Device.wr_twin (d : Device) (idx sub v : Nat) : (d.wr idx sub v).twin = d.twin := rfl
@[simp] theorem Device.wr_poles (d : Device) (idx sub v : Nat) : (d.wr idx sub v).poles = d.poles := rfl
@[simp] theorem Device.wr_front (d : Device) (idx sub v : Nat) : (d.wr idx sub v).front = d.front := rfl
@[simp] theorem Device.wr_meter (d : Device) (idx sub v : Nat) : (d.wr idx sub v).meter = d.meter := rfl
@[simp] theorem Device.wr_tasks (d : Device) (idx sub v : Nat) : (d.wr idx sub v).tasks = d.tasks := rfl
@[simp] theorem Device.wr_slot3 (d : Device) (idx sub v : Nat) : (d.wr idx sub v).slot3 = d.slot3 := rfl
@[simp] theorem Device.wr_power (d : Device) (idx sub v : Nat) : (d.wr idx sub v).power = d.power := rfl
@[simp] theorem Device.wr_arms (d : Device) (idx sub v : Nat) : (d.wr idx sub v).arms = d.arms := rfl
@[simp] theorem Device.wr_lanes (d : Device) (idx sub v : Nat) : (d.wr idx sub v).lanes = d.lanes := rfl
@[simp] theorem Device.wr_refs (d : Device) (idx sub v : Nat) : (d.wr idx sub v).refs = d.refs := rfl
@[simp] theorem Device.wr_refsNext (d : Device) (idx sub v : Nat) : (d.wr idx sub v).refsNext = d.refsNext := rfl
@[simp] theorem Device.wr_trigs (d : Device) (idx sub v : Nat) : (d.wr idx sub v).trigs = d.trigs := rfl
@[simp] theorem Device.wr_free (d : Device) (idx sub v : Nat) : (d.wr idx sub v).free = d.free := rfl

/-! ### `drawn` -/

@[simp] theorem Device.drawn_od (d : Device) (n : Nat) : (d.drawn n).od = d.od := rfl
@[simp] theorem Device.drawn_live (d : Device) (n : Nat) : (d.drawn n).live = d.live := rfl
@[simp] theorem Device.drawn_ring (d : Device) (n : Nat) : (d.drawn n).ring = d.ring := rfl
@[simp] theorem Device.drawn_recorder (d : Device) (n : Nat) : (d.drawn n).recorder = d.recorder := rfl
@[simp] theorem Device.drawn_recStream (d : Device) (n : Nat) : (d.drawn n).recStream = d.recStream := rfl
@[simp] theorem Device.drawn_time (d : Device) (n : Nat) : (d.drawn n).time = d.time := rfl
@[simp] theorem Device.drawn_life (d : Device) (n : Nat) : (d.drawn n).life = d.life := rfl
@[simp] theorem Device.drawn_barrier (d : Device) (n : Nat) : (d.drawn n).barrier = d.barrier := rfl
@[simp] theorem Device.drawn_boundary (d : Device) (n : Nat) : (d.drawn n).boundary = d.boundary := rfl
@[simp] theorem Device.drawn_station (d : Device) (n : Nat) : (d.drawn n).station = d.station := rfl
@[simp] theorem Device.drawn_boot (d : Device) (n : Nat) : (d.drawn n).boot = d.boot := rfl
@[simp] theorem Device.drawn_session (d : Device) (n : Nat) : (d.drawn n).session = d.session := rfl
@[simp] theorem Device.drawn_guard (d : Device) (n : Nat) : (d.drawn n).guard = d.guard := rfl
@[simp] theorem Device.drawn_timer (d : Device) (n : Nat) : (d.drawn n).timer = d.timer := rfl
@[simp] theorem Device.drawn_lease (d : Device) (n : Nat) : (d.drawn n).lease = d.lease := rfl
@[simp] theorem Device.drawn_twin (d : Device) (n : Nat) : (d.drawn n).twin = d.twin := rfl
@[simp] theorem Device.drawn_poles (d : Device) (n : Nat) : (d.drawn n).poles = d.poles := rfl
@[simp] theorem Device.drawn_front (d : Device) (n : Nat) : (d.drawn n).front = d.front := rfl
@[simp] theorem Device.drawn_meter (d : Device) (n : Nat) : (d.drawn n).meter = d.meter := rfl
@[simp] theorem Device.drawn_tasks (d : Device) (n : Nat) : (d.drawn n).tasks = d.tasks := rfl
@[simp] theorem Device.drawn_slot3 (d : Device) (n : Nat) : (d.drawn n).slot3 = d.slot3 := rfl
@[simp] theorem Device.drawn_power (d : Device) (n : Nat) : (d.drawn n).power = d.power := rfl
@[simp] theorem Device.drawn_arms (d : Device) (n : Nat) : (d.drawn n).arms = d.arms := rfl
@[simp] theorem Device.drawn_lanes (d : Device) (n : Nat) : (d.drawn n).lanes = d.lanes := rfl
@[simp] theorem Device.drawn_refs (d : Device) (n : Nat) : (d.drawn n).refs = d.refs := rfl
@[simp] theorem Device.drawn_refsNext (d : Device) (n : Nat) : (d.drawn n).refsNext = d.refsNext := rfl
@[simp] theorem Device.drawn_trigs (d : Device) (n : Nat) : (d.drawn n).trigs = d.trigs := rfl
@[simp] theorem Device.drawn_free (d : Device) (n : Nat) : (d.drawn n).free = d.free + n := rfl
@[simp] theorem Device.drawn_rd (d : Device) (n : Nat) (i s : Nat) : (d.drawn n).rd i s = d.rd i s := rfl

/-! ### `modStation` -/

@[simp] theorem Device.modStation_od (d : Device) (f : Station → Station) : (d.modStation f).od = d.od := rfl
@[simp] theorem Device.modStation_live (d : Device) (f : Station → Station) : (d.modStation f).live = d.live := rfl
@[simp] theorem Device.modStation_ring (d : Device) (f : Station → Station) : (d.modStation f).ring = d.ring := rfl
@[simp] theorem Device.modStation_recorder (d : Device) (f : Station → Station) : (d.modStation f).recorder = d.recorder := rfl
@[simp] theorem Device.modStation_recStream (d : Device) (f : Station → Station) : (d.modStation f).recStream = d.recStream := rfl
@[simp] theorem Device.modStation_time (d : Device) (f : Station → Station) : (d.modStation f).time = d.time := rfl
@[simp] theorem Device.modStation_life (d : Device) (f : Station → Station) : (d.modStation f).life = d.life := rfl
@[simp] theorem Device.modStation_barrier (d : Device) (f : Station → Station) : (d.modStation f).barrier = d.barrier := rfl
@[simp] theorem Device.modStation_boundary (d : Device) (f : Station → Station) : (d.modStation f).boundary = d.boundary := rfl
@[simp] theorem Device.modStation_station (d : Device) (f : Station → Station) : (d.modStation f).station = f d.station := rfl
@[simp] theorem Device.modStation_boot (d : Device) (f : Station → Station) : (d.modStation f).boot = d.boot := rfl
@[simp] theorem Device.modStation_session (d : Device) (f : Station → Station) : (d.modStation f).session = d.session := rfl
@[simp] theorem Device.modStation_guard (d : Device) (f : Station → Station) : (d.modStation f).guard = d.guard := rfl
@[simp] theorem Device.modStation_timer (d : Device) (f : Station → Station) : (d.modStation f).timer = d.timer := rfl
@[simp] theorem Device.modStation_lease (d : Device) (f : Station → Station) : (d.modStation f).lease = d.lease := rfl
@[simp] theorem Device.modStation_twin (d : Device) (f : Station → Station) : (d.modStation f).twin = d.twin := rfl
@[simp] theorem Device.modStation_poles (d : Device) (f : Station → Station) : (d.modStation f).poles = d.poles := rfl
@[simp] theorem Device.modStation_front (d : Device) (f : Station → Station) : (d.modStation f).front = d.front := rfl
@[simp] theorem Device.modStation_meter (d : Device) (f : Station → Station) : (d.modStation f).meter = d.meter := rfl
@[simp] theorem Device.modStation_tasks (d : Device) (f : Station → Station) : (d.modStation f).tasks = d.tasks := rfl
@[simp] theorem Device.modStation_slot3 (d : Device) (f : Station → Station) : (d.modStation f).slot3 = d.slot3 := rfl
@[simp] theorem Device.modStation_power (d : Device) (f : Station → Station) : (d.modStation f).power = d.power := rfl
@[simp] theorem Device.modStation_arms (d : Device) (f : Station → Station) : (d.modStation f).arms = d.arms := rfl
@[simp] theorem Device.modStation_lanes (d : Device) (f : Station → Station) : (d.modStation f).lanes = d.lanes := rfl
@[simp] theorem Device.modStation_refs (d : Device) (f : Station → Station) : (d.modStation f).refs = d.refs := rfl
@[simp] theorem Device.modStation_refsNext (d : Device) (f : Station → Station) : (d.modStation f).refsNext = d.refsNext := rfl
@[simp] theorem Device.modStation_trigs (d : Device) (f : Station → Station) : (d.modStation f).trigs = d.trigs := rfl
@[simp] theorem Device.modStation_free (d : Device) (f : Station → Station) : (d.modStation f).free = d.free := rfl
@[simp] theorem Device.modStation_rd (d : Device) (f : Station → Station) (i s : Nat) : (d.modStation f).rd i s = d.rd i s := rfl

/-! ### `modBoot` -/

@[simp] theorem Device.modBoot_od (d : Device) (f : Boot → Boot) : (d.modBoot f).od = d.od := rfl
@[simp] theorem Device.modBoot_live (d : Device) (f : Boot → Boot) : (d.modBoot f).live = d.live := rfl
@[simp] theorem Device.modBoot_ring (d : Device) (f : Boot → Boot) : (d.modBoot f).ring = d.ring := rfl
@[simp] theorem Device.modBoot_recorder (d : Device) (f : Boot → Boot) : (d.modBoot f).recorder = d.recorder := rfl
@[simp] theorem Device.modBoot_recStream (d : Device) (f : Boot → Boot) : (d.modBoot f).recStream = d.recStream := rfl
@[simp] theorem Device.modBoot_time (d : Device) (f : Boot → Boot) : (d.modBoot f).time = d.time := rfl
@[simp] theorem Device.modBoot_life (d : Device) (f : Boot → Boot) : (d.modBoot f).life = d.life := rfl
@[simp] theorem Device.modBoot_barrier (d : Device) (f : Boot → Boot) : (d.modBoot f).barrier = d.barrier := rfl
@[simp] theorem Device.modBoot_boundary (d : Device) (f : Boot → Boot) : (d.modBoot f).boundary = d.boundary := rfl
@[simp] theorem Device.modBoot_station (d : Device) (f : Boot → Boot) : (d.modBoot f).station = d.station := rfl
@[simp] theorem Device.modBoot_boot (d : Device) (f : Boot → Boot) : (d.modBoot f).boot = f d.boot := rfl
@[simp] theorem Device.modBoot_session (d : Device) (f : Boot → Boot) : (d.modBoot f).session = d.session := rfl
@[simp] theorem Device.modBoot_guard (d : Device) (f : Boot → Boot) : (d.modBoot f).guard = d.guard := rfl
@[simp] theorem Device.modBoot_timer (d : Device) (f : Boot → Boot) : (d.modBoot f).timer = d.timer := rfl
@[simp] theorem Device.modBoot_lease (d : Device) (f : Boot → Boot) : (d.modBoot f).lease = d.lease := rfl
@[simp] theorem Device.modBoot_twin (d : Device) (f : Boot → Boot) : (d.modBoot f).twin = d.twin := rfl
@[simp] theorem Device.modBoot_poles (d : Device) (f : Boot → Boot) : (d.modBoot f).poles = d.poles := rfl
@[simp] theorem Device.modBoot_front (d : Device) (f : Boot → Boot) : (d.modBoot f).front = d.front := rfl
@[simp] theorem Device.modBoot_meter (d : Device) (f : Boot → Boot) : (d.modBoot f).meter = d.meter := rfl
@[simp] theorem Device.modBoot_tasks (d : Device) (f : Boot → Boot) : (d.modBoot f).tasks = d.tasks := rfl
@[simp] theorem Device.modBoot_slot3 (d : Device) (f : Boot → Boot) : (d.modBoot f).slot3 = d.slot3 := rfl
@[simp] theorem Device.modBoot_power (d : Device) (f : Boot → Boot) : (d.modBoot f).power = d.power := rfl
@[simp] theorem Device.modBoot_arms (d : Device) (f : Boot → Boot) : (d.modBoot f).arms = d.arms := rfl
@[simp] theorem Device.modBoot_lanes (d : Device) (f : Boot → Boot) : (d.modBoot f).lanes = d.lanes := rfl
@[simp] theorem Device.modBoot_refs (d : Device) (f : Boot → Boot) : (d.modBoot f).refs = d.refs := rfl
@[simp] theorem Device.modBoot_refsNext (d : Device) (f : Boot → Boot) : (d.modBoot f).refsNext = d.refsNext := rfl
@[simp] theorem Device.modBoot_trigs (d : Device) (f : Boot → Boot) : (d.modBoot f).trigs = d.trigs := rfl
@[simp] theorem Device.modBoot_free (d : Device) (f : Boot → Boot) : (d.modBoot f).free = d.free := rfl
@[simp] theorem Device.modBoot_rd (d : Device) (f : Boot → Boot) (i s : Nat) : (d.modBoot f).rd i s = d.rd i s := rfl

/-! ### `modPower` -/

@[simp] theorem Device.modPower_od (d : Device) (f : Power → Power) : (d.modPower f).od = d.od := rfl
@[simp] theorem Device.modPower_live (d : Device) (f : Power → Power) : (d.modPower f).live = d.live := rfl
@[simp] theorem Device.modPower_ring (d : Device) (f : Power → Power) : (d.modPower f).ring = d.ring := rfl
@[simp] theorem Device.modPower_recorder (d : Device) (f : Power → Power) : (d.modPower f).recorder = d.recorder := rfl
@[simp] theorem Device.modPower_recStream (d : Device) (f : Power → Power) : (d.modPower f).recStream = d.recStream := rfl
@[simp] theorem Device.modPower_time (d : Device) (f : Power → Power) : (d.modPower f).time = d.time := rfl
@[simp] theorem Device.modPower_life (d : Device) (f : Power → Power) : (d.modPower f).life = d.life := rfl
@[simp] theorem Device.modPower_barrier (d : Device) (f : Power → Power) : (d.modPower f).barrier = d.barrier := rfl
@[simp] theorem Device.modPower_boundary (d : Device) (f : Power → Power) : (d.modPower f).boundary = d.boundary := rfl
@[simp] theorem Device.modPower_station (d : Device) (f : Power → Power) : (d.modPower f).station = d.station := rfl
@[simp] theorem Device.modPower_boot (d : Device) (f : Power → Power) : (d.modPower f).boot = d.boot := rfl
@[simp] theorem Device.modPower_session (d : Device) (f : Power → Power) : (d.modPower f).session = d.session := rfl
@[simp] theorem Device.modPower_guard (d : Device) (f : Power → Power) : (d.modPower f).guard = d.guard := rfl
@[simp] theorem Device.modPower_timer (d : Device) (f : Power → Power) : (d.modPower f).timer = d.timer := rfl
@[simp] theorem Device.modPower_lease (d : Device) (f : Power → Power) : (d.modPower f).lease = d.lease := rfl
@[simp] theorem Device.modPower_twin (d : Device) (f : Power → Power) : (d.modPower f).twin = d.twin := rfl
@[simp] theorem Device.modPower_poles (d : Device) (f : Power → Power) : (d.modPower f).poles = d.poles := rfl
@[simp] theorem Device.modPower_front (d : Device) (f : Power → Power) : (d.modPower f).front = d.front := rfl
@[simp] theorem Device.modPower_meter (d : Device) (f : Power → Power) : (d.modPower f).meter = d.meter := rfl
@[simp] theorem Device.modPower_tasks (d : Device) (f : Power → Power) : (d.modPower f).tasks = d.tasks := rfl
@[simp] theorem Device.modPower_slot3 (d : Device) (f : Power → Power) : (d.modPower f).slot3 = d.slot3 := rfl
@[simp] theorem Device.modPower_power (d : Device) (f : Power → Power) : (d.modPower f).power = f d.power := rfl
@[simp] theorem Device.modPower_arms (d : Device) (f : Power → Power) : (d.modPower f).arms = d.arms := rfl
@[simp] theorem Device.modPower_lanes (d : Device) (f : Power → Power) : (d.modPower f).lanes = d.lanes := rfl
@[simp] theorem Device.modPower_refs (d : Device) (f : Power → Power) : (d.modPower f).refs = d.refs := rfl
@[simp] theorem Device.modPower_refsNext (d : Device) (f : Power → Power) : (d.modPower f).refsNext = d.refsNext := rfl
@[simp] theorem Device.modPower_trigs (d : Device) (f : Power → Power) : (d.modPower f).trigs = d.trigs := rfl
@[simp] theorem Device.modPower_free (d : Device) (f : Power → Power) : (d.modPower f).free = d.free := rfl
@[simp] theorem Device.modPower_rd (d : Device) (f : Power → Power) (i s : Nat) : (d.modPower f).rd i s = d.rd i s := rfl

/-! ### `modMeter` -/

@[simp] theorem Device.modMeter_od (d : Device) (f : Meter → Meter) : (d.modMeter f).od = d.od := rfl
@[simp] theorem Device.modMeter_live (d : Device) (f : Meter → Meter) : (d.modMeter f).live = d.live := rfl
@[simp] theorem Device.modMeter_ring (d : Device) (f : Meter → Meter) : (d.modMeter f).ring = d.ring := rfl
@[simp] theorem Device.modMeter_recorder (d : Device) (f : Meter → Meter) : (d.modMeter f).recorder = d.recorder := rfl
@[simp] theorem Device.modMeter_recStream (d : Device) (f : Meter → Meter) : (d.modMeter f).recStream = d.recStream := rfl
@[simp] theorem Device.modMeter_time (d : Device) (f : Meter → Meter) : (d.modMeter f).time = d.time := rfl
@[simp] theorem Device.modMeter_life (d : Device) (f : Meter → Meter) : (d.modMeter f).life = d.life := rfl
@[simp] theorem Device.modMeter_barrier (d : Device) (f : Meter → Meter) : (d.modMeter f).barrier = d.barrier := rfl
@[simp] theorem Device.modMeter_boundary (d : Device) (f : Meter → Meter) : (d.modMeter f).boundary = d.boundary := rfl
@[simp] theorem Device.modMeter_station (d : Device) (f : Meter → Meter) : (d.modMeter f).station = d.station := rfl
@[simp] theorem Device.modMeter_boot (d : Device) (f : Meter → Meter) : (d.modMeter f).boot = d.boot := rfl
@[simp] theorem Device.modMeter_session (d : Device) (f : Meter → Meter) : (d.modMeter f).session = d.session := rfl
@[simp] theorem Device.modMeter_guard (d : Device) (f : Meter → Meter) : (d.modMeter f).guard = d.guard := rfl
@[simp] theorem Device.modMeter_timer (d : Device) (f : Meter → Meter) : (d.modMeter f).timer = d.timer := rfl
@[simp] theorem Device.modMeter_lease (d : Device) (f : Meter → Meter) : (d.modMeter f).lease = d.lease := rfl
@[simp] theorem Device.modMeter_twin (d : Device) (f : Meter → Meter) : (d.modMeter f).twin = d.twin := rfl
@[simp] theorem Device.modMeter_poles (d : Device) (f : Meter → Meter) : (d.modMeter f).poles = d.poles := rfl
@[simp] theorem Device.modMeter_front (d : Device) (f : Meter → Meter) : (d.modMeter f).front = d.front := rfl
@[simp] theorem Device.modMeter_meter (d : Device) (f : Meter → Meter) : (d.modMeter f).meter = f d.meter := rfl
@[simp] theorem Device.modMeter_tasks (d : Device) (f : Meter → Meter) : (d.modMeter f).tasks = d.tasks := rfl
@[simp] theorem Device.modMeter_slot3 (d : Device) (f : Meter → Meter) : (d.modMeter f).slot3 = d.slot3 := rfl
@[simp] theorem Device.modMeter_power (d : Device) (f : Meter → Meter) : (d.modMeter f).power = d.power := rfl
@[simp] theorem Device.modMeter_arms (d : Device) (f : Meter → Meter) : (d.modMeter f).arms = d.arms := rfl
@[simp] theorem Device.modMeter_lanes (d : Device) (f : Meter → Meter) : (d.modMeter f).lanes = d.lanes := rfl
@[simp] theorem Device.modMeter_refs (d : Device) (f : Meter → Meter) : (d.modMeter f).refs = d.refs := rfl
@[simp] theorem Device.modMeter_refsNext (d : Device) (f : Meter → Meter) : (d.modMeter f).refsNext = d.refsNext := rfl
@[simp] theorem Device.modMeter_trigs (d : Device) (f : Meter → Meter) : (d.modMeter f).trigs = d.trigs := rfl
@[simp] theorem Device.modMeter_free (d : Device) (f : Meter → Meter) : (d.modMeter f).free = d.free := rfl
@[simp] theorem Device.modMeter_rd (d : Device) (f : Meter → Meter) (i s : Nat) : (d.modMeter f).rd i s = d.rd i s := rfl

/-! ### `modGuard` -/

@[simp] theorem Device.modGuard_od (d : Device) (f : Guard → Guard) : (d.modGuard f).od = d.od := rfl
@[simp] theorem Device.modGuard_live (d : Device) (f : Guard → Guard) : (d.modGuard f).live = d.live := rfl
@[simp] theorem Device.modGuard_ring (d : Device) (f : Guard → Guard) : (d.modGuard f).ring = d.ring := rfl
@[simp] theorem Device.modGuard_recorder (d : Device) (f : Guard → Guard) : (d.modGuard f).recorder = d.recorder := rfl
@[simp] theorem Device.modGuard_recStream (d : Device) (f : Guard → Guard) : (d.modGuard f).recStream = d.recStream := rfl
@[simp] theorem Device.modGuard_time (d : Device) (f : Guard → Guard) : (d.modGuard f).time = d.time := rfl
@[simp] theorem Device.modGuard_life (d : Device) (f : Guard → Guard) : (d.modGuard f).life = d.life := rfl
@[simp] theorem Device.modGuard_barrier (d : Device) (f : Guard → Guard) : (d.modGuard f).barrier = d.barrier := rfl
@[simp] theorem Device.modGuard_boundary (d : Device) (f : Guard → Guard) : (d.modGuard f).boundary = d.boundary := rfl
@[simp] theorem Device.modGuard_station (d : Device) (f : Guard → Guard) : (d.modGuard f).station = d.station := rfl
@[simp] theorem Device.modGuard_boot (d : Device) (f : Guard → Guard) : (d.modGuard f).boot = d.boot := rfl
@[simp] theorem Device.modGuard_session (d : Device) (f : Guard → Guard) : (d.modGuard f).session = d.session := rfl
@[simp] theorem Device.modGuard_guard (d : Device) (f : Guard → Guard) : (d.modGuard f).guard = f d.guard := rfl
@[simp] theorem Device.modGuard_timer (d : Device) (f : Guard → Guard) : (d.modGuard f).timer = d.timer := rfl
@[simp] theorem Device.modGuard_lease (d : Device) (f : Guard → Guard) : (d.modGuard f).lease = d.lease := rfl
@[simp] theorem Device.modGuard_twin (d : Device) (f : Guard → Guard) : (d.modGuard f).twin = d.twin := rfl
@[simp] theorem Device.modGuard_poles (d : Device) (f : Guard → Guard) : (d.modGuard f).poles = d.poles := rfl
@[simp] theorem Device.modGuard_front (d : Device) (f : Guard → Guard) : (d.modGuard f).front = d.front := rfl
@[simp] theorem Device.modGuard_meter (d : Device) (f : Guard → Guard) : (d.modGuard f).meter = d.meter := rfl
@[simp] theorem Device.modGuard_tasks (d : Device) (f : Guard → Guard) : (d.modGuard f).tasks = d.tasks := rfl
@[simp] theorem Device.modGuard_slot3 (d : Device) (f : Guard → Guard) : (d.modGuard f).slot3 = d.slot3 := rfl
@[simp] theorem Device.modGuard_power (d : Device) (f : Guard → Guard) : (d.modGuard f).power = d.power := rfl
@[simp] theorem Device.modGuard_arms (d : Device) (f : Guard → Guard) : (d.modGuard f).arms = d.arms := rfl
@[simp] theorem Device.modGuard_lanes (d : Device) (f : Guard → Guard) : (d.modGuard f).lanes = d.lanes := rfl
@[simp] theorem Device.modGuard_refs (d : Device) (f : Guard → Guard) : (d.modGuard f).refs = d.refs := rfl
@[simp] theorem Device.modGuard_refsNext (d : Device) (f : Guard → Guard) : (d.modGuard f).refsNext = d.refsNext := rfl
@[simp] theorem Device.modGuard_trigs (d : Device) (f : Guard → Guard) : (d.modGuard f).trigs = d.trigs := rfl
@[simp] theorem Device.modGuard_free (d : Device) (f : Guard → Guard) : (d.modGuard f).free = d.free := rfl
@[simp] theorem Device.modGuard_rd (d : Device) (f : Guard → Guard) (i s : Nat) : (d.modGuard f).rd i s = d.rd i s := rfl

/-! ### `modSession` -/

@[simp] theorem Device.modSession_od (d : Device) (f : Session → Session) : (d.modSession f).od = d.od := rfl
@[simp] theorem Device.modSession_live (d : Device) (f : Session → Session) : (d.modSession f).live = d.live := rfl
@[simp] theorem Device.modSession_ring (d : Device) (f : Session → Session) : (d.modSession f).ring = d.ring := rfl
@[simp] theorem Device.modSession_recorder (d : Device) (f : Session → Session) : (d.modSession f).recorder = d.recorder := rfl
@[simp] theorem Device.modSession_recStream (d : Device) (f : Session → Session) : (d.modSession f).recStream = d.recStream := rfl
@[simp] theorem Device.modSession_time (d : Device) (f : Session → Session) : (d.modSession f).time = d.time := rfl
@[simp] theorem Device.modSession_life (d : Device) (f : Session → Session) : (d.modSession f).life = d.life := rfl
@[simp] theorem Device.modSession_barrier (d : Device) (f : Session → Session) : (d.modSession f).barrier = d.barrier := rfl
@[simp] theorem Device.modSession_boundary (d : Device) (f : Session → Session) : (d.modSession f).boundary = d.boundary := rfl
@[simp] theorem Device.modSession_station (d : Device) (f : Session → Session) : (d.modSession f).station = d.station := rfl
@[simp] theorem Device.modSession_boot (d : Device) (f : Session → Session) : (d.modSession f).boot = d.boot := rfl
@[simp] theorem Device.modSession_session (d : Device) (f : Session → Session) : (d.modSession f).session = f d.session := rfl
@[simp] theorem Device.modSession_guard (d : Device) (f : Session → Session) : (d.modSession f).guard = d.guard := rfl
@[simp] theorem Device.modSession_timer (d : Device) (f : Session → Session) : (d.modSession f).timer = d.timer := rfl
@[simp] theorem Device.modSession_lease (d : Device) (f : Session → Session) : (d.modSession f).lease = d.lease := rfl
@[simp] theorem Device.modSession_twin (d : Device) (f : Session → Session) : (d.modSession f).twin = d.twin := rfl
@[simp] theorem Device.modSession_poles (d : Device) (f : Session → Session) : (d.modSession f).poles = d.poles := rfl
@[simp] theorem Device.modSession_front (d : Device) (f : Session → Session) : (d.modSession f).front = d.front := rfl
@[simp] theorem Device.modSession_meter (d : Device) (f : Session → Session) : (d.modSession f).meter = d.meter := rfl
@[simp] theorem Device.modSession_tasks (d : Device) (f : Session → Session) : (d.modSession f).tasks = d.tasks := rfl
@[simp] theorem Device.modSession_slot3 (d : Device) (f : Session → Session) : (d.modSession f).slot3 = d.slot3 := rfl
@[simp] theorem Device.modSession_power (d : Device) (f : Session → Session) : (d.modSession f).power = d.power := rfl
@[simp] theorem Device.modSession_arms (d : Device) (f : Session → Session) : (d.modSession f).arms = d.arms := rfl
@[simp] theorem Device.modSession_lanes (d : Device) (f : Session → Session) : (d.modSession f).lanes = d.lanes := rfl
@[simp] theorem Device.modSession_refs (d : Device) (f : Session → Session) : (d.modSession f).refs = d.refs := rfl
@[simp] theorem Device.modSession_refsNext (d : Device) (f : Session → Session) : (d.modSession f).refsNext = d.refsNext := rfl
@[simp] theorem Device.modSession_trigs (d : Device) (f : Session → Session) : (d.modSession f).trigs = d.trigs := rfl
@[simp] theorem Device.modSession_free (d : Device) (f : Session → Session) : (d.modSession f).free = d.free := rfl
@[simp] theorem Device.modSession_rd (d : Device) (f : Session → Session) (i s : Nat) : (d.modSession f).rd i s = d.rd i s := rfl

/-! ### `modTimer` -/

@[simp] theorem Device.modTimer_od (d : Device) (f : TickTimer → TickTimer) : (d.modTimer f).od = d.od := rfl
@[simp] theorem Device.modTimer_live (d : Device) (f : TickTimer → TickTimer) : (d.modTimer f).live = d.live := rfl
@[simp] theorem Device.modTimer_ring (d : Device) (f : TickTimer → TickTimer) : (d.modTimer f).ring = d.ring := rfl
@[simp] theorem Device.modTimer_recorder (d : Device) (f : TickTimer → TickTimer) : (d.modTimer f).recorder = d.recorder := rfl
@[simp] theorem Device.modTimer_recStream (d : Device) (f : TickTimer → TickTimer) : (d.modTimer f).recStream = d.recStream := rfl
@[simp] theorem Device.modTimer_time (d : Device) (f : TickTimer → TickTimer) : (d.modTimer f).time = d.time := rfl
@[simp] theorem Device.modTimer_life (d : Device) (f : TickTimer → TickTimer) : (d.modTimer f).life = d.life := rfl
@[simp] theorem Device.modTimer_barrier (d : Device) (f : TickTimer → TickTimer) : (d.modTimer f).barrier = d.barrier := rfl
@[simp] theorem Device.modTimer_boundary (d : Device) (f : TickTimer → TickTimer) : (d.modTimer f).boundary = d.boundary := rfl
@[simp] theorem Device.modTimer_station (d : Device) (f : TickTimer → TickTimer) : (d.modTimer f).station = d.station := rfl
@[simp] theorem Device.modTimer_boot (d : Device) (f : TickTimer → TickTimer) : (d.modTimer f).boot = d.boot := rfl
@[simp] theorem Device.modTimer_session (d : Device) (f : TickTimer → TickTimer) : (d.modTimer f).session = d.session := rfl
@[simp] theorem Device.modTimer_guard (d : Device) (f : TickTimer → TickTimer) : (d.modTimer f).guard = d.guard := rfl
@[simp] theorem Device.modTimer_timer (d : Device) (f : TickTimer → TickTimer) : (d.modTimer f).timer = f d.timer := rfl
@[simp] theorem Device.modTimer_lease (d : Device) (f : TickTimer → TickTimer) : (d.modTimer f).lease = d.lease := rfl
@[simp] theorem Device.modTimer_twin (d : Device) (f : TickTimer → TickTimer) : (d.modTimer f).twin = d.twin := rfl
@[simp] theorem Device.modTimer_poles (d : Device) (f : TickTimer → TickTimer) : (d.modTimer f).poles = d.poles := rfl
@[simp] theorem Device.modTimer_front (d : Device) (f : TickTimer → TickTimer) : (d.modTimer f).front = d.front := rfl
@[simp] theorem Device.modTimer_meter (d : Device) (f : TickTimer → TickTimer) : (d.modTimer f).meter = d.meter := rfl
@[simp] theorem Device.modTimer_tasks (d : Device) (f : TickTimer → TickTimer) : (d.modTimer f).tasks = d.tasks := rfl
@[simp] theorem Device.modTimer_slot3 (d : Device) (f : TickTimer → TickTimer) : (d.modTimer f).slot3 = d.slot3 := rfl
@[simp] theorem Device.modTimer_power (d : Device) (f : TickTimer → TickTimer) : (d.modTimer f).power = d.power := rfl
@[simp] theorem Device.modTimer_arms (d : Device) (f : TickTimer → TickTimer) : (d.modTimer f).arms = d.arms := rfl
@[simp] theorem Device.modTimer_lanes (d : Device) (f : TickTimer → TickTimer) : (d.modTimer f).lanes = d.lanes := rfl
@[simp] theorem Device.modTimer_refs (d : Device) (f : TickTimer → TickTimer) : (d.modTimer f).refs = d.refs := rfl
@[simp] theorem Device.modTimer_refsNext (d : Device) (f : TickTimer → TickTimer) : (d.modTimer f).refsNext = d.refsNext := rfl
@[simp] theorem Device.modTimer_trigs (d : Device) (f : TickTimer → TickTimer) : (d.modTimer f).trigs = d.trigs := rfl
@[simp] theorem Device.modTimer_free (d : Device) (f : TickTimer → TickTimer) : (d.modTimer f).free = d.free := rfl
@[simp] theorem Device.modTimer_rd (d : Device) (f : TickTimer → TickTimer) (i s : Nat) : (d.modTimer f).rd i s = d.rd i s := rfl

/-! ### `modTwin` -/

@[simp] theorem Device.modTwin_od (d : Device) (f : Twin → Twin) : (d.modTwin f).od = d.od := rfl
@[simp] theorem Device.modTwin_live (d : Device) (f : Twin → Twin) : (d.modTwin f).live = d.live := rfl
@[simp] theorem Device.modTwin_ring (d : Device) (f : Twin → Twin) : (d.modTwin f).ring = d.ring := rfl
@[simp] theorem Device.modTwin_recorder (d : Device) (f : Twin → Twin) : (d.modTwin f).recorder = d.recorder := rfl
@[simp] theorem Device.modTwin_recStream (d : Device) (f : Twin → Twin) : (d.modTwin f).recStream = d.recStream := rfl
@[simp] theorem Device.modTwin_time (d : Device) (f : Twin → Twin) : (d.modTwin f).time = d.time := rfl
@[simp] theorem Device.modTwin_life (d : Device) (f : Twin → Twin) : (d.modTwin f).life = d.life := rfl
@[simp] theorem Device.modTwin_barrier (d : Device) (f : Twin → Twin) : (d.modTwin f).barrier = d.barrier := rfl
@[simp] theorem Device.modTwin_boundary (d : Device) (f : Twin → Twin) : (d.modTwin f).boundary = d.boundary := rfl
@[simp] theorem Device.modTwin_station (d : Device) (f : Twin → Twin) : (d.modTwin f).station = d.station := rfl
@[simp] theorem Device.modTwin_boot (d : Device) (f : Twin → Twin) : (d.modTwin f).boot = d.boot := rfl
@[simp] theorem Device.modTwin_session (d : Device) (f : Twin → Twin) : (d.modTwin f).session = d.session := rfl
@[simp] theorem Device.modTwin_guard (d : Device) (f : Twin → Twin) : (d.modTwin f).guard = d.guard := rfl
@[simp] theorem Device.modTwin_timer (d : Device) (f : Twin → Twin) : (d.modTwin f).timer = d.timer := rfl
@[simp] theorem Device.modTwin_lease (d : Device) (f : Twin → Twin) : (d.modTwin f).lease = d.lease := rfl
@[simp] theorem Device.modTwin_twin (d : Device) (f : Twin → Twin) : (d.modTwin f).twin = f d.twin := rfl
@[simp] theorem Device.modTwin_poles (d : Device) (f : Twin → Twin) : (d.modTwin f).poles = d.poles := rfl
@[simp] theorem Device.modTwin_front (d : Device) (f : Twin → Twin) : (d.modTwin f).front = d.front := rfl
@[simp] theorem Device.modTwin_meter (d : Device) (f : Twin → Twin) : (d.modTwin f).meter = d.meter := rfl
@[simp] theorem Device.modTwin_tasks (d : Device) (f : Twin → Twin) : (d.modTwin f).tasks = d.tasks := rfl
@[simp] theorem Device.modTwin_slot3 (d : Device) (f : Twin → Twin) : (d.modTwin f).slot3 = d.slot3 := rfl
@[simp] theorem Device.modTwin_power (d : Device) (f : Twin → Twin) : (d.modTwin f).power = d.power := rfl
@[simp] theorem Device.modTwin_arms (d : Device) (f : Twin → Twin) : (d.modTwin f).arms = d.arms := rfl
@[simp] theorem Device.modTwin_lanes (d : Device) (f : Twin → Twin) : (d.modTwin f).lanes = d.lanes := rfl
@[simp] theorem Device.modTwin_refs (d : Device) (f : Twin → Twin) : (d.modTwin f).refs = d.refs := rfl
@[simp] theorem Device.modTwin_refsNext (d : Device) (f : Twin → Twin) : (d.modTwin f).refsNext = d.refsNext := rfl
@[simp] theorem Device.modTwin_trigs (d : Device) (f : Twin → Twin) : (d.modTwin f).trigs = d.trigs := rfl
@[simp] theorem Device.modTwin_free (d : Device) (f : Twin → Twin) : (d.modTwin f).free = d.free := rfl
@[simp] theorem Device.modTwin_rd (d : Device) (f : Twin → Twin) (i s : Nat) : (d.modTwin f).rd i s = d.rd i s := rfl

/-! ### `modLease` -/

@[simp] theorem Device.modLease_od (d : Device) (f : Lease → Lease) : (d.modLease f).od = d.od := rfl
@[simp] theorem Device.modLease_live (d : Device) (f : Lease → Lease) : (d.modLease f).live = d.live := rfl
@[simp] theorem Device.modLease_ring (d : Device) (f : Lease → Lease) : (d.modLease f).ring = d.ring := rfl
@[simp] theorem Device.modLease_recorder (d : Device) (f : Lease → Lease) : (d.modLease f).recorder = d.recorder := rfl
@[simp] theorem Device.modLease_recStream (d : Device) (f : Lease → Lease) : (d.modLease f).recStream = d.recStream := rfl
@[simp] theorem Device.modLease_time (d : Device) (f : Lease → Lease) : (d.modLease f).time = d.time := rfl
@[simp] theorem Device.modLease_life (d : Device) (f : Lease → Lease) : (d.modLease f).life = d.life := rfl
@[simp] theorem Device.modLease_barrier (d : Device) (f : Lease → Lease) : (d.modLease f).barrier = d.barrier := rfl
@[simp] theorem Device.modLease_boundary (d : Device) (f : Lease → Lease) : (d.modLease f).boundary = d.boundary := rfl
@[simp] theorem Device.modLease_station (d : Device) (f : Lease → Lease) : (d.modLease f).station = d.station := rfl
@[simp] theorem Device.modLease_boot (d : Device) (f : Lease → Lease) : (d.modLease f).boot = d.boot := rfl
@[simp] theorem Device.modLease_session (d : Device) (f : Lease → Lease) : (d.modLease f).session = d.session := rfl
@[simp] theorem Device.modLease_guard (d : Device) (f : Lease → Lease) : (d.modLease f).guard = d.guard := rfl
@[simp] theorem Device.modLease_timer (d : Device) (f : Lease → Lease) : (d.modLease f).timer = d.timer := rfl
@[simp] theorem Device.modLease_lease (d : Device) (f : Lease → Lease) : (d.modLease f).lease = f d.lease := rfl
@[simp] theorem Device.modLease_twin (d : Device) (f : Lease → Lease) : (d.modLease f).twin = d.twin := rfl
@[simp] theorem Device.modLease_poles (d : Device) (f : Lease → Lease) : (d.modLease f).poles = d.poles := rfl
@[simp] theorem Device.modLease_front (d : Device) (f : Lease → Lease) : (d.modLease f).front = d.front := rfl
@[simp] theorem Device.modLease_meter (d : Device) (f : Lease → Lease) : (d.modLease f).meter = d.meter := rfl
@[simp] theorem Device.modLease_tasks (d : Device) (f : Lease → Lease) : (d.modLease f).tasks = d.tasks := rfl
@[simp] theorem Device.modLease_slot3 (d : Device) (f : Lease → Lease) : (d.modLease f).slot3 = d.slot3 := rfl
@[simp] theorem Device.modLease_power (d : Device) (f : Lease → Lease) : (d.modLease f).power = d.power := rfl
@[simp] theorem Device.modLease_arms (d : Device) (f : Lease → Lease) : (d.modLease f).arms = d.arms := rfl
@[simp] theorem Device.modLease_lanes (d : Device) (f : Lease → Lease) : (d.modLease f).lanes = d.lanes := rfl
@[simp] theorem Device.modLease_refs (d : Device) (f : Lease → Lease) : (d.modLease f).refs = d.refs := rfl
@[simp] theorem Device.modLease_refsNext (d : Device) (f : Lease → Lease) : (d.modLease f).refsNext = d.refsNext := rfl
@[simp] theorem Device.modLease_trigs (d : Device) (f : Lease → Lease) : (d.modLease f).trigs = d.trigs := rfl
@[simp] theorem Device.modLease_free (d : Device) (f : Lease → Lease) : (d.modLease f).free = d.free := rfl
@[simp] theorem Device.modLease_rd (d : Device) (f : Lease → Lease) (i s : Nat) : (d.modLease f).rd i s = d.rd i s := rfl

/-! ### `modArm` -/

@[simp] theorem Device.modArm_od (d : Device) (a : Nat) (f : Arm → Arm) : (d.modArm a f).od = d.od := rfl
@[simp] theorem Device.modArm_live (d : Device) (a : Nat) (f : Arm → Arm) : (d.modArm a f).live = d.live := rfl
@[simp] theorem Device.modArm_ring (d : Device) (a : Nat) (f : Arm → Arm) : (d.modArm a f).ring = d.ring := rfl
@[simp] theorem Device.modArm_recorder (d : Device) (a : Nat) (f : Arm → Arm) : (d.modArm a f).recorder = d.recorder := rfl
@[simp] theorem Device.modArm_recStream (d : Device) (a : Nat) (f : Arm → Arm) : (d.modArm a f).recStream = d.recStream := rfl
@[simp] theorem Device.modArm_time (d : Device) (a : Nat) (f : Arm → Arm) : (d.modArm a f).time = d.time := rfl
@[simp] theorem Device.modArm_life (d : Device) (a : Nat) (f : Arm → Arm) : (d.modArm a f).life = d.life := rfl
@[simp] theorem Device.modArm_barrier (d : Device) (a : Nat) (f : Arm → Arm) : (d.modArm a f).barrier = d.barrier := rfl
@[simp] theorem Device.modArm_boundary (d : Device) (a : Nat) (f : Arm → Arm) : (d.modArm a f).boundary = d.boundary := rfl
@[simp] theorem Device.modArm_station (d : Device) (a : Nat) (f : Arm → Arm) : (d.modArm a f).station = d.station := rfl
@[simp] theorem Device.modArm_boot (d : Device) (a : Nat) (f : Arm → Arm) : (d.modArm a f).boot = d.boot := rfl
@[simp] theorem Device.modArm_session (d : Device) (a : Nat) (f : Arm → Arm) : (d.modArm a f).session = d.session := rfl
@[simp] theorem Device.modArm_guard (d : Device) (a : Nat) (f : Arm → Arm) : (d.modArm a f).guard = d.guard := rfl
@[simp] theorem Device.modArm_timer (d : Device) (a : Nat) (f : Arm → Arm) : (d.modArm a f).timer = d.timer := rfl
@[simp] theorem Device.modArm_lease (d : Device) (a : Nat) (f : Arm → Arm) : (d.modArm a f).lease = d.lease := rfl
@[simp] theorem Device.modArm_twin (d : Device) (a : Nat) (f : Arm → Arm) : (d.modArm a f).twin = d.twin := rfl
@[simp] theorem Device.modArm_poles (d : Device) (a : Nat) (f : Arm → Arm) : (d.modArm a f).poles = d.poles := rfl
@[simp] theorem Device.modArm_front (d : Device) (a : Nat) (f : Arm → Arm) : (d.modArm a f).front = d.front := rfl
@[simp] theorem Device.modArm_meter (d : Device) (a : Nat) (f : Arm → Arm) : (d.modArm a f).meter = d.meter := rfl
@[simp] theorem Device.modArm_tasks (d : Device) (a : Nat) (f : Arm → Arm) : (d.modArm a f).tasks = d.tasks := rfl
@[simp] theorem Device.modArm_slot3 (d : Device) (a : Nat) (f : Arm → Arm) : (d.modArm a f).slot3 = d.slot3 := rfl
@[simp] theorem Device.modArm_power (d : Device) (a : Nat) (f : Arm → Arm) : (d.modArm a f).power = d.power := rfl
@[simp] theorem Device.modArm_arms (d : Device) (a : Nat) (f : Arm → Arm) : (d.modArm a f).arms = d.arms.set a (f (d.arm a)) := rfl
@[simp] theorem Device.modArm_lanes (d : Device) (a : Nat) (f : Arm → Arm) : (d.modArm a f).lanes = d.lanes := rfl
@[simp] theorem Device.modArm_refs (d : Device) (a : Nat) (f : Arm → Arm) : (d.modArm a f).refs = d.refs := rfl
@[simp] theorem Device.modArm_refsNext (d : Device) (a : Nat) (f : Arm → Arm) : (d.modArm a f).refsNext = d.refsNext := rfl
@[simp] theorem Device.modArm_trigs (d : Device) (a : Nat) (f : Arm → Arm) : (d.modArm a f).trigs = d.trigs := rfl
@[simp] theorem Device.modArm_free (d : Device) (a : Nat) (f : Arm → Arm) : (d.modArm a f).free = d.free := rfl
@[simp] theorem Device.modArm_rd (d : Device) (a : Nat) (f : Arm → Arm) (i s : Nat) : (d.modArm a f).rd i s = d.rd i s := rfl

/-! ### `modLane` -/

@[simp] theorem Device.modLane_od (d : Device) (l : Nat) (f : Lane → Lane) : (d.modLane l f).od = d.od := rfl
@[simp] theorem Device.modLane_live (d : Device) (l : Nat) (f : Lane → Lane) : (d.modLane l f).live = d.live := rfl
@[simp] theorem Device.modLane_ring (d : Device) (l : Nat) (f : Lane → Lane) : (d.modLane l f).ring = d.ring := rfl
@[simp] theorem Device.modLane_recorder (d : Device) (l : Nat) (f : Lane → Lane) : (d.modLane l f).recorder = d.recorder := rfl
@[simp] theorem Device.modLane_recStream (d : Device) (l : Nat) (f : Lane → Lane) : (d.modLane l f).recStream = d.recStream := rfl
@[simp] theorem Device.modLane_time (d : Device) (l : Nat) (f : Lane → Lane) : (d.modLane l f).time = d.time := rfl
@[simp] theorem Device.modLane_life (d : Device) (l : Nat) (f : Lane → Lane) : (d.modLane l f).life = d.life := rfl
@[simp] theorem Device.modLane_barrier (d : Device) (l : Nat) (f : Lane → Lane) : (d.modLane l f).barrier = d.barrier := rfl
@[simp] theorem Device.modLane_boundary (d : Device) (l : Nat) (f : Lane → Lane) : (d.modLane l f).boundary = d.boundary := rfl
@[simp] theorem Device.modLane_station (d : Device) (l : Nat) (f : Lane → Lane) : (d.modLane l f).station = d.station := rfl
@[simp] theorem Device.modLane_boot (d : Device) (l : Nat) (f : Lane → Lane) : (d.modLane l f).boot = d.boot := rfl
@[simp] theorem Device.modLane_session (d : Device) (l : Nat) (f : Lane → Lane) : (d.modLane l f).session = d.session := rfl
@[simp] theorem Device.modLane_guard (d : Device) (l : Nat) (f : Lane → Lane) : (d.modLane l f).guard = d.guard := rfl
@[simp] theorem Device.modLane_timer (d : Device) (l : Nat) (f : Lane → Lane) : (d.modLane l f).timer = d.timer := rfl
@[simp] theorem Device.modLane_lease (d : Device) (l : Nat) (f : Lane → Lane) : (d.modLane l f).lease = d.lease := rfl
@[simp] theorem Device.modLane_twin (d : Device) (l : Nat) (f : Lane → Lane) : (d.modLane l f).twin = d.twin := rfl
@[simp] theorem Device.modLane_poles (d : Device) (l : Nat) (f : Lane → Lane) : (d.modLane l f).poles = d.poles := rfl
@[simp] theorem Device.modLane_front (d : Device) (l : Nat) (f : Lane → Lane) : (d.modLane l f).front = d.front := rfl
@[simp] theorem Device.modLane_meter (d : Device) (l : Nat) (f : Lane → Lane) : (d.modLane l f).meter = d.meter := rfl
@[simp] theorem Device.modLane_tasks (d : Device) (l : Nat) (f : Lane → Lane) : (d.modLane l f).tasks = d.tasks := rfl
@[simp] theorem Device.modLane_slot3 (d : Device) (l : Nat) (f : Lane → Lane) : (d.modLane l f).slot3 = d.slot3 := rfl
@[simp] theorem Device.modLane_power (d : Device) (l : Nat) (f : Lane → Lane) : (d.modLane l f).power = d.power := rfl
@[simp] theorem Device.modLane_arms (d : Device) (l : Nat) (f : Lane → Lane) : (d.modLane l f).arms = d.arms := rfl
@[simp] theorem Device.modLane_lanes (d : Device) (l : Nat) (f : Lane → Lane) : (d.modLane l f).lanes = d.lanes.set l (f (d.lane l)) := rfl
@[simp] theorem Device.modLane_refs (d : Device) (l : Nat) (f : Lane → Lane) : (d.modLane l f).refs = d.refs := rfl
@[simp] theorem Device.modLane_refsNext (d : Device) (l : Nat) (f : Lane → Lane) : (d.modLane l f).refsNext = d.refsNext := rfl
@[simp] theorem Device.modLane_trigs (d : Device) (l : Nat) (f : Lane → Lane) : (d.modLane l f).trigs = d.trigs := rfl
@[simp] theorem Device.modLane_free (d : Device) (l : Nat) (f : Lane → Lane) : (d.modLane l f).free = d.free := rfl
@[simp] theorem Device.modLane_rd (d : Device) (l : Nat) (f : Lane → Lane) (i s : Nat) : (d.modLane l f).rd i s = d.rd i s := rfl

/-! ### `modPole` -/

@[simp] theorem Device.modPole_od (d : Device) (p : Nat) (f : PoleCtl → PoleCtl) : (d.modPole p f).od = d.od := rfl
@[simp] theorem Device.modPole_live (d : Device) (p : Nat) (f : PoleCtl → PoleCtl) : (d.modPole p f).live = d.live := rfl
@[simp] theorem Device.modPole_ring (d : Device) (p : Nat) (f : PoleCtl → PoleCtl) : (d.modPole p f).ring = d.ring := rfl
@[simp] theorem Device.modPole_recorder (d : Device) (p : Nat) (f : PoleCtl → PoleCtl) : (d.modPole p f).recorder = d.recorder := rfl
@[simp] theorem Device.modPole_recStream (d : Device) (p : Nat) (f : PoleCtl → PoleCtl) : (d.modPole p f).recStream = d.recStream := rfl
@[simp] theorem Device.modPole_time (d : Device) (p : Nat) (f : PoleCtl → PoleCtl) : (d.modPole p f).time = d.time := rfl
@[simp] theorem Device.modPole_life (d : Device) (p : Nat) (f : PoleCtl → PoleCtl) : (d.modPole p f).life = d.life := rfl
@[simp] theorem Device.modPole_barrier (d : Device) (p : Nat) (f : PoleCtl → PoleCtl) : (d.modPole p f).barrier = d.barrier := rfl
@[simp] theorem Device.modPole_boundary (d : Device) (p : Nat) (f : PoleCtl → PoleCtl) : (d.modPole p f).boundary = d.boundary := rfl
@[simp] theorem Device.modPole_station (d : Device) (p : Nat) (f : PoleCtl → PoleCtl) : (d.modPole p f).station = d.station := rfl
@[simp] theorem Device.modPole_boot (d : Device) (p : Nat) (f : PoleCtl → PoleCtl) : (d.modPole p f).boot = d.boot := rfl
@[simp] theorem Device.modPole_session (d : Device) (p : Nat) (f : PoleCtl → PoleCtl) : (d.modPole p f).session = d.session := rfl
@[simp] theorem Device.modPole_guard (d : Device) (p : Nat) (f : PoleCtl → PoleCtl) : (d.modPole p f).guard = d.guard := rfl
@[simp] theorem Device.modPole_timer (d : Device) (p : Nat) (f : PoleCtl → PoleCtl) : (d.modPole p f).timer = d.timer := rfl
@[simp] theorem Device.modPole_lease (d : Device) (p : Nat) (f : PoleCtl → PoleCtl) : (d.modPole p f).lease = d.lease := rfl
@[simp] theorem Device.modPole_twin (d : Device) (p : Nat) (f : PoleCtl → PoleCtl) : (d.modPole p f).twin = d.twin := rfl
@[simp] theorem Device.modPole_poles (d : Device) (p : Nat) (f : PoleCtl → PoleCtl) : (d.modPole p f).poles = d.poles.set p (f (d.pole p)) := rfl
@[simp] theorem Device.modPole_front (d : Device) (p : Nat) (f : PoleCtl → PoleCtl) : (d.modPole p f).front = d.front := rfl
@[simp] theorem Device.modPole_meter (d : Device) (p : Nat) (f : PoleCtl → PoleCtl) : (d.modPole p f).meter = d.meter := rfl
@[simp] theorem Device.modPole_tasks (d : Device) (p : Nat) (f : PoleCtl → PoleCtl) : (d.modPole p f).tasks = d.tasks := rfl
@[simp] theorem Device.modPole_slot3 (d : Device) (p : Nat) (f : PoleCtl → PoleCtl) : (d.modPole p f).slot3 = d.slot3 := rfl
@[simp] theorem Device.modPole_power (d : Device) (p : Nat) (f : PoleCtl → PoleCtl) : (d.modPole p f).power = d.power := rfl
@[simp] theorem Device.modPole_arms (d : Device) (p : Nat) (f : PoleCtl → PoleCtl) : (d.modPole p f).arms = d.arms := rfl
@[simp] theorem Device.modPole_lanes (d : Device) (p : Nat) (f : PoleCtl → PoleCtl) : (d.modPole p f).lanes = d.lanes := rfl
@[simp] theorem Device.modPole_refs (d : Device) (p : Nat) (f : PoleCtl → PoleCtl) : (d.modPole p f).refs = d.refs := rfl
@[simp] theorem Device.modPole_refsNext (d : Device) (p : Nat) (f : PoleCtl → PoleCtl) : (d.modPole p f).refsNext = d.refsNext := rfl
@[simp] theorem Device.modPole_trigs (d : Device) (p : Nat) (f : PoleCtl → PoleCtl) : (d.modPole p f).trigs = d.trigs := rfl
@[simp] theorem Device.modPole_free (d : Device) (p : Nat) (f : PoleCtl → PoleCtl) : (d.modPole p f).free = d.free := rfl
@[simp] theorem Device.modPole_rd (d : Device) (p : Nat) (f : PoleCtl → PoleCtl) (i s : Nat) : (d.modPole p f).rd i s = d.rd i s := rfl

/-! ### `modConv` -/

@[simp] theorem Device.modConv_od (d : Device) (c : Nat) (f : Conv → Conv) : (d.modConv c f).od = d.od := rfl
@[simp] theorem Device.modConv_live (d : Device) (c : Nat) (f : Conv → Conv) : (d.modConv c f).live = d.live := rfl
@[simp] theorem Device.modConv_ring (d : Device) (c : Nat) (f : Conv → Conv) : (d.modConv c f).ring = d.ring := rfl
@[simp] theorem Device.modConv_recorder (d : Device) (c : Nat) (f : Conv → Conv) : (d.modConv c f).recorder = d.recorder := rfl
@[simp] theorem Device.modConv_recStream (d : Device) (c : Nat) (f : Conv → Conv) : (d.modConv c f).recStream = d.recStream := rfl
@[simp] theorem Device.modConv_time (d : Device) (c : Nat) (f : Conv → Conv) : (d.modConv c f).time = d.time := rfl
@[simp] theorem Device.modConv_life (d : Device) (c : Nat) (f : Conv → Conv) : (d.modConv c f).life = d.life := rfl
@[simp] theorem Device.modConv_barrier (d : Device) (c : Nat) (f : Conv → Conv) : (d.modConv c f).barrier = d.barrier := rfl
@[simp] theorem Device.modConv_boundary (d : Device) (c : Nat) (f : Conv → Conv) : (d.modConv c f).boundary = d.boundary := rfl
@[simp] theorem Device.modConv_station (d : Device) (c : Nat) (f : Conv → Conv) : (d.modConv c f).station = d.station := rfl
@[simp] theorem Device.modConv_boot (d : Device) (c : Nat) (f : Conv → Conv) : (d.modConv c f).boot = d.boot := rfl
@[simp] theorem Device.modConv_session (d : Device) (c : Nat) (f : Conv → Conv) : (d.modConv c f).session = d.session := rfl
@[simp] theorem Device.modConv_guard (d : Device) (c : Nat) (f : Conv → Conv) : (d.modConv c f).guard = d.guard := rfl
@[simp] theorem Device.modConv_timer (d : Device) (c : Nat) (f : Conv → Conv) : (d.modConv c f).timer = d.timer := rfl
@[simp] theorem Device.modConv_lease (d : Device) (c : Nat) (f : Conv → Conv) : (d.modConv c f).lease = d.lease := rfl
@[simp] theorem Device.modConv_twin (d : Device) (c : Nat) (f : Conv → Conv) : (d.modConv c f).twin = d.twin := rfl
@[simp] theorem Device.modConv_poles (d : Device) (c : Nat) (f : Conv → Conv) : (d.modConv c f).poles = d.poles := rfl
@[simp] theorem Device.modConv_meter (d : Device) (c : Nat) (f : Conv → Conv) : (d.modConv c f).meter = d.meter := rfl
@[simp] theorem Device.modConv_tasks (d : Device) (c : Nat) (f : Conv → Conv) : (d.modConv c f).tasks = d.tasks := rfl
@[simp] theorem Device.modConv_slot3 (d : Device) (c : Nat) (f : Conv → Conv) : (d.modConv c f).slot3 = d.slot3 := rfl
@[simp] theorem Device.modConv_power (d : Device) (c : Nat) (f : Conv → Conv) : (d.modConv c f).power = d.power := rfl
@[simp] theorem Device.modConv_arms (d : Device) (c : Nat) (f : Conv → Conv) : (d.modConv c f).arms = d.arms := rfl
@[simp] theorem Device.modConv_lanes (d : Device) (c : Nat) (f : Conv → Conv) : (d.modConv c f).lanes = d.lanes := rfl
@[simp] theorem Device.modConv_refs (d : Device) (c : Nat) (f : Conv → Conv) : (d.modConv c f).refs = d.refs := rfl
@[simp] theorem Device.modConv_refsNext (d : Device) (c : Nat) (f : Conv → Conv) : (d.modConv c f).refsNext = d.refsNext := rfl
@[simp] theorem Device.modConv_trigs (d : Device) (c : Nat) (f : Conv → Conv) : (d.modConv c f).trigs = d.trigs := rfl
@[simp] theorem Device.modConv_free (d : Device) (c : Nat) (f : Conv → Conv) : (d.modConv c f).free = d.free := rfl
@[simp] theorem Device.modConv_rd (d : Device) (c : Nat) (f : Conv → Conv) (i s : Nat) : (d.modConv c f).rd i s = d.rd i s := rfl

/-! ### `modTask` -/

@[simp] theorem Device.modTask_od (d : Device) (t : Nat) (f : TaskCtl → TaskCtl) : (d.modTask t f).od = d.od := rfl
@[simp] theorem Device.modTask_live (d : Device) (t : Nat) (f : TaskCtl → TaskCtl) : (d.modTask t f).live = d.live := rfl
@[simp] theorem Device.modTask_ring (d : Device) (t : Nat) (f : TaskCtl → TaskCtl) : (d.modTask t f).ring = d.ring := rfl
@[simp] theorem Device.modTask_recorder (d : Device) (t : Nat) (f : TaskCtl → TaskCtl) : (d.modTask t f).recorder = d.recorder := rfl
@[simp] theorem Device.modTask_recStream (d : Device) (t : Nat) (f : TaskCtl → TaskCtl) : (d.modTask t f).recStream = d.recStream := rfl
@[simp] theorem Device.modTask_time (d : Device) (t : Nat) (f : TaskCtl → TaskCtl) : (d.modTask t f).time = d.time := rfl
@[simp] theorem Device.modTask_life (d : Device) (t : Nat) (f : TaskCtl → TaskCtl) : (d.modTask t f).life = d.life := rfl
@[simp] theorem Device.modTask_barrier (d : Device) (t : Nat) (f : TaskCtl → TaskCtl) : (d.modTask t f).barrier = d.barrier := rfl
@[simp] theorem Device.modTask_boundary (d : Device) (t : Nat) (f : TaskCtl → TaskCtl) : (d.modTask t f).boundary = d.boundary := rfl
@[simp] theorem Device.modTask_station (d : Device) (t : Nat) (f : TaskCtl → TaskCtl) : (d.modTask t f).station = d.station := rfl
@[simp] theorem Device.modTask_boot (d : Device) (t : Nat) (f : TaskCtl → TaskCtl) : (d.modTask t f).boot = d.boot := rfl
@[simp] theorem Device.modTask_session (d : Device) (t : Nat) (f : TaskCtl → TaskCtl) : (d.modTask t f).session = d.session := rfl
@[simp] theorem Device.modTask_guard (d : Device) (t : Nat) (f : TaskCtl → TaskCtl) : (d.modTask t f).guard = d.guard := rfl
@[simp] theorem Device.modTask_timer (d : Device) (t : Nat) (f : TaskCtl → TaskCtl) : (d.modTask t f).timer = d.timer := rfl
@[simp] theorem Device.modTask_lease (d : Device) (t : Nat) (f : TaskCtl → TaskCtl) : (d.modTask t f).lease = d.lease := rfl
@[simp] theorem Device.modTask_twin (d : Device) (t : Nat) (f : TaskCtl → TaskCtl) : (d.modTask t f).twin = d.twin := rfl
@[simp] theorem Device.modTask_poles (d : Device) (t : Nat) (f : TaskCtl → TaskCtl) : (d.modTask t f).poles = d.poles := rfl
@[simp] theorem Device.modTask_front (d : Device) (t : Nat) (f : TaskCtl → TaskCtl) : (d.modTask t f).front = d.front := rfl
@[simp] theorem Device.modTask_meter (d : Device) (t : Nat) (f : TaskCtl → TaskCtl) : (d.modTask t f).meter = d.meter := rfl
@[simp] theorem Device.modTask_tasks (d : Device) (t : Nat) (f : TaskCtl → TaskCtl) : (d.modTask t f).tasks = d.tasks.set t (f (d.task t)) := rfl
@[simp] theorem Device.modTask_slot3 (d : Device) (t : Nat) (f : TaskCtl → TaskCtl) : (d.modTask t f).slot3 = d.slot3 := rfl
@[simp] theorem Device.modTask_power (d : Device) (t : Nat) (f : TaskCtl → TaskCtl) : (d.modTask t f).power = d.power := rfl
@[simp] theorem Device.modTask_arms (d : Device) (t : Nat) (f : TaskCtl → TaskCtl) : (d.modTask t f).arms = d.arms := rfl
@[simp] theorem Device.modTask_lanes (d : Device) (t : Nat) (f : TaskCtl → TaskCtl) : (d.modTask t f).lanes = d.lanes := rfl
@[simp] theorem Device.modTask_refs (d : Device) (t : Nat) (f : TaskCtl → TaskCtl) : (d.modTask t f).refs = d.refs := rfl
@[simp] theorem Device.modTask_refsNext (d : Device) (t : Nat) (f : TaskCtl → TaskCtl) : (d.modTask t f).refsNext = d.refsNext := rfl
@[simp] theorem Device.modTask_trigs (d : Device) (t : Nat) (f : TaskCtl → TaskCtl) : (d.modTask t f).trigs = d.trigs := rfl
@[simp] theorem Device.modTask_free (d : Device) (t : Nat) (f : TaskCtl → TaskCtl) : (d.modTask t f).free = d.free := rfl
@[simp] theorem Device.modTask_rd (d : Device) (t : Nat) (f : TaskCtl → TaskCtl) (i s : Nat) : (d.modTask t f).rd i s = d.rd i s := rfl

/-! ### `event` -/

@[simp] theorem Device.event_od (d : Device) (idx sub level : Nat) (data : List (Nat × Nat)) : (d.event idx sub level data).od = d.od := rfl
@[simp] theorem Device.event_live (d : Device) (idx sub level : Nat) (data : List (Nat × Nat)) : (d.event idx sub level data).live = d.live := rfl
@[simp] theorem Device.event_recorder (d : Device) (idx sub level : Nat) (data : List (Nat × Nat)) : (d.event idx sub level data).recorder = d.recorder := rfl
@[simp] theorem Device.event_recStream (d : Device) (idx sub level : Nat) (data : List (Nat × Nat)) : (d.event idx sub level data).recStream = d.recStream := rfl
@[simp] theorem Device.event_time (d : Device) (idx sub level : Nat) (data : List (Nat × Nat)) : (d.event idx sub level data).time = d.time := rfl
@[simp] theorem Device.event_life (d : Device) (idx sub level : Nat) (data : List (Nat × Nat)) : (d.event idx sub level data).life = d.life := rfl
@[simp] theorem Device.event_barrier (d : Device) (idx sub level : Nat) (data : List (Nat × Nat)) : (d.event idx sub level data).barrier = d.barrier := rfl
@[simp] theorem Device.event_boundary (d : Device) (idx sub level : Nat) (data : List (Nat × Nat)) : (d.event idx sub level data).boundary = d.boundary := rfl
@[simp] theorem Device.event_station (d : Device) (idx sub level : Nat) (data : List (Nat × Nat)) : (d.event idx sub level data).station = d.station := rfl
@[simp] theorem Device.event_boot (d : Device) (idx sub level : Nat) (data : List (Nat × Nat)) : (d.event idx sub level data).boot = d.boot := rfl
@[simp] theorem Device.event_session (d : Device) (idx sub level : Nat) (data : List (Nat × Nat)) : (d.event idx sub level data).session = d.session := rfl
@[simp] theorem Device.event_guard (d : Device) (idx sub level : Nat) (data : List (Nat × Nat)) : (d.event idx sub level data).guard = d.guard := rfl
@[simp] theorem Device.event_timer (d : Device) (idx sub level : Nat) (data : List (Nat × Nat)) : (d.event idx sub level data).timer = d.timer := rfl
@[simp] theorem Device.event_lease (d : Device) (idx sub level : Nat) (data : List (Nat × Nat)) : (d.event idx sub level data).lease = d.lease := rfl
@[simp] theorem Device.event_twin (d : Device) (idx sub level : Nat) (data : List (Nat × Nat)) : (d.event idx sub level data).twin = d.twin := rfl
@[simp] theorem Device.event_poles (d : Device) (idx sub level : Nat) (data : List (Nat × Nat)) : (d.event idx sub level data).poles = d.poles := rfl
@[simp] theorem Device.event_front (d : Device) (idx sub level : Nat) (data : List (Nat × Nat)) : (d.event idx sub level data).front = d.front := rfl
@[simp] theorem Device.event_meter (d : Device) (idx sub level : Nat) (data : List (Nat × Nat)) : (d.event idx sub level data).meter = d.meter := rfl
@[simp] theorem Device.event_tasks (d : Device) (idx sub level : Nat) (data : List (Nat × Nat)) : (d.event idx sub level data).tasks = d.tasks := rfl
@[simp] theorem Device.event_slot3 (d : Device) (idx sub level : Nat) (data : List (Nat × Nat)) : (d.event idx sub level data).slot3 = d.slot3 := rfl
@[simp] theorem Device.event_power (d : Device) (idx sub level : Nat) (data : List (Nat × Nat)) : (d.event idx sub level data).power = d.power := rfl
@[simp] theorem Device.event_arms (d : Device) (idx sub level : Nat) (data : List (Nat × Nat)) : (d.event idx sub level data).arms = d.arms := rfl
@[simp] theorem Device.event_lanes (d : Device) (idx sub level : Nat) (data : List (Nat × Nat)) : (d.event idx sub level data).lanes = d.lanes := rfl
@[simp] theorem Device.event_refs (d : Device) (idx sub level : Nat) (data : List (Nat × Nat)) : (d.event idx sub level data).refs = d.refs := rfl
@[simp] theorem Device.event_refsNext (d : Device) (idx sub level : Nat) (data : List (Nat × Nat)) : (d.event idx sub level data).refsNext = d.refsNext := rfl
@[simp] theorem Device.event_trigs (d : Device) (idx sub level : Nat) (data : List (Nat × Nat)) : (d.event idx sub level data).trigs = d.trigs := rfl
@[simp] theorem Device.event_free (d : Device) (idx sub level : Nat) (data : List (Nat × Nat)) : (d.event idx sub level data).free = d.free := rfl
@[simp] theorem Device.event_rd (d : Device) (idx sub level : Nat) (data : List (Nat × Nat)) (i s : Nat) : (d.event idx sub level data).rd i s = d.rd i s := rfl

/-! ### `noteTrigger` -/

@[simp] theorem Device.noteTrigger_od (d : Device) (b : Nat) : (d.noteTrigger b).od = d.od := rfl
@[simp] theorem Device.noteTrigger_live (d : Device) (b : Nat) : (d.noteTrigger b).live = d.live := rfl
@[simp] theorem Device.noteTrigger_ring (d : Device) (b : Nat) : (d.noteTrigger b).ring = d.ring := rfl
@[simp] theorem Device.noteTrigger_recorder (d : Device) (b : Nat) : (d.noteTrigger b).recorder = d.recorder := rfl
@[simp] theorem Device.noteTrigger_recStream (d : Device) (b : Nat) : (d.noteTrigger b).recStream = d.recStream := rfl
@[simp] theorem Device.noteTrigger_time (d : Device) (b : Nat) : (d.noteTrigger b).time = d.time := rfl
@[simp] theorem Device.noteTrigger_life (d : Device) (b : Nat) : (d.noteTrigger b).life = d.life := rfl
@[simp] theorem Device.noteTrigger_barrier (d : Device) (b : Nat) : (d.noteTrigger b).barrier = d.barrier := rfl
@[simp] theorem Device.noteTrigger_boundary (d : Device) (b : Nat) : (d.noteTrigger b).boundary = d.boundary := rfl
@[simp] theorem Device.noteTrigger_station (d : Device) (b : Nat) : (d.noteTrigger b).station = d.station := rfl
@[simp] theorem Device.noteTrigger_boot (d : Device) (b : Nat) : (d.noteTrigger b).boot = d.boot := rfl
@[simp] theorem Device.noteTrigger_session (d : Device) (b : Nat) : (d.noteTrigger b).session = d.session := rfl
@[simp] theorem Device.noteTrigger_guard (d : Device) (b : Nat) : (d.noteTrigger b).guard = d.guard := rfl
@[simp] theorem Device.noteTrigger_timer (d : Device) (b : Nat) : (d.noteTrigger b).timer = d.timer := rfl
@[simp] theorem Device.noteTrigger_lease (d : Device) (b : Nat) : (d.noteTrigger b).lease = d.lease := rfl
@[simp] theorem Device.noteTrigger_twin (d : Device) (b : Nat) : (d.noteTrigger b).twin = d.twin := rfl
@[simp] theorem Device.noteTrigger_poles (d : Device) (b : Nat) : (d.noteTrigger b).poles = d.poles := rfl
@[simp] theorem Device.noteTrigger_front (d : Device) (b : Nat) : (d.noteTrigger b).front = d.front := rfl
@[simp] theorem Device.noteTrigger_meter (d : Device) (b : Nat) : (d.noteTrigger b).meter = d.meter := rfl
@[simp] theorem Device.noteTrigger_tasks (d : Device) (b : Nat) : (d.noteTrigger b).tasks = d.tasks := rfl
@[simp] theorem Device.noteTrigger_slot3 (d : Device) (b : Nat) : (d.noteTrigger b).slot3 = d.slot3 := rfl
@[simp] theorem Device.noteTrigger_power (d : Device) (b : Nat) : (d.noteTrigger b).power = d.power := rfl
@[simp] theorem Device.noteTrigger_arms (d : Device) (b : Nat) : (d.noteTrigger b).arms = d.arms := rfl
@[simp] theorem Device.noteTrigger_lanes (d : Device) (b : Nat) : (d.noteTrigger b).lanes = d.lanes := rfl
@[simp] theorem Device.noteTrigger_refs (d : Device) (b : Nat) : (d.noteTrigger b).refs = d.refs := rfl
@[simp] theorem Device.noteTrigger_refsNext (d : Device) (b : Nat) : (d.noteTrigger b).refsNext = d.refsNext := rfl
@[simp] theorem Device.noteTrigger_free (d : Device) (b : Nat) : (d.noteTrigger b).free = d.free := rfl
@[simp] theorem Device.noteTrigger_rd (d : Device) (b : Nat) (i s : Nat) : (d.noteTrigger b).rd i s = d.rd i s := rfl

/-! ### `done` -/

@[simp] theorem Device.done_od (d : Device) : (d.done).od = d.od := rfl
@[simp] theorem Device.done_live (d : Device) : (d.done).live = d.live := rfl
@[simp] theorem Device.done_ring (d : Device) : (d.done).ring = d.ring := rfl
@[simp] theorem Device.done_recorder (d : Device) : (d.done).recorder = d.recorder := rfl
@[simp] theorem Device.done_recStream (d : Device) : (d.done).recStream = d.recStream := rfl
@[simp] theorem Device.done_time (d : Device) : (d.done).time = d.time := rfl
@[simp] theorem Device.done_life (d : Device) : (d.done).life = d.life := rfl
@[simp] theorem Device.done_barrier (d : Device) : (d.done).barrier = d.barrier := rfl
@[simp] theorem Device.done_boundary (d : Device) : (d.done).boundary = d.boundary := rfl
@[simp] theorem Device.done_boot (d : Device) : (d.done).boot = d.boot := rfl
@[simp] theorem Device.done_session (d : Device) : (d.done).session = d.session := rfl
@[simp] theorem Device.done_guard (d : Device) : (d.done).guard = d.guard := rfl
@[simp] theorem Device.done_timer (d : Device) : (d.done).timer = d.timer := rfl
@[simp] theorem Device.done_lease (d : Device) : (d.done).lease = d.lease := rfl
@[simp] theorem Device.done_twin (d : Device) : (d.done).twin = d.twin := rfl
@[simp] theorem Device.done_poles (d : Device) : (d.done).poles = d.poles := rfl
@[simp] theorem Device.done_front (d : Device) : (d.done).front = d.front := rfl
@[simp] theorem Device.done_meter (d : Device) : (d.done).meter = d.meter := rfl
@[simp] theorem Device.done_tasks (d : Device) : (d.done).tasks = d.tasks := rfl
@[simp] theorem Device.done_slot3 (d : Device) : (d.done).slot3 = d.slot3 := rfl
@[simp] theorem Device.done_power (d : Device) : (d.done).power = d.power := rfl
@[simp] theorem Device.done_arms (d : Device) : (d.done).arms = d.arms := rfl
@[simp] theorem Device.done_lanes (d : Device) : (d.done).lanes = d.lanes := rfl
@[simp] theorem Device.done_refs (d : Device) : (d.done).refs = d.refs := rfl
@[simp] theorem Device.done_refsNext (d : Device) : (d.done).refsNext = d.refsNext := rfl
@[simp] theorem Device.done_trigs (d : Device) : (d.done).trigs = d.trigs := rfl
@[simp] theorem Device.done_free (d : Device) : (d.done).free = d.free := rfl
@[simp] theorem Device.done_rd (d : Device) (i s : Nat) : (d.done).rd i s = d.rd i s := rfl

/-! ### `setStage` -/

@[simp] theorem Device.setStage_od (d : Device) (k : Nat) : (d.setStage k).od = d.od := rfl
@[simp] theorem Device.setStage_live (d : Device) (k : Nat) : (d.setStage k).live = d.live := rfl
@[simp] theorem Device.setStage_ring (d : Device) (k : Nat) : (d.setStage k).ring = d.ring := rfl
@[simp] theorem Device.setStage_recorder (d : Device) (k : Nat) : (d.setStage k).recorder = d.recorder := rfl
@[simp] theorem Device.setStage_recStream (d : Device) (k : Nat) : (d.setStage k).recStream = d.recStream := rfl
@[simp] theorem Device.setStage_time (d : Device) (k : Nat) : (d.setStage k).time = d.time := rfl
@[simp] theorem Device.setStage_life (d : Device) (k : Nat) : (d.setStage k).life = d.life := rfl
@[simp] theorem Device.setStage_barrier (d : Device) (k : Nat) : (d.setStage k).barrier = d.barrier := rfl
@[simp] theorem Device.setStage_boundary (d : Device) (k : Nat) : (d.setStage k).boundary = d.boundary := rfl
@[simp] theorem Device.setStage_station (d : Device) (k : Nat) : (d.setStage k).station = d.station := rfl
@[simp] theorem Device.setStage_boot (d : Device) (k : Nat) : (d.setStage k).boot = d.boot := rfl
@[simp] theorem Device.setStage_session (d : Device) (k : Nat) : (d.setStage k).session = d.session := rfl
@[simp] theorem Device.setStage_guard (d : Device) (k : Nat) : (d.setStage k).guard = d.guard := rfl
@[simp] theorem Device.setStage_lease (d : Device) (k : Nat) : (d.setStage k).lease = d.lease := rfl
@[simp] theorem Device.setStage_twin (d : Device) (k : Nat) : (d.setStage k).twin = d.twin := rfl
@[simp] theorem Device.setStage_poles (d : Device) (k : Nat) : (d.setStage k).poles = d.poles := rfl
@[simp] theorem Device.setStage_front (d : Device) (k : Nat) : (d.setStage k).front = d.front := rfl
@[simp] theorem Device.setStage_meter (d : Device) (k : Nat) : (d.setStage k).meter = d.meter := rfl
@[simp] theorem Device.setStage_tasks (d : Device) (k : Nat) : (d.setStage k).tasks = d.tasks := rfl
@[simp] theorem Device.setStage_slot3 (d : Device) (k : Nat) : (d.setStage k).slot3 = d.slot3 := rfl
@[simp] theorem Device.setStage_power (d : Device) (k : Nat) : (d.setStage k).power = d.power := rfl
@[simp] theorem Device.setStage_arms (d : Device) (k : Nat) : (d.setStage k).arms = d.arms := rfl
@[simp] theorem Device.setStage_lanes (d : Device) (k : Nat) : (d.setStage k).lanes = d.lanes := rfl
@[simp] theorem Device.setStage_refs (d : Device) (k : Nat) : (d.setStage k).refs = d.refs := rfl
@[simp] theorem Device.setStage_refsNext (d : Device) (k : Nat) : (d.setStage k).refsNext = d.refsNext := rfl
@[simp] theorem Device.setStage_trigs (d : Device) (k : Nat) : (d.setStage k).trigs = d.trigs := rfl
@[simp] theorem Device.setStage_free (d : Device) (k : Nat) : (d.setStage k).free = d.free := rfl
@[simp] theorem Device.setStage_rd (d : Device) (k : Nat) (i s : Nat) : (d.setStage k).rd i s = d.rd i s := rfl

/-! ### One element of a part -/

/-- The lane changed. -/
theorem Device.lane_modLane_same {d : Device} (h : d.Sound) {i : Nat} (f : Lane → Lane) (hi : i < 32) :
    (d.modLane i f).lane i = f (d.lane i) := by
  have := h.lanes
  simp [Device.modLane, Device.lane, List.getD_eq_getElem?_getD, *]

/-- Every other lane. -/
theorem Device.lane_modLane_other (d : Device) {i j : Nat} (f : Lane → Lane) (hj : j ≠ i) : (d.modLane i f).lane j = d.lane j := by
  simp [Device.modLane, Device.lane, List.getD_eq_getElem?_getD, List.getElem?_set_ne (Ne.symm hj)]

/-- The arm changed. -/
theorem Device.arm_modArm_same {d : Device} (h : d.Sound) {i : Nat} (f : Arm → Arm) (hi : i < 12) :
    (d.modArm i f).arm i = f (d.arm i) := by
  have := h.arms
  simp [Device.modArm, Device.arm, List.getD_eq_getElem?_getD, *]

/-- Every other arm. -/
theorem Device.arm_modArm_other (d : Device) {i j : Nat} (f : Arm → Arm) (hj : j ≠ i) : (d.modArm i f).arm j = d.arm j := by
  simp [Device.modArm, Device.arm, List.getD_eq_getElem?_getD, List.getElem?_set_ne (Ne.symm hj)]

/-- The pole changed. -/
theorem Device.pole_modPole_same {d : Device} (h : d.Sound) {i : Nat} (f : PoleCtl → PoleCtl) (hi : i < 2) :
    (d.modPole i f).pole i = f (d.pole i) := by
  have := h.poles
  simp [Device.modPole, Device.pole, List.getD_eq_getElem?_getD, *]

/-- Every other pole. -/
theorem Device.pole_modPole_other (d : Device) {i j : Nat} (f : PoleCtl → PoleCtl) (hj : j ≠ i) : (d.modPole i f).pole j = d.pole j := by
  simp [Device.modPole, Device.pole, List.getD_eq_getElem?_getD, List.getElem?_set_ne (Ne.symm hj)]

/-- The task changed. -/
theorem Device.task_modTask_same {d : Device} (h : d.Sound) {i : Nat} (f : TaskCtl → TaskCtl) (hi : i < 8) :
    (d.modTask i f).task i = f (d.task i) := by
  have := h.tasks
  simp [Device.modTask, Device.task, List.getD_eq_getElem?_getD, *]

/-- Every other task. -/
theorem Device.task_modTask_other (d : Device) {i j : Nat} (f : TaskCtl → TaskCtl) (hj : j ≠ i) : (d.modTask i f).task j = d.task j := by
  simp [Device.modTask, Device.task, List.getD_eq_getElem?_getD, List.getElem?_set_ne (Ne.symm hj)]

/-- The converter channel changed. -/
theorem Device.conv_modConv_same {d : Device} (h : d.Sound) {i : Nat} (f : Conv → Conv) (hi : i < 32) :
    (d.modConv i f).conv i = f (d.conv i) := by
  have := h.convs
  simp [Device.modConv, Device.conv, List.getD_eq_getElem?_getD, *]

/-- Every other converter channel. -/
theorem Device.conv_modConv_other (d : Device) {i j : Nat} (f : Conv → Conv) (hj : j ≠ i) : (d.modConv i f).conv j = d.conv j := by
  simp [Device.modConv, Device.conv, List.getD_eq_getElem?_getD, List.getElem?_set_ne (Ne.symm hj)]

end Sys2Proof.Machine
end

