-- ==== Sys2Proof/Certificates/Slice0/Obligations.lean ====
section
/-! DEFINITION. The statements about the model, for the provers. -/
set_option linter.unusedVariables false

open Sys2Proof Sys2Proof.Machine

/-! ### The Minak lanes (spec/09_minak_lanes.md, spec/10_minak_frames.md) -/

/-- R297 to R299, R315, R24: a loss of signal, lock or alignment that begins is counted and shown; in a lane that is not OPERATIONAL nothing
else changes, and its end changes only the detector. The receiver of an unused lane is not monitored. In OPERATIONAL the lane enters
FAULT with cause 1 or 2. R302, R304, R309, R315: what ends a bring-up in FAULT. A timeout of HANDSHAKE, RANGING or STEP, once the time
of Table 9.3 has elapsed, and a rejection by the concentrator take the lane to FAULT with the cause of Table 9.6, at the tick shown,
with the transmitter quiet and the entry counted. The cause of a NACK with an unlisted reason is the model's choice (assumption log 26).
A command whose event cannot occur changes nothing (assumption log 7). -/
def Obligations.LaneFaultSources : Prop :=
  (∀ (l : Nat) (s : State), l < 32 → s.dev.Sound →
    (Answers (.losClear l) s fun e => e.lane l = { s.dev.lane l with los := false } ∧ s.dev.OnlyLane e l []) ∧
    (Answers (.lolClear l) s fun e => e.lane l = { s.dev.lane l with lol := false } ∧ s.dev.OnlyLane e l []) ∧
    (s.dev.laneState l = 0 → (Answers (.losAssert l) s fun e => e = s.dev) ∧ (Answers (.lolAssert l) s fun e => e = s.dev)) ∧
    ((s.dev.lane l).los = false → s.dev.laneState l ≠ 8 → s.dev.laneState l ≠ 0 →
      Answers (.losAssert l) s fun e => e.lane l = { s.dev.lane l with los := true } ∧
        e.rd (laneIdx l) 0x12 = min (2 ^ 32 - 1) (s.dev.rd (laneIdx l) 0x12 + 1) ∧
        s.dev.OnlyLane e l [odKey (laneIdx l) 0x12, odKey (laneIdx l) 0x13, odKey 0x9000 1]) ∧
    ((s.dev.lane l).lol = false → s.dev.laneState l ≠ 8 → s.dev.laneState l ≠ 0 →
      Answers (.lolAssert l) s fun e => e.lane l = { s.dev.lane l with lol := true } ∧
        e.rd (laneIdx l) 0x14 = min (2 ^ 32 - 1) (s.dev.rd (laneIdx l) 0x14 + 1) ∧
        s.dev.OnlyLane e l [odKey (laneIdx l) 0x14, odKey (laneIdx l) 0x15, odKey 0x9000 1]) ∧
    ((s.dev.lane l).aligned = true → s.dev.laneState l ≠ 8 → s.dev.manualAlign l = false →
      Answers (.alignmentLost l) s fun e => e.lane l = { s.dev.lane l with aligned := false, clean := false } ∧
        e.rd (laneIdx l) 0x16 = min (2 ^ 32 - 1) (s.dev.rd (laneIdx l) 0x16 + 1) ∧ e.rd (laneIdx l) 0x4A = 0 ∧
        s.dev.OnlyLane e l [odKey (laneIdx l) 0x16, odKey (laneIdx l) 0x17, odKey (laneIdx l) 0x4A, odKey 0x9000 1]) ∧
    ((s.dev.lane l).los = false → s.dev.laneState l = 8 →
      Answers (.losAssert l) s fun e =>
        e = ((s.dev.modLane l fun x => { x with los := true }).bump (laneIdx l) 0x12 0x13).laneFault l 1) ∧
    ((s.dev.lane l).lol = false → s.dev.laneState l = 8 →
      Answers (.lolAssert l) s fun e =>
        e = ((s.dev.modLane l fun x => { x with lol := true }).bump (laneIdx l) 0x14 0x15).laneFault l 2)) ∧
  (∀ (l lf reason : Nat) (s : State), l < 32 → s.dev.Sound →
    (s.dev.laneState l = 3 → s.dev.laneLasted l 20000 = true → Answers (.handshakeTimeout l) s fun e => s.dev.LaneFaulted e l 8) ∧
    (s.dev.laneState l = 4 → s.dev.laneLasted l 20000 = true → Answers (.rangingTimeout l) s fun e => s.dev.LaneFaulted e l 8) ∧
    (s.dev.laneState l = 5 → s.dev.laneLasted l 2000 = true → Answers (.stepTimeout l) s fun e => s.dev.LaneFaulted e l 8) ∧
    (s.dev.laneLasted l 2000 = false → Answers (.stepTimeout l) s fun e => e = s.dev) ∧
    (s.dev.laneState l = 3 → s.dev.heardOnce l 0x0B lf (reason % 256 * 2 ^ 32) → lf = l →
      Answers (.nackReceived l lf reason) s fun e => s.dev.LaneFaulted e l (if 1 ≤ reason ∧ reason ≤ 3 then 7 else 8)) ∧
    (s.dev.laneState l = 3 → s.dev.heardOnce l 0x0B lf (reason % 256 * 2 ^ 32) → lf ≠ l →
      Answers (.nackReceived l lf reason) s fun e => s.dev.LaneFaulted e l 8) ∧
    (¬ s.dev.heardOnce l 0x0B lf (reason % 256 * 2 ^ 32) →
      Answers (.nackReceived l lf reason) s fun e =>
        e.lane l = { s.dev.lane l with seen := some (messageWord 0x0B lf (reason % 256 * 2 ^ 32)) } ∧ s.dev.OnlyLane e l []))

/-- R300 to R302, Table 9.3: the steps of bring-up up to HANDSHAKE, and the way back from FAULT. R304, R305, R309: what the messages of
HANDSHAKE, received twice, leave before all three have come: TRAIN is noted, CAPABILITY and IDENTITY are also shown in 0x5530 + l .0C,
.0D and .0B; with the LANE field of another lane each ends in FAULT with cause 8. Messages and their repetitions follow assumption log
26. -/
def Obligations.LaneBringUp : Prop :=
  (∀ (l pos words : Nat) (s : State), l < 32 → s.dev.Sound →
    (s.dev.laneState l = 1 → (s.dev.lane l).los = false → (s.dev.lane l).lol = false →
      Answers (.signalSettled l) s fun e => e.laneState l = 2 ∧ e.rd (laneIdx l) 0x49 = 0 ∧ e.rd (laneIdx l) 0x4A = 0 ∧
        s.dev.OnlyLane e l (laneStateKeys l ++ [odKey (laneIdx l) 0x49, odKey (laneIdx l) 0x4A])) ∧
    (s.dev.laneState l = 2 → 64 ≤ words → s.dev.manualAlign l = false →
      Answers (.alignmentAchieved l pos words) s fun e => e.laneState l = 3 ∧ (e.lane l).aligned = true ∧
        (e.lane l).gotTrain = false ∧ (e.lane l).config = none ∧ e.Sends l 1 ∧
        e.rd (laneIdx l) 0x49 = pos % wordWidth (s.dev.rd (laneIdx l) 6) ∧ e.rd (laneIdx l) 0x4A = min words 65535 ∧
        s.dev.OnlyLaneSends e l (laneStateKeys l ++ [odKey (laneIdx l) 0x49, odKey (laneIdx l) 0x4A])) ∧
    (s.dev.laneState l = 2 → words < 64 → s.dev.manualAlign l = true →
      Answers (.alignmentAchieved l pos words) s fun e => e.rd (laneIdx l) 0x4A = words ∧
        s.dev.OnlyEntries e [odKey (laneIdx l) 0x4A]) ∧
    (s.dev.laneState l = 2 → s.dev.manualAlign l = false →
      Answers (.alignmentSearchFail l) s fun e => e.laneState l = 1 ∧ s.dev.OnlyLane e l (laneStateKeys l)) ∧
    (s.dev.laneState l = 9 → s.dev.laneCells l ≠ 0 → s.dev.laneLasted l 1000 = true →
      Answers (.laneQuietExpiry l) s fun e => e.laneState l = 1 ∧ e.rd (laneIdx l) 6 = 0 ∧ e.rd (laneIdx l) 7 = 0 ∧
        s.dev.OnlyLane e l (laneStateKeys l ++ [odKey (laneIdx l) 6, odKey (laneIdx l) 7]))) ∧
  (∀ (l lf cleanUs mask largest version identity : Nat) (s : State), l < 32 → s.dev.Sound → s.dev.laneState l = 3 →
    (lf = l → (s.dev.lane l).gotCap = false →
      Answers (.trainReceived l lf cleanUs) s fun e =>
        e.lane l = { s.dev.lane l with seen := none, gotTrain := true } ∧ s.dev.OnlyLane e l []) ∧
    (lf = l → (s.dev.lane l).gotTrain = false → s.dev.heardOnce l 2 lf (mask % 16 * 2 ^ 36 + largest % 512 * 2 ^ 27) →
      Answers (.capabilityReceived l lf mask largest) s fun e =>
        e.lane l = { s.dev.lane l with gotCap := true } ∧
        e.rd (laneIdx l) 0x0C = mask % 16 + largest % 512 * 16 ∧ s.dev.OnlyLane e l [odKey (laneIdx l) 0x0C]) ∧
    (lf = l → (s.dev.lane l).gotTrain = false → s.dev.heardOnce l 3 lf (version % 256 * 2 ^ 32 + identity % 2 ^ 32) →
      Answers (.identityReceived l lf version identity) s fun e =>
        e.lane l = { s.dev.lane l with gotId := true } ∧
        e.rd (laneIdx l) 0x0D = version % 2 ^ 8 ∧ e.rd (laneIdx l) 0x0B = identity % 2 ^ 32 ∧
        s.dev.OnlyLane e l [odKey (laneIdx l) 0x0D, odKey (laneIdx l) 0x0B]) ∧
    (lf ≠ l →
      (Answers (.trainReceived l lf cleanUs) s fun e => s.dev.LaneFaulted e l 8) ∧
      (s.dev.heardOnce l 2 lf (mask % 16 * 2 ^ 36 + largest % 512 * 2 ^ 27) →
        Answers (.capabilityReceived l lf mask largest) s fun e => s.dev.LaneFaulted e l 8) ∧
      (s.dev.heardOnce l 3 lf (version % 256 * 2 ^ 32 + identity % 2 ^ 32) →
        Answers (.identityReceived l lf version identity) s fun e => s.dev.LaneFaulted e l 8)))

/-- R302, R304, R306, R307, R310: from CONFIG-ACK to the top rate, each message having come twice. A lane that has not trained in its time
falls back to the rate before through a rate step. Messages and their repetitions follow assumption log 26. A command whose event cannot
occur changes nothing (assumption log 7). -/
def Obligations.LaneRates : Prop :=
  ∀ (l body cycles dc rate cleanUs : Nat) (s : State), l < 32 → s.dev.Sound →
    (s.dev.laneState l = 3 → (s.dev.lane l).config = some (body % 2 ^ 40) → s.dev.heardOnce l 5 l body →
      Answers (.configAckReceived l l body) s fun e => e.laneState l = 4 ∧ (e.lane l).echoes = [] ∧ e.Sends l 6 ∧
        s.dev.OnlyLaneSends e l (laneStateKeys l)) ∧
    (s.dev.laneState l = 4 → (s.dev.lane l).echoes.length < 15 → s.dev.heardOnce l 7 l (dc % 2 ^ 16 * 2 ^ 24 + (s.dev.lane l).message % 2 ^ 24) →
      (s.dev.lane l).echoed ≠ (s.dev.lane l).seen →
      Answers (.rangeEchoReceived l cycles dc) s fun e =>
        (e.lane l).echoes = (((5 * cycles : Nat) : Int) - ((4 * dc : Nat) : Int)) :: (s.dev.lane l).echoes ∧
        e.Sends l 6 ∧ s.dev.OnlyLaneSends e l []) ∧
    ((s.dev.laneState l = 5 ∨ s.dev.laneState l = 6 ∧ s.dev.fallingBack l = true) → rate = (s.dev.lane l).stepTo → rate < 4 →
      s.dev.heardOnce l 9 l (rate % 16 * 2 ^ 36) →
      Answers (.rateAckReceived l rate) s fun e => e.laneState l = 6 ∧ e.rd (laneIdx l) 6 = rate ∧
        (e.lane l).aligned = false ∧ (e.lane l).clean = false ∧ e.Sends l 1 ∧
        s.dev.OnlyLaneSends e l (laneStateKeys l ++ [odKey (laneIdx l) 6])) ∧
    (s.dev.laneState l = 6 → s.dev.fallingBack l = false → (s.dev.lane l).aligned = true → 100 ≤ cleanUs →
      Answers (.trainReceived l l cleanUs) s fun e => (e.lane l).clean = true ∧ e.Sends l 0x0A ∧ s.dev.OnlyLaneSends e l []) ∧
    (s.dev.laneState l = 6 → s.dev.laneLasted l (1000 * s.dev.rd (laneIdx l) 0x4C) = true →
      Answers (.trainingTimeout l) s fun e => e.laneState l = 6 ∧ e.rd (laneIdx l) 7 = s.dev.prevRate l ∧
        e.rd (laneIdx l) 0x18 = min (2 ^ 32 - 1) (s.dev.rd (laneIdx l) 0x18 + 1) ∧ (e.lane l).aligned = false ∧
        (if s.dev.prevRate l = s.dev.rd (laneIdx l) 6 then e.Sends l 1 else (e.lane l).stepTo = s.dev.prevRate l ∧ e.Sends l 8) ∧
        s.dev.OnlyLaneSends e l (laneStateKeys l ++
          [odKey (laneIdx l) 7, odKey (laneIdx l) 0x18, odKey (laneIdx l) 0x19, odKey 0x9000 1])) ∧
    (s.dev.laneLasted l (1000 * s.dev.rd (laneIdx l) 0x4C) = false → Answers (.trainingTimeout l) s fun e => e = s.dev) ∧
    (s.dev.laneState l = 6 → s.dev.fallingBack l = false → rate = s.dev.rd (laneIdx l) 6 → s.dev.heardOnce l 0x0A l (rate % 16 * 2 ^ 36) → (s.dev.lane l).aligned = true → (s.dev.lane l).clean = true →
      Answers (.readyReceived l rate) s fun e =>
        if rate < s.dev.rd (laneIdx l) 7 then e = s.dev.stepUp l
        else e.laneState l = if (s.dev.showSlack l).laneFeasible l then 8 else 7)

/-- R301, R319: the lane's commands over SDO, and held settings: BIT_SLIP moves the bit position by one in manual mode, LANE_RETRAIN takes a
lane whose arms are blocked through FAULT with cause 9, held settings take effect with cause 10. R336: an upstream frame of a lane in
OPERATIONAL is held for the next T0 when its type, lane, count and every CRC are right, and changes nothing else; a frame that fails is
counted in 0x5550 + l .03 and leaves what is held. A command whose event cannot occur changes nothing (assumption log 7). -/
def Obligations.LaneServiceAndFrames : Prop :=
  (∀ (l : Nat) (s : State), l < 32 → s.dev.Sound →
    (s.dev.mailbox = true → s.dev.judge (laneIdx l) 0x48 1 1 = none → s.dev.manualAlign l = true →
      Answers (.bitSlip l) s fun e =>
        e.rd (laneIdx l) 0x49 = (s.dev.rd (laneIdx l) 0x49 + 1) % wordWidth (s.dev.rd (laneIdx l) 6) ∧ e.rd (laneIdx l) 0x4A = 0 ∧
        s.dev.KeepsEntries e [odKey (laneIdx l) 0x49, odKey (laneIdx l) 0x4A]) ∧
    (s.dev.mailbox = true → s.dev.judge (laneIdx l) 0x1A 1 1 = none → s.dev.laneLive l = false →
      Answers (.laneRetrain l) s fun e =>
        e = (s.dev.done.forward 2 [odKey (laneIdx l) 0x1A, s.dev.tick + 1, 1]).laneRetrain l 9) ∧
    ((s.dev.lane l).writes ≠ [] → s.dev.laneLive l = false →
      Answers (.laneChangeEffect l) s fun e =>
        e = (((s.dev.lane l).writes.foldl (fun d w => d.wr (laneIdx l) w.1 w.2) s.dev).modLane l fun x =>
          { x with writes := [] }).laneRetrain l 10) ∧
    ((s.dev.lane l).writes = [] ∨ s.dev.laneLive l = true → Answers (.laneChangeEffect l) s fun e => e = s.dev)) ∧
  (∀ (l head : Nat) (stream : List Nat) (s : State), l < 32 → s.dev.Sound → s.dev.laneState l = 8 →
    (s.dev.frameOk l head stream = true →
      Answers (.upstreamFrame l head stream) s fun e =>
        (e.lane l).held = some ⟨field head 40 16, field head 32 8, field head 24 8, field head 4 3,
          (List.range (s.dev.laneCells l)).map fun k =>
            beNat (((streamData (8 * s.dev.laneCells l) (8 * s.dev.laneCells l) stream).drop (8 * k)).take 8)⟩ ∧
        s.dev.OnlyLane e l []) ∧
    (s.dev.frameOk l head stream = false →
      Answers (.upstreamFrame l head stream) s fun e =>
        e.rd (0x5550 + l) 3 = min (2 ^ 32 - 1) (s.dev.rd (0x5550 + l) 3 + 1) ∧
        s.dev.OnlyEntries e [odKey (0x5550 + l) 3, odKey (0x5550 + l) 4, odKey 0x9000 1]))

/-! ### The barrier (spec/18_barrier_channels.md) -/

/-- R610, R612 to R615, R619, R620: a message from its bound sender on an OPEN channel that permits it. With a credit left it is on its way
with the next SEQ and one credit less; with none it is refused FULL and counted; from any other master, or of a class, type or length
the channel does not permit, it is a violation, counted at the channel. No other channel changes. -/
def Obligations.BarrierSend : Prop :=
  ∀ (ident pair c cls typ : Nat) (payload : List Nat) (b : Binding) (s : State), s.dev.Sound → binding? c = some b →
    (b.sendsBy ident pair = true → (s.dev.chan c).state = 2 → typePermitted c cls typ = true → payload.length ≤ b.maxPay →
      ((s.dev.chan c).credits ≠ 0 →
        Answers (.messageSend ident pair c cls typ payload) s fun e =>
          (e.chan c).flight = (s.dev.chan c).flight ++ [⟨cls, typ, pair, (s.dev.chan c).nextTx,
            if b.sender ≥ 2 then s.dev.tick % 2 ^ 32 else s.dev.rd 0x2030 2 % 2 ^ 32, payload⟩] ∧
          (e.chan c).nextTx = ((s.dev.chan c).nextTx + 1) % 2 ^ 32 ∧ (e.chan c).credits = (s.dev.chan c).credits - 1 ∧
          (∀ j, j ≠ c → e.chan j = s.dev.chan j)) ∧
      ((s.dev.chan c).credits = 0 →
        Answers (.messageSend ident pair c cls typ payload) s fun e =>
          e.chan c = { s.dev.chan c with
            fulls := satInc (s.dev.chan c).fulls, fullStk := satStk (s.dev.chan c).fulls (s.dev.chan c).fullStk } ∧
          (∀ j, j ≠ c → e.chan j = s.dev.chan j))) ∧
    ((b.sendsBy ident pair = false ∨ (s.dev.chan c).state = 2 ∧ (typePermitted c cls typ = false ∨ b.maxPay < payload.length)) →
      Answers (.messageSend ident pair c cls typ payload) s fun e =>
        e.chan c = (s.dev.chan c).violate ∧ (∀ j, j ≠ c → e.chan j = s.dev.chan j))

/-- R615, R616, R619, R620: the oldest message on its way, on a channel that the transmitter serves. One that arrives whole joins the
receiving queue; one whose CRC fails is sent again up to four times, each counted in 0x5A00.08, and is discarded at the fifth failure.
Of another channel only how much of its message has gone may change. No message arrives on a channel that is not served. R475, R620: the
receiver takes the oldest message of a queue and the credit is returned. On channel 11 it enters the inbox of the task it names, unless
16 wait there; on channel 3 it is the image of the process data. R547, R613, Table 18.4: core pair 2 serves a READ that it takes from
channel 0. What a read judged right returns comes from the last tick boundary and goes out on channel 1 after its length; the first
segment carries at most 1,016 bytes of it, and the rest is kept for the segments asked for. A read that is refused answers with its
abort code. Which message may arrive follows assumption log 87, and the transport of SDO reads assumption log 88. -/
def Obligations.BarrierDelivery : Prop :=
  (∀ (c : Nat) (m : Msg) (rest : List Msg) (s : State), c < 16 → s.dev.Sound → (s.dev.chan c).state = 2 →
    (s.dev.chan c).flight = m :: rest → (s.dev.mayArrive (toStation c)).contains c = true →
    (Answers (.messageReceived c true) s fun e =>
      (e.chan c).queue = (s.dev.chan c).queue ++ [m] ∧ (e.chan c).flight = rest ∧ (e.chan c).expect = (m.seq + 1) % 2 ^ 32 ∧
      (e.chan c).credits = (s.dev.chan c).credits ∧ (∀ j, j ≠ c → { e.chan j with part := (s.dev.chan j).part } = s.dev.chan j)) ∧
    ((s.dev.chan c).fails < 4 →
      Answers (.messageReceived c false) s fun e =>
        e.chan c = { s.dev.chan c with part := 0, fails := (s.dev.chan c).fails + 1 } ∧
        e.rd 0x5A00 8 = min (2 ^ 32 - 1) (s.dev.rd 0x5A00 8 + 1) ∧
        (∀ j, j ≠ c → { e.chan j with part := (s.dev.chan j).part } = s.dev.chan j)) ∧
    (4 ≤ (s.dev.chan c).fails →
      Answers (.messageReceived c false) s fun e =>
        (e.chan c).flight = rest ∧ (e.chan c).queue = (s.dev.chan c).queue ∧
        (∀ j, j ≠ c → { e.chan j with part := (s.dev.chan j).part } = s.dev.chan j))) ∧
  (∀ (ident pair c : Nat) (b : Binding) (m : Msg) (rest : List Msg) (s : State), s.dev.Sound → binding? c = some b →
    (s.dev.chan c).queue = m :: rest →
    (b.takenBy ident pair = true → c ∉ [0, 4, 7, 11] →
      Answers (.messageTake ident pair c) s fun e =>
        (e.chan c).queue = rest ∧ (e.chan c).seqRx = m.seq ∧
        (e.chan c).credits = (if (s.dev.chan c).state = 2 then (s.dev.chan c).credits + 1 else (s.dev.chan c).credits) ∧
        (∀ j, j ≠ c → e.chan j = s.dev.chan j) ∧
        (c = 3 → e.station.image = some ⟨leNat (m.payload.take 8), m.payload.drop 8⟩)) ∧
    (b.takenBy ident pair = false →
      Answers (.messageTake ident pair c) s fun e =>
        e.chan c = (s.dev.chan c).violate ∧ (∀ j, j ≠ c → e.chan j = s.dev.chan j)) ∧
    (∀ t, c = 11 → s.dev.boot.plantHeld = false → s.dev.boot.pairsHalted = false → m.payload.headD 8 = t → t < 8 →
      s.dev.rd (0x9030 + t) 1 ≠ 0 → (s.dev.task t).inbox.length < 16 →
      Answers .taskMessageReceived s fun e =>
        (e.task t).inbox = (s.dev.task t).inbox ++ [m.payload.drop 1] ∧ (e.chan 11).queue = rest ∧
        (∀ j, j ≠ t → e.task j = s.dev.task j))) ∧
  (∀ (m : Msg) (rest bytes : List Nat) (queue : List Msg) (code : Nat) (s : State), s.dev.Sound →
    (s.dev.chan 0).queue = m :: queue → m.cls = 1 → m.typ = 1 → m.payload.length = 5 → (s.dev.chan 1).state = 2 →
    (s.dev.chan 1).credits ≠ 0 →
    (s.dev.readAnswer (bit (m.payload.headD 0) 4) (m.payload.getD 4 0) (leNat ((m.payload.drop 1).take 2)) (m.payload.getD 3 0)
        = .inr (bytes ++ rest) → bytes.length = min 1016 (bytes.length + rest.length) →
      Answers (.messageTake 2 2 0) s fun e =>
        (∃ h, h.length = 8 ∧ h.drop 4 = leBytes 4 (bytes.length + rest.length) ∧
          (e.chan 1).flight = (s.dev.chan 1).flight ++
            [⟨1, 0x81, 2, (s.dev.chan 1).nextTx, s.dev.tick % 2 ^ 32, h ++ bytes⟩]) ∧
        e.barrier.upload = rest ∧ (e.chan 0).queue = queue ∧ (∀ j, j ≠ 0 → j ≠ 1 → e.chan j = s.dev.chan j)) ∧
    (s.dev.readAnswer (bit (m.payload.headD 0) 4) (m.payload.getD 4 0) (leNat ((m.payload.drop 1).take 2)) (m.payload.getD 3 0)
        = .inl code →
      Answers (.messageTake 2 2 0) s fun e =>
        (∃ h, h.length = 4 ∧ (e.chan 1).flight = (s.dev.chan 1).flight ++
          [⟨1, 0x84, 2, (s.dev.chan 1).nextTx, s.dev.tick % 2 ^ 32, h ++ leBytes 4 code⟩]) ∧
        e.barrier.upload = s.dev.barrier.upload ∧ (e.chan 0).queue = queue ∧ (∀ j, j ≠ 0 → j ≠ 1 → e.chan j = s.dev.chan j)))

/-- R612, R621, R624: doorbells. The bound sender sets bits 1 to 3 and 8 to 15 of an OPEN channel, and a reserved bit is a violation; the
bound receiver clears bits, and the interrupt stands while an unmasked bit is left. R617, R618, R623, R626: a lane of the barrier that
fails is counted; while its direction still carries traffic no channel changes, and else the halves lose each other. A lane that has
trained is shown; the link-status block renews the counters shown. Event levels and data follow assumption log 20 and 21. -/
def Obligations.BarrierBellsAndLanes : Prop :=
  (∀ (ident pair c bits : Nat) (b : Binding) (s : State), s.dev.Sound → binding? c = some b →
    (b.sendsBy ident pair = true → (s.dev.chan c).state = 2 → bits &&& 0xFFFF00F0 = 0 →
      Answers (.doorbellSet ident pair c bits) s fun e =>
        (e.chan c).bells = (s.dev.chan c).bells ||| (bits &&& 0x0000FF0E) ∧ (e.chan c).flight = (s.dev.chan c).flight ∧
        (e.chan c).viols = (s.dev.chan c).viols ∧ (∀ j, j ≠ c → e.chan j = s.dev.chan j)) ∧
    (b.sendsBy ident pair = false ∨ (s.dev.chan c).state = 2 ∧ bits &&& 0xFFFF00F0 ≠ 0 →
      Answers (.doorbellSet ident pair c bits) s fun e => e.chan c = (s.dev.chan c).violate) ∧
    (b.takenBy ident pair = true →
      Answers (.doorbellClear ident pair c bits) s fun e =>
        (e.chan c).bells = (s.dev.chan c).bells &&& (0xFFFFFFFF ^^^ (bits % 2 ^ 32)) ∧
        (e.chan c).rxIrq = decide ((e.chan c).bells &&& (0xFFFFFFFF ^^^ (s.dev.chan c).mask) ≠ 0) ∧
        (∀ j, j ≠ c → e.chan j = s.dev.chan j)) ∧
    (b.takenBy ident pair = false →
      Answers (.doorbellClear ident pair c bits) s fun e => e.chan c = (s.dev.chan c).violate)) ∧
  (∀ (toStation crcEqual : Bool) (lane : Nat) (s : State), s.dev.Sound →
    ((if toStation then s.dev.barrier.p2s else s.dev.barrier.s2p).getD lane false = true →
      (s.dev.markLane toStation lane false).barrierUp = true →
      Answers (.barrierLaneFailure toStation lane) s fun e =>
        e.barrier = (s.dev.markLane toStation lane false).barrier ∧ e.rd 0x5A00 6 = min (2 ^ 32 - 1) (s.dev.rd 0x5A00 6 + 1)) ∧
    ((if toStation then s.dev.barrier.p2s else s.dev.barrier.s2p).getD lane false = true → s.dev.sessionOpen = false →
      ((s.dev.markLane toStation lane false).bumpEvent 0x5A00 6 7 lvWarn []).barrierUp = false →
      ((s.dev.markLane toStation lane false).bumpEvent 0x5A00 6 7 lvWarn []).stationLost.sessionOpen = false →
      Answers (.barrierLaneFailure toStation lane) s fun e =>
        e = ((s.dev.markLane toStation lane false).bumpEvent 0x5A00 6 7 lvWarn []).stationLost.showReach) ∧
    (s.dev.stationUp = true → s.dev.boot.plantHeld = false → s.dev.barrier.exchanged = true →
      Answers (.barrierLaneTrained toStation lane crcEqual) s fun e =>
        e = (s.dev.markLane toStation lane true).openChannels.showReach) ∧
    (s.dev.barrierUp = true →
      Answers .linkStatusBlock s fun e =>
        e = { s.dev with barrier := { s.dev.barrier with stationView := s.dev.barrier.chans } }))

/-! ### SYNC and the tick period (spec/02_control_tick.md) -/

/-- R69, R70, R74: an edge of SYNC_IN. An invalid one is counted and is a miss; a valid one shows the phase error of R70 and the count of
edges in a row. Four misses in a row end TRACKING in HOLDOVER, which keeps the average step rate. With SYNC off nothing happens. R71,
R74: in TRACKING a phase step moves the phase by 25 ps towards the target, at most once every 50 ENG cycles, and in HOLDOVER where the
kept rate owes a step; 1,000 ticks within ±20 ns set the tracked flag. One command is one missing edge (assumption log 51). A command
whose event cannot occur changes nothing (assumption log 7). -/
def Obligations.SyncTiming : Prop :=
  (∀ (err off : Int) (high : Nat) (ppm : Int) (s : State), s.dev.Sound → s.dev.ticking = true →
    (s.dev.rd 0x2010 5 = 0 → Answers (.syncInEdge err off high ppm) s fun e => e = s.dev) ∧
    (s.dev.rd 0x2010 5 ≠ 0 → s.dev.edgeValid off high ppm = false →
      Answers (.syncInEdge err off high ppm) s fun e =>
        e.rd 0x2010 0x0C = min (2 ^ 32 - 1) (s.dev.rd 0x2010 0x0C + 1) ∧ e.timer.missRun = s.dev.timer.missRun + 1 ∧
        e.rd 0x2010 8 = s.dev.rd 0x2010 8) ∧
    (s.dev.rd 0x2010 5 ≠ 0 → s.dev.edgeValid off high ppm = true → high ≤ 200 → s.dev.syncState = 0 →
      Answers (.syncInEdge err off high ppm) s fun e =>
        e.rd 0x2010 8 = ofInt 32 (satInt 32 (err - s.dev.syncOffset)) ∧ e.timer.edgeRun = s.dev.timer.edgeRun + 1 ∧
        e.timer.missRun = 0 ∧ s.dev.KeepsEntries e [odKey 0x2010 8]) ∧
    (s.dev.rd 0x2010 5 ≠ 0 → s.dev.timer.expecting = true → s.dev.syncState = 2 → 3 ≤ s.dev.timer.missRun →
      Answers .syncEdgeMissing s fun e => e.syncState = 3 ∧ e.timer.missRun = s.dev.timer.missRun + 1 ∧
        e.timer.stepRate = s.dev.timer.average ∧ s.dev.KeepsEntries e [odKey 0x2010 7]) ∧
    (s.dev.rd 0x2010 5 ≠ 0 → s.dev.timer.expecting = true → s.dev.syncState = 2 → s.dev.timer.missRun < 3 →
      Answers .syncEdgeMissing s fun e => e.timer.missRun = s.dev.timer.missRun + 1 ∧ s.dev.KeepsEntries e [])) ∧
  (∀ (s : State), s.dev.Sound →
    (s.dev.ticking = true → s.dev.syncState = 2 → 25 ≤ s.dev.rdI 0x2010 8 → s.dev.timer.steps < s.dev.engCycles / 50 →
      Answers .syncPhaseStep s fun e => e.rdI 0x2010 8 = s.dev.rdI 0x2010 8 - 25 ∧ e.timer.steps = s.dev.timer.steps + 1 ∧
        e.timer.stepSum = s.dev.timer.stepSum - 1) ∧
    (s.dev.ticking = true → s.dev.syncState = 3 → 1 ≤ s.dev.timer.owed → s.dev.timer.steps < s.dev.engCycles / 50 →
      Answers .syncPhaseStep s fun e => e.rd 0x2010 8 = s.dev.rd 0x2010 8 ∧ e.timer.steps = s.dev.timer.steps + 1 ∧
        e.timer.owed = s.dev.timer.owed - 1) ∧
    (s.dev.engCycles / 50 ≤ s.dev.timer.steps → Answers .syncPhaseStep s fun e => e = s.dev) ∧
    (s.dev.rd 0x2010 7 = 2 → 1000 ≤ s.dev.timer.nearRun →
      Answers .syncTracked s fun e => e.rd 0x2010 7 = 0x82 ∧ s.dev.KeepsEntries e [odKey 0x2010 7]))

/-- R41 to R43: an accepted tick-period change shows the code and its change tick, the first multiple of 1,024 at least 256 ticks away; one
that a condition of R42 refuses aborts; at the change tick the period shown takes force. A command whose event cannot occur changes
nothing (assumption log 7). Abort codes of refused commands follow assumption log 13. -/
def Obligations.TickPeriod : Prop :=
  ∀ (code : Nat) (s : State), s.dev.Sound →
    (s.dev.mailbox = true → s.dev.judgeAs true 0x2010 3 1 code = none → s.dev.periodFails code = 0 →
      Answers (.tickPeriodRequest code) s fun e =>
        e.rd 0x2010 3 = code % 2 ^ 8 ∧ e.rd 0x2010 4 = s.dev.futureTick 1024 256 % 2 ^ 64 ∧
        s.dev.KeepsEntries e [odKey 0x2010 3, odKey 0x2010 4]) ∧
    (s.dev.mailbox = true → s.dev.judgeAs true 0x2010 3 1 code = none → s.dev.periodFails code ≠ 0 →
      Answers (.tickPeriodRequest code) s fun e =>
        e.station.sdoResult = (if s.dev.periodFails code = 1 then 0x08000022 else 0x08000020) ∧
        s.dev.KeepsEntries e [odKey 0x2002 8, odKey 0x2002 9]) ∧
    (s.dev.rd 0x2010 4 ≠ 0 → s.dev.rd 0x2010 4 ≤ s.dev.tick → s.dev.ticking = true →
      Answers .tickPeriodChange s fun e =>
        ∃ d : Device, e = d.lanesPeriod ∧ d.rd 0x2010 2 = s.dev.rd 0x2010 3 % 2 ^ 8 ∧ d.rd 0x2010 4 = 0 ∧
          d.timer = { s.dev.timer with lengthPs := 1000000 * periodOf (s.dev.rd 0x2010 3 % 2 ^ 8) } ∧
          s.dev.KeepsEntries d [odKey 0x2010 2, odKey 0x2010 4]) ∧
    (s.dev.tick < s.dev.rd 0x2010 4 → Answers .tickPeriodChange s fun e => e = s.dev)

/-! ### Measurement (spec/03_measurement.md) -/

/-- R81, R90, R99 to R104: a conversion of a channel that is on joins its window and shows its raw code; of a general channel (12 to 31) it
is kept at its gain, and a clipped one is counted. A channel that is off converts nothing. What a conversion leaves in its window
follows assumption log 30 and 90. A command whose event cannot occur changes nothing (assumption log 7). -/
def Obligations.Conversions : Prop :=
  ∀ (ch : Nat) (raw : Int) (s : State), ch < 32 → s.dev.Sound → s.dev.boot.plantHeld = false →
    (s.dev.rd (chIdx ch) 1 = 0 → Answers (.conversionComplete ch raw) s fun e => e = s.dev) ∧
    (12 ≤ ch → s.dev.rd (chIdx ch) 1 ≠ 0 → s.dev.rd (chIdx ch) 0x16 = 0 → s.dev.overlapOf ch = none →
      Answers (.conversionComplete ch raw) s fun e =>
        (e.conv ch).window = (s.dev.conv ch).window ++
          [⟨satInt 18 raw, false, isClipped (satInt 18 raw), false, false⟩] ∧
        e.rd (chIdx ch) 0x40 = ofInt 32 (satInt 18 raw) ∧ e.rd (chIdx ch) 0x16 = 0 ∧
        e.rd (chIdx ch) 0x14 = (if isClipped (satInt 18 raw) then min (2 ^ 32 - 1) (s.dev.rd (chIdx ch) 0x14 + 1)
          else s.dev.rd (chIdx ch) 0x14) ∧
        (∀ j, j ≠ ch → e.conv j = s.dev.conv j) ∧
        s.dev.KeepsEntries e [odKey (chIdx ch) 0x40, odKey (chIdx ch) 0x14, odKey (chIdx ch) 0x15, odKey (chIdx ch) 0x16, odKey 0x9000 1])

/-- R87, R88, R89: the reference buffer. An enable warms it for 20 ms; at the end it is READY with the monitor within ±0.25 % and in FAULT
else; a deviation in READY is a counted fault, a recovery warms it again; switched off, no value is valid. R109, R110: the overlap check
of a channel starts at ×1 with nothing summed, whatever check runs on another channel; after 4,096 conversions it ends, the deviation is
shown, and a failed one leaves the range match as it was. A command whose event cannot occur changes nothing (assumption log 7). -/
def Obligations.ReferenceAndOverlap : Prop :=
  (∀ (dev v : Nat) (s : State), s.dev.Sound →
    (s.dev.front.warmPs < warmUpPs → Answers (.referenceWarmupExpiry dev) s fun e => e = s.dev) ∧
    (s.dev.rd 0x5600 1 = 1 → warmUpPs ≤ s.dev.front.warmPs → refWithin dev = true → Answers (.referenceWarmupExpiry dev) s fun e =>
      e.rd 0x5600 1 = 2 ∧ e.rd 0x5600 2 = 0 ∧ e.rd 0x5600 0x42 = dev % 2 ^ 32 ∧
      s.dev.OnlyEntries e [odKey 0x5600 1, odKey 0x5600 2, odKey 0x5600 0x42]) ∧
    (s.dev.rd 0x5600 1 = 1 → warmUpPs ≤ s.dev.front.warmPs → refWithin dev = false → Answers (.referenceWarmupExpiry dev) s fun e =>
      e.rd 0x5600 1 = 3 ∧ e.rd 0x5600 6 = min (2 ^ 32 - 1) (s.dev.rd 0x5600 6 + 1) ∧ e.front.refOk = false) ∧
    (s.dev.rd 0x5600 1 = 2 → refWithin dev = false → Answers (.referenceMonitorFault dev) s fun e =>
      e.rd 0x5600 1 = 3 ∧ e.rd 0x5600 6 = min (2 ^ 32 - 1) (s.dev.rd 0x5600 6 + 1) ∧ e.front.refOk = false) ∧
    (s.dev.rd 0x5600 1 = 3 → refWithin dev = true → Answers (.referenceMonitorRecovery dev) s fun e =>
      e.rd 0x5600 1 = 1 ∧ e.rd 0x5600 2 = 20 ∧ e.front.refOk = false ∧ e.front.warmPs = 0) ∧
    (s.dev.mailbox = true → s.dev.judge 0x5600 0x41 1 v = none → s.dev.rd 0x5600 0x40 ≠ 1 →
      (v = 1 → (s.dev.done.accept 0x5600 0x41 1).rd 0x5600 1 = 0 →
        Answers (.bufferEnableWrite v) s fun e => e = (s.dev.done.accept 0x5600 0x41 1).refWarm) ∧
      (v = 0 → (s.dev.done.accept 0x5600 0x41 0).rd 0x5600 1 ≠ 0 →
        Answers (.bufferEnableWrite v) s fun e => e.rd 0x5600 1 = 0 ∧ e.rd 0x5600 3 = 0 ∧ e.front.refOk = false)) ∧
    (s.dev.mailbox = true → s.dev.judge 0x5600 0x41 1 v = none → s.dev.rd 0x5600 0x40 = 1 →
      Answers (.bufferEnableWrite v) s fun e => e = s.dev.done)) ∧
  (∀ (ch : Nat) (o : Overlap) (s : State), ch < 12 → s.dev.Sound →
    (s.dev.mailbox = true → s.dev.judge (chIdx ch) 0x49 1 1 = none →
      Answers (.overlapCheck ch) s fun e => e.overlapOf ch = some ⟨ch, 0, 0, 0, 0, 0, false⟩ ∧ e.rd (chIdx ch) 0x16 = 0 ∧
        ∀ k, k ≠ ch → e.overlapOf k = s.dev.overlapOf k) ∧
    (s.dev.front.overlaps = [o] → o.n < 4096 → Answers .overlapCheckComplete s fun e => e = s.dev) ∧
    (s.dev.front.overlaps = [o] → 4096 ≤ o.n → o.ch = ch → o.clip = true →
      Answers .overlapCheckComplete s fun e =>
        e.front.overlaps = [] ∧ e.rd (chIdx ch) 0x45 = s.dev.rd (chIdx ch) 0x45 ∧
        s.dev.KeepsEntries e [odKey (chIdx ch) 0x48]))

/-! ### Metering (spec/12_metering.md) -/

/-- R371, R384: 40 ms without an accepted crossing take an open window of a metered pole to FIXED, as an entry of the meter log; the save of
an elapsed interval goes to the older slot and is counted. R393: a pulse output that owes pulses and whose spacing has passed starts
one, which takes one from the backlog and adds one to the count; the pulse ends after its width. What a save holds follows assumption
log 49. A command whose event cannot occur changes nothing (assumption log 7). -/
def Obligations.MeterTiming : Prop :=
  (∀ (p : Nat) (s : State), s.dev.Sound →
    (p < 2 → s.dev.boot.plantHeld = false → (s.dev.win p).opened ≠ none → s.dev.rd (0x6001 + p) 0x0A = 0 →
      2000 * s.dev.rd 0x6000 6 ≤ (s.dev.win p).since + 2 * s.dev.period → (s.dev.crossings p).accepted = (s.dev.win p).accepted →
      Answers (.crossingTimeout p) s fun e => e = (s.dev.setWindowState p 1).modWin p fun x => { x with cands := 0 }) ∧
    ((s.dev.win p).since + 2 * s.dev.period < 2000 * s.dev.rd 0x6000 6 → Answers (.crossingTimeout p) s fun e => e = s.dev) ∧
    (s.dev.boot.plantHeld = false → s.dev.meter.started = true → 1000 * s.dev.rd 0x6000 4 ≤ s.dev.meter.sinceSave →
      Answers .periodicSave s fun e =>
        e.meter.slots = s.dev.meter.slots.set s.dev.olderSlot (s.dev.saveRecord false) ∧ e.meter.sinceSave = 0 ∧
        e.rd 0x6000 8 = s.dev.tick ∧ e.rd 0x6000 9 = min (2 ^ 32 - 1) (s.dev.rd 0x6000 9 + 1) ∧
        s.dev.KeepsEntries e [odKey 0x6000 8, odKey 0x6000 9, odKey 0x6000 0x0A, odKey 0x9000 1]) ∧
    (s.dev.meter.sinceSave < 1000 * s.dev.rd 0x6000 4 → Answers .periodicSave s fun e => e = s.dev)) ∧
  (∀ (o : Nat) (s : State), o < 8 → s.dev.Sound →
    (s.dev.boot.plantHeld = false → s.dev.rd (0x6060 + o) 6 ≠ 0 → (s.dev.pulse o).on = false →
      1000000 ≤ (((s.dev.pulse o).age + s.dev.period : Nat) : Rat) * s.dev.rdF (0x6060 + o) 4 →
      Answers (.pulseStart o) s fun e =>
        e.meter.pulses = s.dev.meter.pulses.set o { s.dev.pulse o with age := 0, on := true } ∧
        e.rd (0x6060 + o) 6 = s.dev.rd (0x6060 + o) 6 - 1 ∧
        e.rd (0x6060 + o) 8 = (s.dev.rd (0x6060 + o) 8 + 1) % 2 ^ odBits (odKey (0x6060 + o) 8) ∧
        s.dev.KeepsEntries e [odKey (0x6060 + o) 6, odKey (0x6060 + o) 8, odKey (0x6060 + o) 9]) ∧
    (s.dev.rd (0x6060 + o) 6 = 0 → Answers (.pulseStart o) s fun e => e = s.dev) ∧
    ((s.dev.pulse o).on = true → s.dev.rd (0x6060 + o) 5 ≤ (s.dev.pulse o).age + s.dev.period →
      Answers (.pulseEnd o) s fun e =>
        e = s.dev.modMeter fun m => { m with pulses := m.pulses.set o { s.dev.pulse o with on := false } }))

/-- R391, R396: the commands of the metering lock and of METER-FAULT, written in a safety session. On a TK8192-ME the lock opens and closes,
recorded in the change log; on every other part the command aborts. The acknowledge clears METER-FAULT. Abort codes of refused commands
follow assumption log 13. -/
def Obligations.MeteringLock : Prop :=
  ∀ (s : State), s.dev.Sound → s.dev.mailbox = true →
    (s.dev.judge 0x6000 0x12 1 2 = none → s.dev.sealedPart = true →
      Answers .lockOpen s fun e => e.rd 0x6000 0x11 = 0 ∧ e.station.sdoResult = 0 ∧
        e.session.log.length = s.dev.session.log.length + 1) ∧
    (s.dev.judge 0x6000 0x12 1 1 = none → s.dev.sealedPart = true →
      Answers .lockClose s fun e => e.rd 0x6000 0x11 = 1 ∧ e.station.sdoResult = 0 ∧
        e.session.log.length = s.dev.session.log.length + 1) ∧
    (s.dev.judge 0x6000 0x12 1 2 = none → s.dev.sealedPart = false →
      Answers .lockOpen s fun e => e.station.sdoResult = 0x08000020 ∧
        s.dev.rwsUsed.OnlyEntries { e with station := s.dev.station } [odKey 0x2002 8, odKey 0x2002 9]) ∧
    (s.dev.judge 0x6000 0x12 1 1 = none → s.dev.sealedPart = false →
      Answers .lockClose s fun e => e.station.sdoResult = 0x08000020 ∧
        s.dev.rwsUsed.OnlyEntries { e with station := s.dev.station } [odKey 0x2002 8, odKey 0x2002 9]) ∧
    (s.dev.judge 0x6000 0x15 1 1 = none → Answers .meterFaultAcknowledge s fun e =>
      e.meter.fault = false ∧ e.station.sdoResult = 0 ∧ e.session.log.length = s.dev.session.log.length + 1)

/-! ### Core power (spec/19_core_power.md) -/

/-- R635, R651 to R653: the start of the regulator. With supply and enable present and nothing latched it leaves OFF through SELF-CHECK, and
soft-starts every phase detected; a standing latch leads to LATCHED. The power-good window leads to RUN. A failed attempt is counted and
waits in HICCUP; the fourth latches the switches that tripped in it, with cause 3. R647, R649, R650, R652, R653: what latches the
regulator. A switch of an active phase that trips in RUN is latched with cause 1 (soft) or 2 (hard), held in the record, and its phase
leaves the active set; an undervoltage or overvoltage passes through SHUTDOWN, asserts FAULT_N, and ends LATCHED with the core-rail
domain in reset. Latch cause and switch bits follow assumption log 72. A command whose event cannot occur changes nothing (assumption
log 7). -/
def Obligations.CorePowerLatching : Prop :=
  (∀ (detected : Nat) (s : State), s.dev.Sound →
    (s.dev.power.retention = true → s.dev.power.supply = true → s.dev.power.saving = false → s.dev.regState = 0 →
      (s.dev.power.cause = 0 → s.dev.rd 0x5800 4 = 0 → s.dev.rd 0x5800 0x4B ≤ (phasesOf (detected % 64)).length →
        Answers (.regEnHigh detected 0) s fun e => e.regState = 2 ∧ e.rd 0x5800 2 = detected % 64 ∧ e.rd 0x5800 3 = detected % 64 ∧
          e.rd 0x5800 0x1C = 0 ∧ e.power.attempt = 1 ∧
          s.dev.KeepsEntries e [odKey 0x5800 1, odKey 0x5800 2, odKey 0x5800 3, odKey 0x5800 0x1C]) ∧
      (s.dev.power.cause ≠ 0 → Answers (.regEnHigh detected 0) s fun e => e.regState = 6 ∧ e.power.enable = true ∧
        e.rd 0x5800 3 = 0 ∧ s.dev.KeepsEntries e [odKey 0x5800 1, odKey 0x5800 3])) ∧
    (s.dev.regState ≠ 0 → Answers (.regEnHigh detected 0) s fun e => e = { s.dev with power := { s.dev.power with enable := true } }) ∧
    (s.dev.regState = 2 → Answers .powerGood s fun e => e.regState = 3 ∧ s.dev.OnlyEntries e [odKey 0x5800 1]) ∧
    (s.dev.regState ≠ 2 → Answers .powerGood s fun e => e = s.dev) ∧
    (s.dev.regState = 2 → s.dev.power.attempt < 4 →
      Answers .softStartTimeout s fun e => e.regState = 4 ∧ s.dev.Counted e 0x5800 8 ∧ e.rd 0x5800 3 = 0 ∧
        s.dev.KeepsEntries e [odKey 0x5800 1, odKey 0x5800 3, odKey 0x5800 8, odKey 0x5800 9, odKey 0x9000 1]) ∧
    (s.dev.regState = 2 → 4 ≤ s.dev.power.attempt →
      Answers .softStartTimeout s fun e => e.regState = 6 ∧ e.power.cause = 3 ∧
        e.boot.regRec = some (3, Nat.lor (s.dev.rd 0x5800 4) s.dev.power.tripped, s.dev.utc) ∧
        s.dev.KeepsEntries e [odKey 0x5800 1, odKey 0x5800 3, odKey 0x5800 4]) ∧
    (s.dev.regState = 4 →
      Answers .hiccupExpiry s fun e => e.regState = 2 ∧ e.power.attempt = s.dev.power.attempt + 1 ∧ e.power.tripped = 0 ∧
        e.rd 0x5800 3 = phaseMask s.dev.usablePhases ∧ s.dev.OnlyEntries { e with power := s.dev.power } [odKey 0x5800 1, odKey 0x5800 3])) ∧
  (∀ (soft hard cause : Nat) (s : State), s.dev.Sound →
    (s.dev.regState = 3 → soft < 4096 → soft &&& bothSwitches s.dev.activePhases = soft → soft ≠ 0 →
      Answers (.switchShortTrip soft 0) s fun e => e.regState = 3 ∧ e.rd 0x5800 4 = Nat.lor (s.dev.rd 0x5800 4) soft ∧
        e.power.cause = 1 ∧ e.boot.regRec = some (1, Nat.lor (s.dev.rd 0x5800 4) soft, s.dev.utc) ∧
        (∀ h, h < 6 → (bit soft (2 * h) = true ∨ bit soft (2 * h + 1) = true) → bit (e.rd 0x5800 3) h = false) ∧
        s.dev.KeepsEntries e [odKey 0x5800 3, odKey 0x5800 4, odKey 0x5800 0x0A, odKey 0x5800 0x0B, odKey 0x9000 1]) ∧
    (s.dev.regState = 3 → hard < 4096 → hard &&& bothSwitches s.dev.activePhases = hard → hard ≠ 0 →
      Answers (.switchShortTrip soft hard) s fun e => e.regState = 3 ∧ e.power.cause = 2) ∧
    ((Nat.lor soft hard) &&& bothSwitches s.dev.activePhases = 0 → Answers (.switchShortTrip soft hard) s fun e => e = s.dev) ∧
    (s.dev.regState = 3 → (cause = 4 ∨ cause = 5) →
      (s.dev.boot.plantHeld = true →
        Answers (.coreRailFault cause) s fun e => e.regState = 5 ∧ e.power.tripped = cause ∧
          s.dev.OnlyEntries { e with power := s.dev.power } [odKey 0x5800 1]) ∧
      (s.dev.boot.plantHeld = false → s.dev.boot.pairsHalted = false →
        Answers (.coreRailFault cause) s fun e => e.regState = 5 ∧ e.power.tripped = cause ∧ e.boot.faultN = false ∧
          e.boot.pairsHalted = true ∧ e.boot.plState = 12)) ∧
    (s.dev.regState = 5 →
      Answers .shutdownExpiry s fun e => e.regState = 6 ∧ e.power.cause = s.dev.power.tripped ∧ e.boot.plantHeld = true) ∧
    (s.dev.regState ≠ 5 → Answers .shutdownExpiry s fun e => e = s.dev))

/-- R641, R644, R645, R648: lock-out, braking, load step and forced refresh: what each counts in 0x5800 and the standing condition it sets
or ends; nothing else changes. R642, R643, R651: the highest active phase begins to be shed when the mean current has lain below (n - 1)
times the shed threshold for the shed delay without a load step and more than the minimum of phases is active, and waits for a boundary
of its period that a free value places (log 73); at each boundary a shed that waits begins if it lies outside the burst window, and one
that has begun counts a period; the comparator test of a phase is refused unless one more phase than the minimum is active and the
others carry the load, and else shows the comparators that failed. The order and the instant in which phases are shed follow assumption
log 73. A command whose event cannot occur changes nothing (assumption log 7). Abort codes of refused commands follow assumption log 13. -/
def Obligations.CorePowerSwitching : Prop :=
  (∀ (h k : Nat) (x : Shed) (s : State), s.dev.Sound →
    (s.dev.switching = true → h < 6 → bit s.dev.power.locked h = false →
      Answers (.bootstrapLockout h) s fun e => bit e.power.locked h = true ∧ s.dev.Counted e 0x5800 0x0C ∧
        s.dev.OnlyEntries { e with power := s.dev.power } [odKey 0x5800 0x0C, odKey 0x5800 0x0D, odKey 0x9000 1]) ∧
    (s.dev.switching = true → bit s.dev.power.locked 6 = false →
      Answers .vdrvLockout s fun e => bit e.power.locked 6 = true ∧ s.dev.Counted e 0x5800 0x0C ∧
        s.dev.OnlyEntries { e with power := s.dev.power } [odKey 0x5800 0x0C, odKey 0x5800 0x0D, odKey 0x9000 1]) ∧
    (Answers (.lockoutRecovery k) s fun e => bit e.power.locked k = false ∧
      (∀ j, j ≠ k → bit e.power.locked j = bit s.dev.power.locked j) ∧ { e with power := s.dev.power } = s.dev) ∧
    (s.dev.regState = 3 → s.dev.power.braking = false →
      Answers .brakeStart s fun e => e.power = { s.dev.power with braking := true } ∧ s.dev.Counted e 0x5800 0x18 ∧
        s.dev.OnlyEntries { e with power := s.dev.power } [odKey 0x5800 0x18, odKey 0x5800 0x19, odKey 0x9000 1]) ∧
    (s.dev.regState = 2 → Answers .brakeStart s fun e => e = s.dev) ∧
    (Answers .brakeEnd s fun e => e = { s.dev with power := { s.dev.power with braking := false } }) ∧
    (s.dev.power.shed = some x →
      Answers .loadStep s fun e => e.power = { s.dev.power with shed := none } ∧ s.dev.Counted e 0x5800 0x16 ∧
        s.dev.OnlyEntries { e with power := s.dev.power } [odKey 0x5800 0x16, odKey 0x5800 0x17, odKey 0x9000 1]) ∧
    (s.dev.power.shed = none → Answers .loadStep s fun e => e = s.dev) ∧
    (s.dev.switching = true → s.dev.power.braking = false → bit (s.dev.rd 0x5800 3) h = true →
      Answers (.forcedRefresh h) s fun e => s.dev.Counted e 0x5800 0x0E ∧
        s.dev.OnlyEntries e [odKey 0x5800 0x0E, odKey 0x5800 0x0F, odKey 0x9000 1]) ∧
    (s.dev.power.braking = true → Answers (.forcedRefresh h) s fun e => e = s.dev)) ∧
  (∀ (h v : Nat) (s : State), s.dev.Sound →
    (s.dev.regState = 3 → s.dev.power.shed = none → s.dev.rd 0x5800 0x4B < s.dev.activePhases.length →
      (s.dev.power.iavg : Rat) / 1000 < ((s.dev.activePhases.length - 1 : Nat) : Rat) * s.dev.rdF 0x5800 0x49 →
      1000000 * s.dev.rd 0x5800 0x4A ≤ s.dev.power.lowPs → s.dev.loadStep = false → s.dev.activePhases.getLast? = some h →
      Answers .phaseShed s fun e => e = { s.dev with
        free := s.dev.free + 1
        power := { s.dev.power with shed := some ⟨h, none, s.dev.freeBoundary, 1000000 / s.dev.rd 0x5800 0x42⟩ } }) ∧
    (0 ≤ s.dev.freeBoundary ∧ (s.dev.rd 0x5800 0x42 ≠ 0 → s.dev.freeBoundary < 1000000 / s.dev.rd 0x5800 0x42)) ∧
    (shedBoundary none true = none ∧ shedBoundary none false = some 0 ∧ ∀ b, shedBoundary (some v) b = some (v + 1)) ∧
    (s.dev.activePhases.length ≤ s.dev.rd 0x5800 0x4B → Answers .phaseShed s fun e => e = s.dev) ∧
    (s.dev.mailbox = true → s.dev.judge 0x5800 0x1B 1 v = none →
      (s.dev.activePhases.length < s.dev.rd 0x5800 0x4B + 1 →
        Answers (.comparatorTestPhase v 0) s fun e => e.station.sdoResult = 0x08000022 ∧
          s.dev.OnlyEntries { e with station := s.dev.station } [odKey 0x2002 8, odKey 0x2002 9]) ∧
      (s.dev.rd 0x5800 0x4B + 1 ≤ s.dev.activePhases.length →
        (s.dev.power.iavg : Rat) / 1000 ≤ ((s.dev.activePhases.length - 1 : Nat) : Rat) * s.dev.rdF 0x5800 0x48 →
        Answers (.comparatorTestPhase v 0) s fun e => field (e.rd 0x5800 0x1C) (5 * (v - 1)) 5 = 0 ∧
          s.dev.OnlyEntries { e with station := s.dev.station } [odKey 0x5800 0x1C])))

/-- R660, R661: the holdup store. A measurement shows capacitance and resistance, is counted, and one that finds both in range charges
again; an overvoltage or a charge timeout sets its health bit, puts the store in FAILED, and is counted the first time. R11, R386 to
R388, R654, R657: the enable and the supply. REG_EN low clears the latches and resets the plant half; a supply loss puts the core-rail
domain in reset, loses the records of R462 and R683, and begins a save where the store's energy suffices; the save ends with both slots
written, and the retention domain goes on, restarts or disconnects. What a supply loss keeps follows assumption log 55 and 74. A command
whose event cannot occur changes nothing (assumption log 7). -/
def Obligations.SupplyAndStore : Prop :=
  (∀ (v c esr : Nat) (s : State), s.dev.Sound →
    (s.dev.power.retention = true → s.dev.power.supply = true → s.dev.power.measuring = false →
      (s.dev.power.measured = false ∨ (s.dev.rd 0x5900 1 = 2 ∧ 3600 * s.dev.rd 0x5900 0x42 ≤ s.dev.rd 0x5900 5)) →
      Answers .storeMeasurement s fun e => e.power = { s.dev.power with measuring := true } ∧
        e.rd 0x5900 1 = (if s.dev.chargeStep then s.dev.rd 0x5900 1 else 1) ∧
        s.dev.OnlyEntries { e with power := s.dev.power } [odKey 0x5900 1]) ∧
    (s.dev.power.measured = true → s.dev.rd 0x5900 1 ≠ 2 → Answers .storeMeasurement s fun e => e = s.dev) ∧
    (s.dev.mailbox = true → s.dev.judge 0x5900 0x0E 1 v = none → s.dev.power.measuring = false →
      Answers (.measureNow v) s fun e => e.power.measuring = true ∧ e.rd 0x5900 1 = 1 ∧ e.station.sdoResult = 0 ∧
        s.dev.KeepsEntries e [odKey 0x5900 1]) ∧
    (s.dev.power.measuring = true → s.dev.power.retention = true → c < 2 ^ 32 → esr < 2 ^ 32 →
      s.dev.rdF 0x5900 0x40 ≤ f32Val c → f32Val c ≤ 52 / 10 → f32Val esr ≤ s.dev.rdF 0x5900 0x41 →
      Answers (.storeMeasurementComplete c esr) s fun e =>
        e.rd 0x5900 3 = c ∧ e.rd 0x5900 4 = esr ∧ e.rd 0x5900 1 = 0 ∧ e.rd 0x5900 6 = 0 ∧ s.dev.Counted e 0x5900 7 ∧
        e.power = { s.dev.power with measured := true, measuring := false, charger := true }) ∧
    (s.dev.power.measuring = false → Answers (.storeMeasurementComplete c esr) s fun e => e = s.dev) ∧
    (s.dev.power.retention = true → s.dev.power.supply = true →
      (s.dev.power.charger = true → s.dev.power.measuring = false → (s.dev.rd 0x5900 1 = 0 ∨ s.dev.rd 0x5900 1 = 3) →
        Answers .storeChargeTimeout s fun e => bit (e.rd 0x5900 6) 3 = true ∧ e.rd 0x5900 1 = 3 ∧
        e.rd 0x5900 9 = (if bit (s.dev.rd 0x5900 6) 3 then s.dev.rd 0x5900 9 else min (2 ^ 32 - 1) (s.dev.rd 0x5900 9 + 1)) ∧
        s.dev.KeepsEntries e [odKey 0x5900 1, odKey 0x5900 6, odKey 0x5900 9, odKey 0x5900 0x0A, odKey 0x9000 1]) ∧
      (Answers .storeOvervoltage s fun e => bit (e.rd 0x5900 6) 5 = true ∧ e.rd 0x5900 1 = 3 ∧ e.power.charger = false ∧
        e.rd 0x5900 9 = (if bit (s.dev.rd 0x5900 6) 5 then s.dev.rd 0x5900 9 else min (2 ^ 32 - 1) (s.dev.rd 0x5900 9 + 1)) ∧
        s.dev.KeepsEntries e [odKey 0x5900 1, odKey 0x5900 6, odKey 0x5900 9, odKey 0x5900 0x0A, odKey 0x9000 1]))) ∧
  (∀ (vs written : Nat) (s : State), s.dev.Sound →
    (s.dev.power.retention = true →
      Answers .regEnLow s fun e => e.regState = 0 ∧ e.rd 0x5800 4 = 0 ∧ e.power.cause = 0 ∧ e.power.enable = false ∧
        e.boot.plantHeld = true) ∧
    (s.dev.power.retention = false →
      Answers .regEnLow s fun e => e = { s.dev with power := { s.dev.power with enable := false } }) ∧
    (s.dev.power.supply = true →
      Answers (.supplyLoss vs) s fun e => e.boot.plantHeld = true ∧ e.rd 0x5900 1 = 4 ∧ e.power.supply = false ∧
        e.power.saving = true ∧ e.power.measuring = false ∧
        (s.dev.boot.plantHeld = true → e.meter.endgame = none) ∧
        e.boot.lockStepRec = none ∧ e.boot.uncorrRec = none ∧
        (s.dev.boot.plantHeld = false →
          (s.dev.wr 0x5900 2 vs).storeEnergy ≥ 2 * s.dev.rdF 0x6000 0x0E → e.meter.endgame = some ((s.dev.wr 0x5900 2 vs).saveRecord true))) ∧
    (s.dev.power.supply = false → Answers (.supplyLoss vs) s fun e => e = s.dev) ∧
    (∀ r, s.dev.power.saving = true → s.dev.power.returned = false → s.dev.meter.endgame = some r → s.dev.meter.slots.length = 2 →
      2 ≤ written →
      Answers (.endgameSaveEnd written) s fun e => e.meter.slots = [r, r] ∧ e.meter.endgame = none ∧ e.power.saving = false ∧
        e.power.retention = false ∧ e.boot = s.dev.boot ∧ e.od = s.dev.od) ∧
    (s.dev.power.saving = true → s.dev.power.returned = true →
      Answers (.endgameSaveEnd written) s fun e => e.regState = 0 ∧ e.power.retention = true ∧ e.power.saving = false ∧
        e.boot = s.dev.boot) ∧
    (s.dev.power.supply = false → s.dev.power.saving = true →
      Answers .supplyReturn s fun e => e = { s.dev with power := { s.dev.power with supply := true, returned := true } }) ∧
    (s.dev.power.supply = false → s.dev.power.saving = false →
      Answers .supplyReturn s fun e => e.regState = 0 ∧ e.power.supply = true ∧ e.power.retention = true ∧ e.power.charger = true))

/-! ### Start-up and resets (spec/01_device_and_agents.md, spec/17_configuration_and_startup.md) -/

/-- R574 to R577, R46, R68, R77, R579: a half that leaves reset. The station half samples its straps, an open one being a fault, and runs
the image of its selector; the plant half needs the core rail, starts its tick number at 0 with the tick period and SYNC mode of the
straps and the SYNC_OUT pulse of a marker, and is in BOOT. The release is the T0 of tick 0 by assumption log 89. A command whose event
cannot occur changes nothing (assumption log 7). -/
def Obligations.ResetReleases : Prop :=
  ∀ (word syn quality : Nat) (open_ : Bool) (s : State), s.dev.Sound →
    (s.dev.stationUp = false →
      Answers (.stationResetRelease word open_ syn) s fun e => e.stationUp = true ∧ e.boot.stState = 2 ∧
        e.boot.stImage = s.dev.boot.selector ∧ e.rd 0xA000 0x34 = setBit (word % 2 ^ 13) 13 open_ ∧
        e.rd 0x9000 0x16 = (if syn = 2 then 2 else 3) ∧ e.life.upSecs = 0 ∧ (open_ = true → e.station.faulted = true)) ∧
    (s.dev.stationUp = true → Answers (.stationResetRelease word open_ syn) s fun e => e = s.dev) ∧
    (s.dev.boot.plantHeld = true → s.dev.regState = 3 → s.dev.power.retention = true →
      Answers (.plantResetRelease syn quality) s fun e => e.boot.plantHeld = false ∧ e.boot.plState = 2 ∧ e.boot.faultN = true ∧
        e.tick = 0 ∧ e.timer.running = true ∧ e.timer.stage = 0 ∧ e.rd 0x2010 2 = field (s.dev.rd 0xA000 0x34) 7 2 ∧
        e.rd 0x2010 5 = (if bit (s.dev.rd 0xA000 0x34) 12 then 3 else 1) ∧
        (s.dev.flag 0x2010 9 = true → e.timer.syncOutNs = 300) ∧
        e.rd 0x5B00 1 = (if syn = 2 then 2 else 3)) ∧
    (s.dev.regState ≠ 3 → Answers (.plantResetRelease syn quality) s fun e => e = s.dev)

/-- R463, R464, R577, R579, R580: the end of the boot load and of SELF-TEST on the factory baseline. The straps are taken, the baseline is
named as slot 0xFF; firmware that fails or a failing Gambit step leads to FAULT, and SELF-TEST that passes to CONFIGURED. R405, R579,
R582, R601, R603: LINKED. It is entered from CONFIGURED when every lane that carries cells is up, and at the end of the link wait in any
case; it is READY, with unit state ACTIVE stand-alone and STANDBY-UNSYNC as a twin. A trial boot that is not READY by its timeout rolls
back. Outcomes of tests are operands, and the order of the checks is the model's (assumption log 67). A command whose event cannot occur
changes nothing (assumption log 7). Times are counted in whole ticks, rounded up (assumption log 8). -/
def Obligations.StartUp : Prop :=
  (∀ (fwOk detectors mram : Bool) (us cls pair st : Nat) (s : State), s.dev.Sound →
    (s.dev.boot.plantHeld = false → s.dev.boot.plState = 2 → s.dev.plantReachable = true → s.dev.station.faulted = false →
      bit (s.dev.rd 0xA000 0x34) 9 = true → s.dev.bootImage = s.dev.boot.stImage →
      (Answers (.bootLoadComplete true none us) s fun e => e.boot.plState = 3 ∧ e.rd 0xA000 1 = s.dev.rd 0xA000 0x34 % 2 ^ 13 ∧
        e.rd 0x2020 2 = field (s.dev.rd 0xA000 0x34) 12 1 ∧ e.rd 0xA000 2 = 0xFF ∧ e.rd 0x9010 1 = 2 ∧ e.rd 0x9010 2 = 0xFF) ∧
      (Answers (.bootLoadComplete true (some (cls, pair, st)) us) s fun e => e.boot.plState = 12 ∧ e.boot.faultN = false ∧
        e.rd 0x9010 1 = 1) ∧
      (Answers (.bootLoadComplete false none us) s fun e => e.boot.plState = 12 ∧ e.boot.faultN = false)) ∧
    (s.dev.boot.plState ≠ 2 → Answers (.bootLoadComplete fwOk none us) s fun e => e = s.dev) ∧
    (s.dev.boot.plantHeld = false → s.dev.boot.plState = 3 → s.dev.rd 0xA000 2 = 0xFF → s.dev.rd 0x5800 4 = 0 →
      (s.dev.rd 0x5600 0x40 ≠ 1 ∨ s.dev.rd 0x5600 1 = 2) →
      (Answers (.selfTestComplete true true) s fun e => e.boot.plState = 4) ∧
      ((detectors && mram) = false →
        Answers (.selfTestComplete detectors mram) s fun e => e.boot.plState = 12 ∧ e.boot.faultN = false))) ∧
  (∀ (s : State), s.dev.Sound →
    (s.dev.ticking = true → s.dev.boot.plState = 4 → s.dev.linksUp = true →
      Answers .enterLinked s fun e => e.boot.plState = 5 ∧ e.boot.readyDone = true ∧ e.rd 0xA000 0x33 = 0 ∧
        (s.dev.twinProfile = false → e.unit = 3) ∧ (s.dev.twinProfile = true → s.dev.twin.oos = false → e.unit = 0)) ∧
    (s.dev.linksUp = false → Answers .enterLinked s fun e => e = s.dev) ∧
    (s.dev.ticking = true → s.dev.boot.plState = 4 → s.dev.rd 0x2000 2 + s.dev.ticksOf (1000000 * s.dev.rd 0xA000 0x14) ≤ s.dev.tick →
      Answers .linkWaitExpiry s fun e => e.boot.plState = 5 ∧ e.boot.readyDone = true) ∧
    (s.dev.tick < s.dev.rd 0x2000 2 + s.dev.ticksOf (1000000 * s.dev.rd 0xA000 0x14) →
      Answers .linkWaitExpiry s fun e => e = s.dev) ∧
    (s.dev.boot.plantHeld = false → s.dev.inTrial = true → s.dev.ticksOf (1000000 * s.dev.rd 0xA000 0x13) ≤ s.dev.tick →
      Answers .readyTimeout s fun e => e.boot.plantHeld = true ∧ e.boot.trial = false) ∧
    (s.dev.inTrial = false → Answers .readyTimeout s fun e => e = s.dev))

/-- R14, R17, R37, R555, R656, R695: the resets of the halves. What resets the station half leaves it held, with its credentials; a reset of
the plant half is a low enable, conducted for 20 ms, allowed only in FAULT, out of service or with every pole blocked. A clock loss of
the plant half is the safe state without a tick. When S_REG_EN_DRV ends and what FAULT_N shows follow assumption log 70 and 71, the
lock-loss count log 76. Abort codes of refused commands follow assumption log 13. -/
def Obligations.Resets : Prop :=
  ∀ (lost : Bool) (s : State), s.dev.Sound →
    (s.dev.stationUp = true →
      (Answers .sResetNLow s fun e => e.boot.stationHeld = true ∧ e.station.al = 1 ∧ e.station.creds = s.dev.station.creds ∧
        e.life.upSecs = 0) ∧
      (Answers .stationSupplyLoss s fun e => e.boot.stationHeld = true ∧ e.boot.stationDown = true ∧ e.station.al = 1 ∧
        e.station.creds = s.dev.station.creds)) ∧
    (s.dev.mailbox = true → s.dev.judge 0x2001 1 1 4 = none →
      Answers .resetStation s fun e => e.boot.stationHeld = true ∧ e.station.al = 1 ∧ e.station.creds = s.dev.station.creds) ∧
    (s.dev.mailbox = true → s.dev.judge 0x2001 1 1 3 = none →
      (s.dev.resetAllowed lost = true → Answers (.resetPlant lost) s fun e =>
        e.station = { s.dev.station with sdoResult := 0, regEnDrv := true, regEnHiZ := false, resetAfter := false } ∧
        e.rd 0x2001 2 = 0 ∧ s.dev.OnlyEntries { e with station := s.dev.station } [odKey 0x2001 2]) ∧
      (s.dev.resetAllowed lost = false → Answers (.resetPlant lost) s fun e =>
        e.station = { s.dev.station with sdoResult := 0x08000022 } ∧ e.rd 0x2001 2 = 1 ∧
        s.dev.OnlyEntries { e with station := s.dev.station } [odKey 0x2001 2, odKey 0x2002 8, odKey 0x2002 9])) ∧
    (s.dev.mailbox = true → s.dev.judge 0x2001 1 1 5 = none → s.dev.resetAllowed lost = true →
      Answers (.resetModule lost) s fun e =>
        e.station = { s.dev.station with sdoResult := 0, regEnDrv := true, regEnHiZ := false, resetAfter := true } ∧ e.rd 0x2001 2 = 0) ∧
    (s.dev.station.regEnDrv = true → s.dev.station.resetAfter = false →
      Answers .regEnToggleEnd s fun e =>
        e = { s.dev with station := { s.dev.station with regEnDrv := false, regEnHiZ := true, resetAfter := false } }) ∧
    (s.dev.station.regEnDrv = true → s.dev.station.resetAfter = true →
      Answers .regEnToggleEnd s fun e => e.boot.stationHeld = true ∧ e.station.regEnDrv = false ∧ e.station.regEnHiZ = true) ∧
    (s.dev.boot.plantClock = true → s.dev.boot.pairsHalted = false →
      Answers (.clockLoss true) s fun e => e.boot.plantClock = false ∧ e.timer.running = false ∧ e.boot.pairsHalted = true ∧
        e.boot.faultN = false ∧ e.boot.plState = 12 ∧ s.dev.Counted e 0x5B00 3 ∧ e.rd 0x5B00 1 = 0) ∧
    (s.dev.boot.stationClock = true →
      Answers (.clockLoss false) s fun e => e.boot.stationHeld = true ∧ e.rd 0x9000 0x17 = 0 ∧ e.rd 0x9000 0x16 = 0)

/-! ### Configuration, firmware and activation (spec/17_configuration_and_startup.md) -/

/-- R545, R567, R589 to R591, R604, R672, R709: file access. The first segment of a write empties its region; a configuration that has come
whole is STAGED with its version and CRC, firmware that passes is present, and firmware that fails leaves its region empty. Files are
read with password 0, and the run file at Engineer level. A block that fails its rewrite is marked in its slot. R592, Table 17.8:
VALIDATE takes a STAGED slot and answers BUSY, VALIDATION_COMPLETE makes it VALIDATED or REJECTED with reason and address, ERASE empties
it; in any other state of the slot they are refused with result 1. The bytes of the run file follow assumption log 69. A command whose
event cannot occur changes nothing (assumption log 7). Abort codes of refused commands follow assumption log 13. -/
def Obligations.FilesAndSlots : Prop :=
  (∀ (slot w password version crc meter n failed : Nat) (im : List Nat) (s : State), s.dev.Sound →
    (slot < 8 → s.dev.station.al ≠ 1 → 2 ≤ s.dev.level → s.dev.slotState slot ≠ 3 → s.dev.slotState slot ≠ 4 →
      s.dev.boot.act.pending = false →
      Answers (.foeWriteSegment slot 0) s fun e => e.slotState slot = 0 ∧ e.boot.writing = some slot ∧ e.station.foeErr = 0 ∧
        e.boot.slots = s.dev.boot.slots.set slot ⟨[], true⟩ ∧
        s.dev.KeepsEntries e [odKey 0xA000 (0x18 + slot), odKey 0xA000 (0x20 + slot), odKey 0xA000 (0x28 + slot)]) ∧
    (slot < 8 → s.dev.station.al ≠ 1 → (password ≠ 0 ∨ s.dev.level < 2 ∨ s.dev.slotState slot = 3 ∨ s.dev.slotState slot = 4) →
      Answers (.foeWriteSegment slot password) s fun e =>
        e = { s.dev with station := { s.dev.station with foeErr := 0x8004, foeOut := [] } }) ∧
    (slot < 8 → s.dev.boot.writing = some slot → im.length ≤ 16777216 →
      Answers (.foeConfigComplete slot im) s fun e => e.slotState slot = 1 ∧ e.boot.writing = none ∧
        e.boot.slots = s.dev.boot.slots.set slot ⟨im.map (· % 256), true⟩ ∧
        e.slotVersion slot = bytesAt (im.map (· % 256)) 8 4 % 2 ^ 32 ∧ e.slotCrc slot = bytesAt (im.map (· % 256)) 20 4 % 2 ^ 32 ∧
        s.dev.KeepsEntries e [odKey 0xA000 (0x18 + slot), odKey 0xA000 (0x20 + slot), odKey 0xA000 (0x28 + slot)]) ∧
    (s.dev.boot.writing = some (8 + w) → w < 2 →
      (s.dev.sealedPart = false →
        Answers (.foeFirmwareComplete version crc meter true true) s fun e => e.boot.writing = none ∧
          e.boot.images = s.dev.boot.images.set w ⟨true, version % 2 ^ 32, crc % 2 ^ 32, meter, true⟩ ∧
          e.rd 0xA000 (0x16 + w) = version % 2 ^ 32 ∧ s.dev.KeepsEntries e [odKey 0xA000 (0x16 + w)]) ∧
      (Answers (.foeFirmwareComplete version crc meter false true) s fun e => e.boot.writing = none ∧
          e.boot.images = s.dev.boot.images.set w ⟨false, 0, 0, 0, true⟩ ∧ e.rd 0xA000 (0x16 + w) = 0)) ∧
    (s.dev.stationUp = true → s.dev.station.al ≠ 1 → 2 ≤ s.dev.level →
      Answers (.foeReadRun 0) s fun e => e.station = { s.dev.station with foeErr := 0, foeOut := s.dev.runImage } ∧
        { e with station := s.dev.station, free := s.dev.free } = s.dev) ∧
    (s.dev.station.al ≠ 1 →
      Answers (.foeReadEventLog 0) s fun e =>
        e = { s.dev with station := { s.dev.station with foeErr := 0, foeOut := s.dev.station.log.flatMap RingEntry.bytes } }) ∧
    (∀ sl, s.dev.station.al ≠ 1 → s.dev.recorder[n]? = some sl →
      (sl.state = 3 ∨ sl.state = 4 → Answers (.foeReadRecord n 0) s fun e => e.station.foeOut = s.dev.recFile n sl ∧
        (e.recorder[n]?.map (·.state) = some 4 ∨ e.recorder[n]?.map (·.state) = some 1)) ∧
      (sl.state ≠ 3 → sl.state ≠ 4 → Answers (.foeReadRecord n 0) s fun e => e.station.foeErr = 0x8006 ∧ e.recorder = s.dev.recorder)) ∧
    (failed = 2 ^ (2 + slot) → slot < 8 →
      Answers (.flashRefresh failed) s fun e => e.boot.slots = s.dev.boot.slots.modify slot (fun x => { x with flashOk := false }) ∧
        e.boot.images = s.dev.boot.images)) ∧
  (∀ (t : Nat) (s : State), s.dev.Sound → t < 8 →
    (s.dev.mailbox = true → s.dev.judge 0xA000 7 1 1 = none → s.dev.rd 0xA000 8 = t → s.dev.plantReachable = true →
      s.dev.boot.validating = none →
      (s.dev.slotState t = 1 → Answers .validate s fun e => e.boot.validating = some t ∧ e.rd 0xA000 9 = 4 ∧ e.slotState t = 1 ∧
        s.dev.KeepsEntries e [odKey 0xA000 9, odKey 0xA000 0x0A]) ∧
      (s.dev.slotState t ≠ 1 → Answers .validate s fun e => e.rd 0xA000 9 = 1 ∧ e.station.sdoResult = 0x08000022 ∧
        s.dev.KeepsEntries e [odKey 0xA000 9, odKey 0xA000 0x0A, odKey 0x2002 8, odKey 0x2002 9])) ∧
    (s.dev.boot.validating = some t → s.dev.slotState t = 1 →
      Answers .validationComplete s fun e => e.slotState t = (if (s.dev.slotVerdict t false false).reason = 0 then 2 else 5) ∧
        e.rd 0xA000 9 = 0 ∧ e.boot.validating = none ∧
        ((s.dev.slotVerdict t false false).reason = 0 → s.dev.KeepsEntries e [odKey 0xA000 9, odKey 0xA000 (0x18 + t)]) ∧
        ((s.dev.slotVerdict t false false).reason ≠ 0 →
          e.rd 0xA000 0x30 = (s.dev.slotVerdict t false false).reason % 2 ^ 8 ∧ e.rd 0xA000 0x32 = t) ∧
        s.dev.KeepsEntries e [odKey 0xA000 9, odKey 0xA000 (0x18 + t), odKey 0xA000 0x30, odKey 0xA000 0x31, odKey 0xA000 0x32]) ∧
    (s.dev.boot.validating = none → Answers .validationComplete s fun e => e = s.dev) ∧
    (s.dev.mailbox = true → s.dev.judge 0xA000 7 1 4 = none → s.dev.rd 0xA000 8 = t →
      (s.dev.slotState t ∈ [1, 2, 5] → s.dev.boot.act.pending = false →
        Answers .erase s fun e => e.slotState t = 0 ∧ e.boot.slots = s.dev.boot.slots.set t ⟨[], true⟩ ∧ e.rd 0xA000 9 = 0) ∧
      (s.dev.slotState t ∉ [1, 2, 5] → Answers .erase s fun e => e.rd 0xA000 9 = 1 ∧ e.boot.slots = s.dev.boot.slots)))

/-- R593 to R595, R602, R605: ACTIVATE, ROLLBACK and ACTIVATE FIRMWARE. With every condition of R594 true the activation is pending at the
first multiple of 1,024 at least 512 ticks away; the result is BUSY while a peer is to answer. The first condition that fails is shown.
Which refusals show result 3 follows assumption log 68. -/
def Obligations.ActivationCommands : Prop :=
  ∀ (t : Nat) (s : State), s.dev.Sound → s.dev.mailbox = true → s.dev.holds = true →
    (s.dev.judge 0xA000 7 1 2 = none → s.dev.rd 0xA000 8 = t → s.dev.slotState t = 2 → s.dev.actBusy (s.dev.slotKind t) t = 0 →
      Answers .activate s fun e => e.boot.act.pending = true ∧ e.boot.act.holder = true ∧ e.boot.act.slot = t ∧ e.boot.act.rollback = false ∧
        e.rd 0xA000 0x0C = s.dev.futureTick 1024 512 % 2 ^ 64 ∧ e.rd 0xA000 0x0D = s.dev.slotKind t ∧ e.rd 0xA000 0x0B = 1 ∧
        e.rd 0xA000 9 = (if s.dev.peerInSync then 4 else 0)) ∧
    (s.dev.judge 0xA000 7 1 2 = none → s.dev.rd 0xA000 8 = t → s.dev.slotState t ≠ 2 →
      Answers .activate s fun e => e.boot = s.dev.boot ∧ e.rd 0xA000 9 = 1 ∧ e.rd 0xA000 0x0A = 2) ∧
    (s.dev.judge 0xA000 7 1 2 = none → s.dev.rd 0xA000 8 = t → s.dev.slotState t = 2 → s.dev.actBusy (s.dev.slotKind t) t ≠ 0 →
      Answers .activate s fun e => e.boot = s.dev.boot ∧ e.rd 0xA000 9 = 3 ∧ e.rd 0xA000 0x0A = s.dev.actBusy (s.dev.slotKind t) t) ∧
    (s.dev.judge 0xA000 7 1 3 = none → s.dev.rd 0xA000 5 = t → t < 8 → s.dev.slotState t = 4 →
      s.dev.actBusy (s.dev.slotKind t) t = 0 →
      Answers .rollback s fun e => e.boot.act.pending = true ∧ e.boot.act.slot = t ∧ e.boot.act.rollback = true ∧ e.rd 0xA000 0x0B = 1 ∧
        e.rd 0xA000 0x0C = s.dev.futureTick 1024 512 % 2 ^ 64) ∧
    (s.dev.judge 0xA000 7 1 6 = none → (s.dev.fwImage (1 - s.dev.rd 0xA000 0x15)).present = true →
      s.dev.actBusy 2 (1 - s.dev.rd 0xA000 0x15) = 0 →
      Answers .activateFirmware s fun e => e.boot.act.pending = true ∧ e.boot.act.fwTarget = true ∧ e.rd 0xA000 0x0D = 2 ∧
        e.boot.act.slot = 1 - s.dev.rd 0xA000 0x15 ∧ e.rd 0xA000 0x0C = s.dev.futureTick 1024 512 % 2 ^ 64) ∧
    (s.dev.judge 0xA000 7 1 5 = none → s.dev.boot.act.pending = true → s.dev.boot.act.holder = true →
      (s.dev.tick + 128 < s.dev.rd 0xA000 0x0C → Answers .abandon s fun e =>
        e.boot = { s.dev.boot with act := { s.dev.boot.act with abandon := true } } ∧ e.rd 0xA000 9 = 0) ∧
      (s.dev.rd 0xA000 0x0C ≤ s.dev.tick + 128 → Answers .abandon s fun e => e.boot = s.dev.boot ∧ e.rd 0xA000 9 = 3))

/-- R581, R595 to R598: the messages and steps of a pending activation. The peer answers a proposal it can take with ACT-READY; the values
are loaded from tick a - 256, the COMMIT record is written from a - 128, and a missing answer or a refusal abandons. R597, R599: the
switch and the adoption. At the T0 of tick a a committed activation switches: LIVE values take effect, other kinds reset the plant half.
A unit whose ACTIVE peer runs a version it holds activates it alone after 1,000 ticks of mismatch. A command whose event cannot occur
changes nothing (assumption log 7). -/
def Obligations.Activation : Prop :=
  (∀ (version crc a t : Nat) (s : State), s.dev.Sound →
    (s.dev.twinProfile = true → s.dev.unit = 2 → s.dev.findSlot [2, 4] version crc = some t → s.dev.actBusy 0 t = 0 →
      Answers (.actPropose 0 version crc a) s fun e => e.boot.act.pending = true ∧ e.boot.act.holder = false ∧ e.boot.act.slot = t ∧
        e.rd 0xA000 0x0C = a % 2 ^ 64 ∧ e.rd 0xA000 0x0D = 0 ∧ e.twin.lastTx = [5, 9]) ∧
    (s.dev.twinProfile = true → s.dev.unit ≠ 2 → Answers (.actPropose 0 version crc a) s fun e => e = s.dev.control [10]) ∧
    (s.dev.boot.act.pending = true → s.dev.boot.act.peer = true →
      (s.dev.boot.act.holder = true → Answers .actReady s fun e =>
        e.boot = { s.dev.boot with act := { s.dev.boot.act with peerReady := true } } ∧ e.rd 0xA000 9 = 0) ∧
      (s.dev.boot.act.holder = true → s.dev.boot.act.peerReady = false → Answers .actRefuse s fun e =>
        e.boot = { s.dev.boot with act := { s.dev.boot.act with abandon := true } } ∧ e.rd 0xA000 9 = 3 ∧ e.rd 0xA000 0x0A = 7) ∧
      (Answers .actCommitted s fun e => e = { s.dev with boot := { s.dev.boot with act := { s.dev.boot.act with peerDone := true } } }) ∧
      (Answers .actAbandon s fun e => e = { s.dev with boot := { s.dev.boot with act := { s.dev.boot.act with abandon := true } } }) ∧
      (s.dev.boot.act.peerDone = false → s.dev.rd 0xA000 0x0C ≤ s.dev.tick + 32 → Answers .committedDeadline s fun e =>
        e = { s.dev with boot := { s.dev.boot with act := { s.dev.boot.act with abandon := true } } })) ∧
    (s.dev.boot.act.pending = true → s.dev.boot.act.abandon = false →
      (s.dev.rd 0xA000 0x0B = 1 → s.dev.rd 0xA000 0x0C ≤ s.dev.tick + 256 → (s.dev.chan 1).state = 2 → (s.dev.chan 5).state = 2 →
        s.dev.boot.act.fwTarget = false → (s.dev.slotVerdict s.dev.boot.act.slot true true).reason = 0 →
        Answers .shadowLoad s fun e => e.rd 0xA000 0x0B = 2 ∧ e.boot.act.shadow = s.dev.slotValues s.dev.boot.act.slot ∧
          s.dev.KeepsEntries e [odKey 0xA000 0x0B]) ∧
      (s.dev.rd 0xA000 0x0B = 2 → s.dev.rd 0xA000 0x0C ≤ s.dev.tick + 128 → s.dev.boot.act.peer = false →
        s.dev.boot.commits = [] → s.dev.boot.commitSeq < 2 ^ 32 →
        Answers .commitRecord s fun e => e.rd 0xA000 0x0B = 3 ∧ e.boot.act.myCommit = some s.dev.boot.commitSeq ∧
          e.boot.commits.map (fun r => (r.seq, r.kind, r.slot, r.atick)) =
            [(s.dev.boot.commitSeq, if s.dev.boot.act.rollback then 4 else 1, s.dev.boot.act.slot, s.dev.rd 0xA000 0x0C)])) ∧
    (s.dev.boot.act.pending = false → (Answers .shadowLoad s fun e => e = s.dev) ∧ (Answers .commitRecord s fun e => e = s.dev) ∧
      (Answers .actReady s fun e => e = s.dev) ∧ (Answers .actCommitted s fun e => e = s.dev))) ∧
  (∀ (t : Nat) (s : State), s.dev.Sound →
    (s.dev.ticking = true → s.dev.switchReady = true → s.dev.rd 0xA000 0x0D = 0 →
      Answers .activationSwitch s fun e => e.boot.act = Activation.reset ∧ e.boot.running = s.dev.boot.act.shadow ∧
        e.boot.plantHeld = false) ∧
    (s.dev.ticking = true → s.dev.switchReady = true → s.dev.rd 0xA000 0x0D = 1 →
      Answers .activationSwitch s fun e => e.boot.plantHeld = true ∧ e.boot.act = Activation.reset ∧ e.rd 0xA000 0x0B = 5) ∧
    (s.dev.ticking = true → s.dev.switchReady = true → s.dev.rd 0xA000 0x0D = 2 →
      Answers .activationSwitch s fun e => e.boot.plantHeld = true ∧ e.boot.stationHeld = true) ∧
    (s.dev.switchReady = false → Answers .activationSwitch s fun e => e = s.dev) ∧
    (s.dev.findSlot (if s.dev.rd 0xA000 2 = 0xFF then [2, 3, 4] else [2, 4]) (field s.dev.peerBody 352 32) (field s.dev.peerBody 320 32)
        = some t → s.dev.twinProfile = true → s.dev.unit ≠ 3 → 1000 ≤ s.dev.boot.mismatchTicks → s.dev.rd 0x2020 9 = 3 →
      s.dev.rd 0xA000 0x35 ≠ 0 → s.dev.boot.act.pending = false → 5 ≤ s.dev.boot.plState →
      Answers .configAdoption s fun e => e.boot.act.pending = true ∧ e.boot.act.adopt = true ∧ e.boot.act.slot = t ∧
        e.rd 0xA000 0x0C = s.dev.futureTick 1024 256 % 2 ^ 64 ∧ e.rd 0xA000 0x0B = 1) ∧
    (s.dev.boot.mismatchTicks < 1000 → Answers .configAdoption s fun e => e = s.dev))

/-! ### Access, EtherCAT and messages of the station half (spec/16_object_dictionary.md) -/

/-- R539 to R541: access levels. A credential that opens raises the level and ends the count of failures; one that does not is counted, the
fifth failure in a row locks logins out for 60 s, and the level stays. A credential is stored as salt and derived key. Logout and the
idle time return to Observer. What counts as a failed login follows assumption log 15. Abort codes of refused commands follow assumption
log 13. -/
def Obligations.AccessLevels : Prop :=
  ∀ (bytes : List Nat) (s : State), s.dev.Sound →
    (s.dev.mailbox = true → s.dev.judge 0x2002 2 bytes.length (leNat bytes) = none → 1 ≤ bytes.headD 0 → bytes.headD 0 ≤ 3 →
      printable (bytes.drop 1) = true → 8 ≤ (bytes.drop 1).length → s.dev.station.loginLock.locked = false →
      (s.dev.credentialOpens (bytes.headD 0) (bytes.drop 1) = true →
        Answers (.login bytes) s fun e => e.level = bytes.headD 0 ∧
          e.station = { s.dev.station with sdoResult := 0, loginLock := ⟨0, false⟩ } ∧
          s.dev.OnlyEntries { e with station := s.dev.station } [odKey 0x2002 1]) ∧
      (s.dev.credentialOpens (bytes.headD 0) (bytes.drop 1) = false →
        Answers (.login bytes) s fun e => e.level = s.dev.level ∧ s.dev.Counted e 0x2002 5 ∧ e.station.sdoResult = 0x08000020 ∧
          e.station.loginLock = ⟨s.dev.station.loginLock.fails + 1, decide (5 ≤ s.dev.station.loginLock.fails + 1)⟩ ∧
          (s.dev.station.loginLock.fails = 4 → e.rd 0x2002 0x0B = 60))) ∧
    (s.dev.mailbox = true → s.dev.judge 0x2002 2 bytes.length (leNat bytes) = none → s.dev.station.loginLock.locked = true →
      Answers (.login bytes) s fun e => e.level = s.dev.level ∧ e.station.loginLock = s.dev.station.loginLock) ∧
    (s.dev.mailbox = true → s.dev.judge 0x2002 3 1 1 = none →
      Answers .logout s fun e => e.level = 0 ∧ e.station.segmented = false ∧ e.boot.writing = none ∧
        s.dev.KeepsEntries e [odKey 0x2002 1, odKey 0x2002 8]) ∧
    (s.dev.mailbox = true → s.dev.judge 0x2002 0x0A bytes.length (leNat bytes) = none → 1 ≤ bytes.headD 0 → bytes.headD 0 ≤ 3 →
      printable (bytes.drop 1) = true → 8 ≤ (bytes.drop 1).length →
      Answers (.setCredential bytes) s fun e => e.free = s.dev.free + 1 ∧ bit (e.rd 0x2002 0x40) (bytes.headD 0) = true ∧
        e.station.creds = s.dev.station.creds.set (bytes.headD 0) (some (s.dev.newSecret (bytes.drop 1)).1)) ∧
    (s.dev.stationUp = true → Answers .accessIdleExpiry s fun e => e.level = 0 ∧ e.station.segmented = false ∧ e.boot.writing = none) ∧
    (s.dev.station.loginLock.locked = true → s.dev.rd 0x2002 0x0B = 0 → Answers .accessLockoutExpiry s fun e =>
      e = { s.dev with station := { s.dev.station with loginLock := ⟨s.dev.station.loginLock.fails, false⟩ } })

/-- R527 to R530, R558, R562: the EtherCAT state machine. INIT is reached from every state and returns to Observer, PREOP from every state
but BOOT, SAFEOP from PREOP when the process data and SYNC0 are in order, OP from SAFEOP; another transition shows 0x0011. The SM2
watchdog leads from OP to SAFEOP with 0x001B. Status code 0x0011 is presumed (assumption log 17). A command whose event cannot occur
changes nothing (assumption log 7). -/
def Obligations.EtherCatStates : Prop :=
  ∀ (dc up : Bool) (ns : Nat) (s : State), s.dev.Sound → s.dev.stationUp = true →
    (Answers (.alStateRequest 1 dc ns) s fun e => e.station.al = 1 ∧ e.station.alStatus = 0 ∧ e.level = 0) ∧
    (s.dev.station.al ≠ 3 → Answers (.alStateRequest 2 dc ns) s fun e => e.station.al = 2 ∧ e.station.alStatus = 0 ∧ e.od = s.dev.od) ∧
    (s.dev.station.al = 1 → Answers (.alStateRequest 3 dc ns) s fun e => e.station.al = 3 ∧ e.od = s.dev.od) ∧
    (s.dev.station.al = 2 → s.dev.safeopCode dc ns = 0 →
      Answers (.alStateRequest 4 dc ns) s fun e => e.station.al = 4 ∧ e.station.alStatus = 0 ∧ e.station.sync0Ns = ns ∧
        s.dev.KeepsEntries e [odKey 0x1C32 2, odKey 0x1C33 2]) ∧
    (s.dev.station.al = 4 → Answers (.alStateRequest 8 dc ns) s fun e =>
      e = { s.dev with station := { s.dev.station with al := 8, alStatus := 0, windowCnt := 0, goodEdges := 0 } }) ∧
    (s.dev.station.al = 2 → Answers (.alStateRequest 8 dc ns) s fun e =>
      e = { s.dev with station := { s.dev.station with alStatus := 0x0011 } }) ∧
    (s.dev.station.al = 8 → Answers .sm2WatchdogExpiry s fun e => e = { s.dev with station := { s.dev.station with al := 4, alStatus := 0x001B } }) ∧
    (s.dev.station.al ≠ 8 → Answers .sm2WatchdogExpiry s fun e => e = s.dev) ∧
    (Answers (.ecatPortLink up) s fun e => e = { s.dev with station := { s.dev.station with port1 := up } })

/-- R530, R562, R564: process data. In SAFEOP an edge of SYNC0 ages the image and places SM3; in OP an edge more than 2 µs off is counted
and leads to SAFEOP with 0x002C when the window count reaches its limit, and an edge that finds no new SM2 buffer counts it. R555, R570,
R571: the oldest queued event leaves as an emergency message with error code, error register, event and the low byte of its SEQ;
ACKNOWLEDGE clears the discard flag. The image and the refresh of the status bits follow assumption log 18. A command whose event cannot
occur changes nothing (assumption log 7). -/
def Obligations.ProcessDataAndEmergency : Prop :=
  (∀ (dev : Int) (bytes : List Nat) (s : State), s.dev.Sound → s.dev.stationUp = true →
    (s.dev.dcMode = true → s.dev.station.al = 4 →
      Answers (.sync0Edge dev) s fun e => e.station.imageAge = s.dev.station.imageAge + 1 ∧ e.station.al = 4 ∧
        bit (e.rd 0x2030 1) 1 = decide (2 < s.dev.station.imageAge + 1)) ∧
    (s.dev.dcMode = true → s.dev.station.al = 8 → 2000 < dev.natAbs →
      s.dev.rd 0x10F1 2 ≤ s.dev.station.windowCnt + 1 →
      Answers (.sync0Edge dev) s fun e => e.station.al = 4 ∧ e.station.alStatus = 0x002C ∧ e.rd 0x1C32 0x20 = min 65535 (s.dev.rd 0x1C32 0x20 + 1) ∧
        e.rd 0x1C33 0x20 = min 65535 (s.dev.rd 0x1C33 0x20 + 1)) ∧
    (s.dev.dcMode = true → s.dev.station.al = 8 → dev.natAbs ≤ 2000 → s.dev.station.sm2Fresh = false →
      Answers (.sync0Edge dev) s fun e => e.station.al = 8 ∧ s.dev.Counted e 0x2030 3 ∧ e.rd 0x1C32 0x0B = min 65535 (s.dev.rd 0x1C32 0x0B + 1)) ∧
    (s.dev.station.al = 4 → bytes.length = s.dev.pdoBytes false →
      Answers (.sm2BufferComplete bytes) s fun e =>
        e = { s.dev with station := { s.dev.station with sm2 := bytes, sm2Fresh := true } }) ∧
    (bytes.length ≠ s.dev.pdoBytes false → Answers (.sm2BufferComplete bytes) s fun e => e = s.dev) ∧
    (s.dev.station.al = 4 → s.dev.rd 0x1C33 1 = 0 → s.dev.station.image = none →
      Answers .sm3BufferRead s fun e => e.station = { s.dev.station with sm3 := e.txBytes true } ∧
        s.dev.KeepsEntries e [odKey 0x2030 1, odKey 0x1001 0]) ∧
    (∀ im, s.dev.station.al = 4 → s.dev.rd 0x1C33 1 = 0 → s.dev.station.image = some im → im.tick < 2 ^ 64 →
      Answers .sm3BufferRead s fun e => e.rd 0x2030 2 = im.tick ∧
        s.dev.KeepsEntries e [odKey 0x2030 1, odKey 0x2030 2, odKey 0x1001 0])) ∧
  (∀ (m : Emcy) (rest : List Emcy) (s : State), s.dev.Sound → s.dev.mailbox = true →
    (s.dev.station.emcy = m :: rest →
      Answers .emcySend s fun e => e.station.emcy = rest ∧ e.rd 0x1001 0 = s.dev.errorRegister ∧
        e.station.emcyOut = m.errcode + s.dev.errorRegister * 2 ^ 16 + m.event * 2 ^ 24 + m.rseq * 2 ^ 56 ∧
        s.dev.KeepsEntries e [odKey 0x1001 0]) ∧
    (s.dev.station.emcy = [] → Answers .emcySend s fun e => e = s.dev) ∧
    (s.dev.judge 0x2001 1 1 2 = none →
      Answers .acknowledge s fun e => e.rd 0x2001 2 = 0 ∧ bit (e.rd 0x2030 1) 5 = false ∧
        (∀ i, i ≠ 5 → bit (e.rd 0x2030 1) i = bit (s.dev.rd 0x2030 1) i) ∧
        s.dev.OnlyEntries { e with station := s.dev.station } [odKey 0x2001 2, odKey 0x2030 1]))

/-! ### Writes over SDO and the safety session (spec/16_object_dictionary.md, spec/15_protection_and_safety.md) -/

/-- R536 to R546, R188: an SDO write of a command's value to a command entry performs that command. Any other SDO write that the judgement
refuses changes nothing but the abort shown in 0x2002.08 and .09; without the mailbox there is no write. R64, R542: a write that is
accepted. While the tick timer runs an entry that the plant half serves joins the writes of the next T0 and keeps its value till then;
with the timer stopped it takes the value at once. A write to an entry of the safety configuration joins the pending set of the session
(R516). That a plain write of a command entry is its command is assumption log 19. A command whose event cannot occur changes nothing
(assumption log 7). -/
def Obligations.SdoWriting : Prop :=
  (∀ (idx sub len v code : Nat) (s : State), s.dev.Sound →
    (exec (.sdoWrite 0x3001 1 1 1) s = exec (.energise 0) s ∧ exec (.sdoWrite 0x3801 1 1 3) s = exec (.block 1) s ∧
      exec (.sdoWrite 0x2001 1 1 2) s = exec .acknowledge s ∧ exec (.sdoWrite 0xA000 7 1 2) s = exec .activate s ∧
      exec (.sdoWrite 0x8000 1 1 1) s = exec .castle s ∧ exec (.sdoWrite 0x5531 0x1A 1 1) s = exec (.laneRetrain 1) s) ∧
    (s.dev.mailbox = true → forcePart idx sub = false → (lengthFits idx sub len = false ∨ ownWrite idx sub len v = none) →
      s.dev.judge idx sub len v = some code →
      Answers (.sdoWrite idx sub len v) s fun e => e.station = { s.dev.station with sdoResult := code } ∧
        e.rd 0x2002 8 = code % 2 ^ 32 ∧ e.rd 0x2002 9 = (idx * 2 ^ 16 + sub * 2 ^ 8) % 2 ^ 32 ∧
        s.dev.OnlyEntries { e with station := s.dev.station } [odKey 0x2002 8, odKey 0x2002 9]) ∧
    (s.dev.mailbox = true → forcePart idx sub = true →
      Answers (.sdoWrite idx sub len v) s fun e => e.station.sdoResult = 0x06010000 ∧
        s.dev.OnlyEntries { e with station := s.dev.station } [odKey 0x2002 8, odKey 0x2002 9]) ∧
    (s.dev.mailbox = false → (lengthFits idx sub len = false ∨ ownWrite idx sub len v = none) →
      Answers (.sdoWrite idx sub len v) s fun e => e = s.dev) ∧
    (s.dev.mailbox = true → stationServed idx = false →
      Answers (.sdoResponseTimeout idx sub) s fun e => e.station.sdoResult = 0x05040000 ∧ e.station.sdoBusy = false ∧
        s.dev.OnlyEntries { e with station := s.dev.station } [odKey 0x2002 8, odKey 0x2002 9]) ∧
    (stationServed idx = true → Answers (.sdoResponseTimeout idx sub) s fun e => e = s.dev)) ∧
  (∀ (idx sub len v : Nat) (s : State), s.dev.Sound → s.dev.mailbox = true → sub < 256 → forcePart idx sub = false →
    (lengthFits idx sub len = false ∨ ownWrite idx sub len v = none) → s.dev.judge idx sub len v = none →
    (isSafetyKey (odKey idx sub) = false → idx ≠ 0x3004 → idx ≠ 0x3804 → heldEntry idx sub = false →
      (odEntry? (odKey idx sub)).all (fun x => x.1.acc != .rws) = true → stationServed idx = false →
      (s.dev.timer.running = true →
        Answers (.sdoWrite idx sub len v) s fun e => e.live = s.dev.live ++ [(odKey idx sub, v)] ∧ e.od = s.dev.od ∧
          e.station.sdoResult = 0 ∧ { e with live := s.dev.live, station := s.dev.station, twin := s.dev.twin } = s.dev) ∧
      (s.dev.timer.running = false →
        Answers (.sdoWrite idx sub len v) s fun e => e.rd idx sub = v % 2 ^ odBits (odKey idx sub) ∧ e.live = s.dev.live)) ∧
    (isSafetyKey (odKey idx sub) = true →
      Answers (.sdoWrite idx sub len v) s fun e => e.session.pendingSet = cellPut s.dev.session.pendingSet (odKey idx sub) v ∧
        s.dev.KeepsEntries e [odKey 0x7001 8]))

/-- R8, R682: clear entries. A write clears each counter that its bits name, with its sticky bit, in one operation; CLEAR_ALL clears every
counter of the unit with a clear entry and the sticky summary, and leaves every other entry. A command whose event cannot occur changes
nothing (assumption log 7). -/
def Obligations.CounterClears : Prop :=
  ∀ (idx sub v i t : Nat) (r : ClearRow) (s : State), s.dev.Sound → s.dev.mailbox = true → sub < 256 → t < 256 →
    (isClear idx sub = true → idx ≠ 0x5A00 →
      s.dev.judge idx sub (match odEntry? (odKey idx sub) with | some (e, _) => e.ty.bytes | none => 0) v = none →
      (stationServed idx = false → s.dev.timer.running = true →
        Answers (.counterClear idx sub v) s fun e => e.live = s.dev.live ++ [(odKey idx sub, v)] ∧ e.od = s.dev.od) ∧
      (stationServed idx = true ∨ s.dev.timer.running = false → r ∈ clearRowsFor idx sub → v &&& r.mask ≠ 0 →
        Answers (.counterClear idx sub v) s fun e => e.rd idx r.ctr = 0 ∧ e.rd idx r.sticky = 0)) ∧
    (isClear idx sub = false → Answers (.counterClear idx sub v) s fun e => e = s.dev) ∧
    (s.dev.judge 0x9000 2 1 1 = none →
      (isCleared i t = true → clearAllSkips i = false →
        Answers (.clearAll 1) s fun e => e.rd i t = odDefault (odKey i t)) ∧
      (isCleared i t = false → i ≠ 0x5520 → i ≠ 0x5521 → odKey i t ∉ [odKey 0x9000 1, odKey 0x5A00 3] →
        Answers (.clearAll 1) s fun e => e.rd i t = s.dev.rd i t) ∧
      (Answers (.clearAll 1) s fun e => e.rd 0x9000 1 = 0))

/-- R515 to R519: safety sessions. The passphrase opens a session with an empty pending set and the next session number; a wrong one is
counted, and the fifth in a row locks sessions out for 60 s. Close and the idle time discard the pending set; a new passphrase is stored
and logged; the log is acknowledged only after a read of it. R516, R518: COMMIT writes the pending set with its new CRC into the copy
that is not in force, selects it, logs the commit and lets it take effect at the next T0; it is refused while a pole is energised or the
set breaks a rule, and then the session keeps its pending set. DISCARD empties the set. The abort codes and the lock-out follow
assumption log 59. Times are counted in whole ticks, rounded up (assumption log 8). -/
def Obligations.SafetySession : Prop :=
  (∀ (pass : List Nat) (c : Credential) (seq : Nat) (s : State), s.dev.Sound →
    (s.dev.mailbox = true → s.dev.judge 0x7001 1 pass.length (leNat pass) = none → s.dev.rd 0x7001 4 = 0 →
      s.dev.session.pass = some c →
      (c.opens pass = true → Answers (.sessionOpen pass) s fun e => e.sessionOpen = true ∧ e.session.pendingSet = [] ∧
        e.session.lock = ⟨0, false⟩ ∧ e.session.setupOnly = false ∧ e.rd 0x7001 5 = (s.dev.rd 0x7001 5 + 1) % 2 ^ 32 ∧
        s.dev.KeepsEntries e [odKey 0x7001 4, odKey 0x7001 5]) ∧
      (c.opens pass = false → Answers (.sessionOpen pass) s fun e => e.station.sdoResult = 0x08000020 ∧ s.dev.Counted e 0x7001 9 ∧
        e.session.lock = ⟨s.dev.session.lock.fails + 1, decide (5 ≤ s.dev.session.lock.fails + 1)⟩ ∧
        e.rd 0x7001 4 = (if 5 ≤ s.dev.session.lock.fails + 1 then 2 else 0) ∧
        (s.dev.session.lock.fails = 4 → e.rd 0x7001 0x0B = 60))) ∧
    (s.dev.mailbox = true → s.dev.judge 0x7001 2 1 1 = none → s.dev.rd 0x7001 4 = 1 →
      Answers .sessionClose s fun e => e.rd 0x7001 4 = 0 ∧ e.rd 0x7001 8 = 0 ∧ e.session = { s.dev.session with pendingSet := [] } ∧
        s.dev.KeepsEntries e [odKey 0x7001 4, odKey 0x7001 8]) ∧
    (s.dev.rd 0x7001 4 = 1 → s.dev.session.usedAt + s.dev.ticksOf (1000000 * s.dev.rd 0x7001 6) ≤ s.dev.tick →
      Answers .sessionIdleExpiry s fun e => e.rd 0x7001 4 = 0 ∧ e.rd 0x7001 8 = 0 ∧ e.session = { s.dev.session with pendingSet := [] } ∧
        s.dev.OnlyEntries { e with session := s.dev.session } [odKey 0x7001 4, odKey 0x7001 8]) ∧
    (s.dev.rd 0x7001 4 = 2 → s.dev.lockoutLeft = 0 →
      Answers .sessionLockoutExpiry s fun e => e.rd 0x7001 4 = 0 ∧ e.rd 0x7001 0x0B = 0 ∧
        e.session = { s.dev.session with lock := ⟨s.dev.session.lock.fails, false⟩ }) ∧
    (s.dev.mailbox = true → s.dev.judge 0x7001 3 pass.length (leNat pass) = none → 12 ≤ pass.length → printable pass = true →
      Answers (.newPassphrase pass) s fun e => e.session.pass = some (s.dev.newSecret pass).1 ∧ e.session.setupOnly = false ∧
        e.rd 0x7001 0x0C = 1 ∧ e.session.log.length = s.dev.session.log.length + 1 ∧ e.free = s.dev.free + 1) ∧
    (s.dev.mailbox = true → s.dev.judge 0x7002 3 4 seq = none → (s.dev.session.log.any fun x => x.seq == seq) = true →
      (Answers (.logAcknowledge seq true) s fun e => ∃ x, x.kind = 4 ∧
        e.session.log = (s.dev.session.log.filter fun y => newer 32 seq y.seq) ++ [x]) ∧
      (Answers (.logAcknowledge seq false) s fun e => e.session = s.dev.rwsUsed.session ∧ e.station.sdoResult = 0x08000020))) ∧
  (∀ (s : State), s.dev.Sound → s.dev.mailbox = true →
    (s.dev.judge 0x7001 7 1 1 = none → s.dev.commitBusy = false → s.dev.session.log.length < 4096 →
      (s.dev.wrAll s.dev.session.pendingSet).safetyBad = false →
      Answers .safetyCommit s fun e => e.session.effect = true ∧ e.session.sel = 1 - s.dev.session.sel ∧ e.session.pendingSet = [] ∧
        e.session.copies = s.dev.session.copies.set (1 - s.dev.session.sel) (s.dev.wrAll s.dev.session.pendingSet).safetyVals ∧
        e.session.log.length = s.dev.session.log.length + 1 ∧ e.rd 0x7001 8 = 0 ∧
        s.dev.KeepsEntries e [odKey 0x7001 8, odKey 0x7002 1, odKey 0x7002 2, odKey 0x7002 4]) ∧
    (s.dev.judge 0x7001 7 1 1 = none → s.dev.commitBusy = true →
      Answers .safetyCommit s fun e => e.session = s.dev.rwsUsed.session ∧ e.station.sdoResult = 0x08000022) ∧
    (s.dev.judge 0x7001 7 1 1 = none → s.dev.commitBusy = false → s.dev.session.log.length < 4096 →
      (s.dev.wrAll s.dev.session.pendingSet).safetyBad = true →
      Answers .safetyCommit s fun e => e.session = s.dev.rwsUsed.session ∧ e.station.sdoResult = 0x06090030) ∧
    (s.dev.judge 0x7001 7 1 2 = none →
      Answers .safetyDiscard s fun e => e.session = { s.dev.rwsUsed.session with pendingSet := [] } ∧ e.rd 0x7001 8 = 0 ∧
        s.dev.KeepsEntries e [odKey 0x7001 8]))

/-! ### Lock-step, debugging and tasks (spec/14_lockstep_and_extensions.md) -/

/-- R459, R460, R462, R464, R683: a lock-step fault or an uncorrectable word of plant memory is recorded with its tick, halts the core
pairs, asserts FAULT_N, quiets every lane and leads to FAULT; during the Gambit test the fault fails the test. R466 to R468: debugging
is enabled only out of service, or stand-alone with both poles ABSENT or BLOCKED; an access is counted, a halt and a resume are shown;
boundary scan changes nothing. What the records survive follows assumption log 55. A command whose event cannot occur changes nothing
(assumption log 7). Abort codes of refused commands follow assumption log 13. -/
def Obligations.LockStepAndDebug : Prop :=
  (∀ (pair kind word addr : Nat) (s : State), s.dev.Sound → s.dev.boot.plantHeld = false → s.dev.boot.pairsHalted = false →
    (pair ≤ 3 → 1 ≤ kind → kind ≤ 3 → s.dev.rd 0x9010 1 ≠ 1 →
      Answers (.lockStepFault pair kind word) s fun e => e.boot.lockStepRec = some (pair, kind, s.dev.tick, word % 2 ^ 32) ∧
        e.boot.pairsHalted = true ∧ e.boot.faultN = false ∧ e.boot.plState = 12 ∧ e.rd 0x9010 0x40 = 0 ∧
        (∀ l, (e.lane l).sent = false)) ∧
    (pair ≤ 3 → 1 ≤ kind → kind ≤ 3 → s.dev.rd 0x9010 1 = 1 →
      Answers (.lockStepFault pair kind word) s fun e => e.boot.lockStepRec = s.dev.boot.lockStepRec ∧ e.boot.plState = 12 ∧
        e.boot.faultN = false ∧ bit e.boot.selfTest 0 = false) ∧
    (3 < pair → Answers (.lockStepFault pair kind word) s fun e => e = s.dev) ∧
    (Answers (.uncorrectableWord addr) s fun e => e.boot.uncorrRec = some (addr % 2 ^ 32, s.dev.tick) ∧ e.boot.pairsHalted = true ∧
      e.boot.faultN = false ∧ e.boot.plState = 12 ∧ bit e.boot.selfTest 2 = false ∧ (∀ l, (e.lane l).sent = false))) ∧
  (∀ (pair : Nat) (s : State), s.dev.Sound →
    (s.dev.mailbox = true → s.dev.judge 0x9010 0x40 1 1 = none →
      (s.dev.twinProfile = true → s.dev.unit = 4 → Answers (.debugEnable 1) s fun e => e.rd 0x9010 0x40 = 1 ∧
        s.dev.OnlyEntries { e with station := s.dev.station } [odKey 0x9010 0x40]) ∧
      (s.dev.twinProfile = true → s.dev.unit ≠ 4 → Answers (.debugEnable 1) s fun e => e.station.sdoResult = 0x08000022 ∧
        s.dev.OnlyEntries { e with station := s.dev.station } [odKey 0x2002 8, odKey 0x2002 9])) ∧
    (s.dev.mailbox = true → s.dev.judge 0x9010 0x40 1 0 = none → Answers (.debugEnable 0) s fun e => e.rd 0x9010 0x40 = 0 ∧
      e.rd 0x9010 0x43 = 0 ∧ s.dev.OnlyEntries { e with station := s.dev.station } [odKey 0x9010 0x40, odKey 0x9010 0x43]) ∧
    (s.dev.boot.plantHeld = false → s.dev.boot.pairsHalted = false → s.dev.rd 0x9010 0x40 ≠ 0 → pair ≤ 3 →
      (Answers (.debugAccess pair 0) s fun e => e.rd 0x9010 0x41 = (s.dev.rd 0x9010 0x41 + 1) % 2 ^ 32 ∧
        e.rd 0x9010 0x43 = s.dev.rd 0x9010 0x43 ∧ s.dev.OnlyEntries e [odKey 0x9010 0x41, odKey 0x9010 0x42]) ∧
      (Answers (.debugAccess pair 1) s fun e => bit (e.rd 0x9010 0x43) pair = true ∧
        s.dev.OnlyEntries e [odKey 0x9010 0x41, odKey 0x9010 0x42, odKey 0x9010 0x43]) ∧
      (Answers (.debugAccess pair 2) s fun e => bit (e.rd 0x9010 0x43) pair = false)) ∧
    (s.dev.rd 0x9010 0x40 = 0 → Answers (.debugAccess pair 1) s fun e => e = s.dev) ∧
    (Answers .jtagBoundaryScan s fun e => e = s.dev))

/-- R473, R476: a task command is accepted in the states of its row of Table 14.5 and waits for the next T0; in another state it aborts. A
task stopped at the end of its budget or of the slot counts an overrun, the third in a row suspends it. R65, R156, R196: the slot of
core pair 3 runs the tick tier once a tick and commits the reference blocks; a tick tier past the slot has no effect but the count of
the overrun, and a halted pair runs nothing. A tier past the slot has no effect in its tick by assumption log 54. Abort codes of refused
commands follow assumption log 13. -/
def Obligations.TasksAndTickTier : Prop :=
  (∀ (t left : Nat) (s : State), t < 8 → s.dev.Sound →
    (s.dev.mailbox = true → s.dev.judge (0x9030 + t) 0x10 1 1 = none →
      (s.dev.taskState t = 1 → Answers (.suspend t) s fun e => e.task t = { s.dev.task t with cmd := 1 } ∧
        (∀ u, u ≠ t → e.task u = s.dev.task u) ∧ e.od = s.dev.od) ∧
      (s.dev.taskState t ≠ 1 → Answers (.suspend t) s fun e => e.station.sdoResult = 0x08000022 ∧ e.tasks = s.dev.tasks)) ∧
    (s.dev.mailbox = true → s.dev.judge (0x9030 + t) 0x10 1 2 = none → s.dev.taskState t = 2 →
      Answers (.resume t) s fun e => e.task t = { s.dev.task t with cmd := 2 } ∧ (∀ u, u ≠ t → e.task u = s.dev.task u) ∧ e.od = s.dev.od) ∧
    (s.dev.mailbox = true → s.dev.judge (0x9030 + t) 0x10 1 3 = none → (s.dev.taskState t = 2 ∨ s.dev.taskState t = 3) →
      Answers (.restart t) s fun e => e.task t = { s.dev.task t with cmd := 3 } ∧ (∀ u, u ≠ t → e.task u = s.dev.task u) ∧ e.od = s.dev.od) ∧
    (s.dev.slot3 = ⟨true, some t, [], left⟩ →
      (s.dev.rd (0x9030 + t) 6 ≤ left → Answers (.taskBudgetExpiry []) s fun e => s.dev.Counted e (0x9030 + t) 9 ∧ (e.task t).overs = (s.dev.task t).overs + 1 ∧
        e.slot3 = ⟨true, none, [], left - s.dev.rd (0x9030 + t) 6⟩ ∧ ((s.dev.task t).overs = 2 → e.taskState t = 2)) ∧
      (Answers .pair3SlotEnd s fun e => s.dev.Counted e (0x9030 + t) 9 ∧ (e.task t).overs = (s.dev.task t).overs + 1 ∧
        e.slot3 = ⟨false, none, [], 0⟩ ∧ ((s.dev.task t).overs = 2 → e.taskState t = 2))) ∧
    (s.dev.slot3 = ⟨true, none, [t], left⟩ →
      Answers .pair3SlotEnd s fun e => s.dev.Counted e (0x9030 + t) 0x13 ∧ e.slot3 = ⟨false, none, [], 0⟩ ∧ e.tasks = s.dev.tasks)) ∧
  (∀ (tier : Nat) (s : State), s.dev.Sound → s.dev.ticking = true → s.dev.boot.pairsHalted = false → s.dev.slot3.opened = false →
    s.dev.timer.committed = false →
    (bit (s.dev.rd 0x9010 0x43) 3 = false → tier ≤ s.dev.slotCycles →
      Answers (.pair3SlotStart tier []) s fun e => e.timer.committed = true ∧ e.slot3.opened = true ∧ e.tick = s.dev.tick) ∧
    (bit (s.dev.rd 0x9010 0x43) 3 = false → s.dev.slotCycles < tier →
      Answers (.pair3SlotStart tier []) s fun e => s.dev.Counted e 0x9020 4 ∧ e.slot3.opened = true ∧
        s.dev.OnlyEntries { e with slot3 := s.dev.slot3 } [odKey 0x9020 4, odKey 0x9020 5, odKey 0x9000 1]) ∧
    (bit (s.dev.rd 0x9010 0x43) 3 = true →
      Answers (.pair3SlotStart tier []) s fun e => e = { s.dev with slot3 := ⟨true, none, [], 0⟩ }))

/-! ### Time, recorder, memory and life (spec/20_recorder_and_health.md) -/

/-- R666 to R668: the time base. An edge more than 10 µs off is counted; a valid one is shown and sent on channel 6; a time message stores
its second for the tick of the edge and makes time valid; three missing edges lead to holdover. R679, R683, R684: memory and service
life. Corrected words are counted; a word of the station DRAM that cannot be corrected resets the station half, and in the recorder area
marks its slot; every second adds a(T)/3,600 h to the equivalent hours and one second to the operating time. What one second adds
follows assumption log 76, and the tick of a time message assumption log 82. A command whose event cannot occur changes nothing
(assumption log 7). -/
def Obligations.TimeMemoryLife : Prop :=
  (∀ (mode reading off delay sec since : Nat) (s : State), s.dev.Sound →
    (s.dev.stationUp = true → mode ≠ 0 → s.dev.rd 0x9000 3 = mode →
      (s.dev.time.accepted = true → 10 < off →
        Answers (.timeEdge mode reading off delay) s fun e => s.dev.Counted e 0x9000 7 ∧ e.time = s.dev.time) ∧
      ((s.dev.time.accepted = false ∨ off ≤ 10) → (mode ≠ 1 ∨ s.dev.time.lastSec + 1 = s.dev.sourceSecond mode reading) →
        Answers (.timeEdge mode reading off delay) s fun e => e.time.accepted = true ∧
          e.time.lastSec = s.dev.sourceSecond mode reading ∧ e.rd 0x2000 5 = s.dev.sourceSecond mode reading % 2 ^ 32)) ∧
    (s.dev.rd 0x9000 3 ≠ mode → Answers (.timeEdge mode reading off delay) s fun e => e = s.dev) ∧
    (s.dev.boot.plantHeld = false → delay + 1000 ≤ since →
      Answers (.timeMessage sec delay since) s fun e =>
        e.time = { s.dev.time with ns := s.dev.tick, us := sec % 2 ^ 32, known := true, missing := 0 } ∧ e.rd 0x9000 4 = 1 ∧
        s.dev.OnlyEntries { e with time := s.dev.time } [odKey 0x9000 4]) ∧
    (s.dev.rd 0x9000 4 = 1 → Answers .timeHoldover s fun e => e.rd 0x9000 4 = 2 ∧
      s.dev.OnlyEntries { e with time := s.dev.time } [odKey 0x9000 4]) ∧
    (s.dev.rd 0x9000 4 ≠ 1 → Answers .timeHoldover s fun e => e = s.dev)) ∧
  (∀ (corrected dram slot t w : Nat) (mC : Int) (s : State), s.dev.Sound →
    (s.dev.boot.plantHeld = false → Answers (.memoryScrub corrected 0) s fun e =>
      e.rd 0x9000 0x0B = min (2 ^ 32 - 1) (s.dev.rd 0x9000 0x0B + corrected) ∧
        s.dev.OnlyEntries e [odKey 0x9000 0x0B, odKey 0x9000 0x0C, odKey 0x9000 1]) ∧
    (s.dev.stationUp = true → s.dev.boot.plantHeld = true → dram ≠ 0 → Answers (.memoryScrub corrected dram) s fun e =>
      e.rd 0x9000 0x0F = min (2 ^ 32 - 1) (s.dev.rd 0x9000 0x0F + dram) ∧ e.rd 0x9000 0x0B = s.dev.rd 0x9000 0x0B) ∧
    (s.dev.stationUp = true →
      (Answers (.dramUncorrectableWord false slot t w none) s fun e => e.boot.stationHeld = true ∧ e.station.al = 1) ∧
      (slot < s.dev.recorder.length → Answers (.dramUncorrectableWord true slot t w none) s fun e =>
        bit (e.recorder.getD slot RecSlot.reset).flags 2 = true ∧ { e with recorder := s.dev.recorder } = s.dev)) ∧
    (s.dev.boot.plantHeld = false → s.dev.stationUp = true →
      Answers (.lifeAccounting mC) s fun e => e.life.eqHours = s.dev.life.eqHours + accel mC / 3600 ∧
        e.life.opSecs = s.dev.life.opSecs + 1 ∧ e.life.upSecs = s.dev.life.upSecs + 1 ∧
        e.rd 0x9000 0x11 = (s.dev.life.opSecs + 1) / 3600 % 2 ^ 32 ∧ e.rd 0x2000 4 = (s.dev.life.upSecs + 1) % 2 ^ 32))

/-- R676, R678, R679: recorder slots. A trigger of an enabled source starts the recording of the ARMED slot at its tick; in the same tick a
further source joins it, later ones are retriggers; with no slot it is counted as missed. The end of a recording leaves it HELD. Slots
follow assumption log 75. A command whose event cannot occur changes nothing (assumption log 7). -/
def Obligations.RecorderSlots : Prop :=
  ∀ (src t v : Nat) (sl : RecSlot) (s : State), s.dev.Sound → s.dev.rd 0xB000 2 = 1 → s.dev.recorder = [sl] →
    (s.dev.stationUp = true → src &&& s.dev.rd 0xB000 5 ≠ 0 →
      (sl.state = 1 → Answers (.recorderTrigger src t) s fun e =>
        (e.recorder.map fun x => (x.state, x.trigTick, x.trigSrc)) = [(2, t, src &&& s.dev.rd 0xB000 5)] ∧
          e.rd 0xB000 0x30 = t % 2 ^ 64 ∧ s.dev.Counted e 0xB000 0x0B) ∧
      (sl.state = 2 → sl.trigTick = t → Answers (.recorderTrigger src t) s fun e =>
        e = { s.dev with recorder := [{ sl with trigSrc := sl.trigSrc ||| (src &&& s.dev.rd 0xB000 5) }] }) ∧
      (sl.state = 2 → sl.trigTick ≠ t → sl.retrig.length < 16 → Answers (.recorderTrigger src t) s fun e =>
        e.recorder = [{ sl with retrig := sl.retrig ++ [(src &&& s.dev.rd 0xB000 5, t)] }] ∧ s.dev.Counted e 0xB000 0x0D) ∧
      (sl.state = 3 → Answers (.recorderTrigger src t) s fun e => e.recorder = s.dev.recorder ∧ s.dev.Counted e 0xB000 0x0F)) ∧
    (src &&& s.dev.rd 0xB000 5 = 0 → Answers (.recorderTrigger src t) s fun e => e = s.dev) ∧
    (sl.state = 2 → s.dev.recorded sl = true → s.dev.rd 0xB000 7 = 0 →
      Answers .recordingEnd s fun e => e.recorder = [{ sl with state := 3 }]) ∧
    (sl.state = 2 → s.dev.rd 0xB000 7 = 0 →
      Answers .recordingStreamTimeout s fun e => e.recorder = [{ sl with state := 3, flags := setBit sl.flags 3 true }]) ∧
    (sl.state ≠ 2 → (Answers .recordingEnd s fun e => e = s.dev) ∧ (Answers .recordingStreamTimeout s fun e => e = s.dev)) ∧
    (s.dev.mailbox = true → s.dev.judge 0xB000 8 1 v = none → s.dev.boot.plantHeld = false →
      Answers (.manualTrigger v) s fun e => e.trigs = setBit s.dev.trigs 0 true ∧
        { e with trigs := s.dev.trigs, station := s.dev.station } = s.dev)

/-! ### The lease (spec/13_twin_and_lease.md) -/

/-- R410, R412, R421: a GRANT that answers a REQUEST within 100 µs makes the ACTIVE unit's lease valid for the granted time less the time
since the REQUEST, and brings the link up; one with a wrong CRC, or to no REQUEST, is counted and ignored. A GRANT in another unit state
leaves the lease by assumption log 60. -/
def Obligations.LeaseGrants : Prop :=
  ∀ (seq epoch duration since : Nat) (crcOk : Bool) (s : State), s.dev.Sound → s.dev.twinProfile = true → s.dev.boot.safeState = false →
    (s.dev.lease.sent.contains seq = true → since ≤ 100 → s.dev.unit = 3 →
      Answers (.grantReceived seq epoch false duration since true) s fun e => e.lease.valid = true ∧ e.lease.epoch = epoch % 256 ∧
        e.lease.stalemate = false ∧ e.rd 0x8001 1 = 2 ∧ e.rd 0x8001 2 = duration % 2 ^ 32 ∧ e.rd 0x8001 4 = (duration - since) % 2 ^ 32 ∧
        e.rd 0x8001 0x10 = 1 ∧ e.rd 0x2020 4 = 1 ∧ e.unit = 3) ∧
    (s.dev.lease.sent.contains seq = true → since ≤ 100 → s.dev.unit = 1 →
      Answers (.grantReceived seq epoch false duration since true) s fun e => e.lease = s.dev.lease ∧ e.rd 0x8001 0x10 = 1) ∧
    ((crcOk = false ∨ s.dev.lease.sent.contains seq = false ∨ 100 < since) →
      Answers (.grantReceived seq epoch false duration since crcOk) s fun e => s.dev.Counted e 0x8001 0x11 ∧
        s.dev.OnlyEntries e [odKey 0x8001 0x11, odKey 0x8001 0x12, odKey 0x9000 1])

/-- R412, R414, R418, R421: DENY is counted and NOTICE shows the holder and its age; both bring the arbiter link up, and its loss is shown
after 300 µs; a message with a wrong CRC is counted and has no other effect. R410, R411, R413 to R415: the holder renews at each instant
while it is fit, and sends STATUS while it is not; the lease that expires is counted and its role shown; EPWIN ticks without a holder
frame trip every live pole with cause 6; a cold start asks once its conditions hold. The SEQ of the arbiter port starts at 0 by
assumption log 60. A command whose event cannot occur changes nothing (assumption log 7). Times are counted in whole ticks, rounded up
(assumption log 8). -/
def Obligations.LeaseLife : Prop :=
  (∀ (epoch holder age since : Nat) (s : State), s.dev.Sound → s.dev.twinProfile = true →
    (s.dev.unit ≠ 2 → s.dev.unit ≠ 1 →
      (Answers (.denyReceived epoch holder age since true) s fun e => s.dev.Counted e 0x8001 9 ∧ e.rd 0x8001 0x10 = 1 ∧
        e.lease = { s.dev.lease with heard := s.dev.tick } ∧ s.dev.OnlyEntries { e with lease := s.dev.lease } [odKey 0x8001 9, odKey 0x8001 0x0A, odKey 0x8001 0x10, odKey 0x2020 5, odKey 0x9000 1]) ∧
      (Answers (.noticeReceived epoch holder age since true) s fun e => e.rd 0x8001 5 = holder % 2 ^ 8 ∧ e.rd 0x8001 6 = age % 2 ^ 32 ∧
        e.rd 0x8001 0x10 = 1 ∧ e.lease.noticed = true ∧ e.lease.valid = s.dev.lease.valid ∧ (holder ≠ 0 → e.lease.noHolder = 0))) ∧
    (Answers (.denyReceived epoch holder age since false) s fun e => s.dev.Counted e 0x8001 0x11 ∧
      s.dev.OnlyEntries e [odKey 0x8001 0x11, odKey 0x8001 0x12, odKey 0x9000 1]) ∧
    (Answers (.noticeReceived epoch holder age since false) s fun e => s.dev.Counted e 0x8001 0x11 ∧
      s.dev.OnlyEntries e [odKey 0x8001 0x11, odKey 0x8001 0x12, odKey 0x9000 1]) ∧
    (s.dev.lease.heard + s.dev.ticksOf 300 ≤ s.dev.tick → Answers .arbiterLinkDown s fun e => e.rd 0x8001 0x10 = 0 ∧ s.dev.OnlyEntries e [odKey 0x8001 0x10])) ∧
  (∀ (s : State), s.dev.Sound → s.dev.twinProfile = true →
    (s.dev.boot.safeState = false → s.dev.unit = 3 → s.dev.fit = true → s.dev.lease.valid = true →
      Answers .leaseRenewal s fun e => e.lease.sent = (s.dev.lease.nextSeq :: s.dev.lease.sent).take 8 ∧
        e.lease.nextSeq = (s.dev.lease.nextSeq + 1) % 2 ^ 16 ∧ e.lease.valid = true ∧ { e with lease := s.dev.lease } = s.dev) ∧
    (s.dev.boot.safeState = false → s.dev.unit = 3 → s.dev.fit = false →
      Answers .leaseRenewal s fun e => e.lease.sent = s.dev.lease.sent ∧ e.lease.nextSeq = (s.dev.lease.nextSeq + 1) % 2 ^ 16 ∧
        e.lease.tx = s.dev.arbMessage 0x13 (s.dev.unit * 2 ^ 56 + s.dev.rd 0x2020 5 * 2 ^ 48 + s.dev.selfTestBits * 2 ^ 32) ∧ { e with lease := s.dev.lease } = s.dev) ∧
    (s.dev.unit = 4 → Answers .leaseRenewal s fun e => e = s.dev) ∧
    (s.dev.lease.valid = true → s.dev.rd 0x8001 4 ≤ s.dev.period → Answers .flagFall s fun e => e.lease.valid = false ∧ s.dev.Counted e 0x8001 0x0B ∧ e.rd 0x8001 1 = 3 ∧
      e.rd 0x8001 4 = 0 ∧ e.rd 0x2020 4 = 0 ∧ e.unit = s.dev.unit) ∧
    (s.dev.lease.valid = false → Answers .flagFall s fun e => e = s.dev) ∧
    (s.dev.unit = 3 → s.dev.lease.valid = false → s.dev.lease.stalemate = false → s.dev.epwin ≤ s.dev.lease.noLease →
      Answers .stalemate s fun e => e.lease.stalemate = true ∧ s.dev.Counted e 0x8001 0x0D ∧
        (∀ p, p < 2 → s.dev.poleLive p = true → 6 ∈ (e.pole p).trips) ∧ bit (e.rd 0x2020 6) 4 = true) ∧
    (s.dev.lease.valid = true → Answers .stalemate s fun e => e = s.dev) ∧
    (s.dev.coldOk = true → Answers .coldStartRequest s fun e => e.lease.sent = (s.dev.lease.nextSeq :: s.dev.lease.sent).take 8 ∧
      e.lease.cold = true ∧ e.rd 0x8001 1 = 1 ∧ s.dev.OnlyEntries { e with lease := s.dev.lease } [odKey 0x8001 1]) ∧
    (s.dev.coldOk = false → Answers .coldStartRequest s fun e => e = s.dev))

/-! ### The Rolpor link and its records (spec/13_twin_and_lease.md) -/

/-- R422, R424, R433: the link comes up between units of one station and opposite identity, with its trained lanes; it goes down. In every
tick the ACTIVE unit sends its TICK record and each unit its health record. What a record carries follows assumption log 61 and 62. A
command whose event cannot occur changes nothing (assumption log 7). -/
def Obligations.RolporLink : Prop :=
  ∀ (straps lanes delay : Nat) (s : State), s.dev.Sound → s.dev.twinProfile = true →
    (s.dev.unit ≠ 4 → s.dev.boot.safeState = false → field (s.dev.rd 0xA000 1) 1 6 = field straps 1 6 →
      bit (s.dev.rd 0xA000 1) 0 ≠ bit straps 0 →
      Answers (.rolporLinkUp straps 0xFF delay) s fun e => e.rd 0x8002 1 = 3 ∧ e.rd 0x8002 2 = 0xFF ∧
        s.dev.OnlyEntries e [odKey 0x8002 1, odKey 0x8002 2, odKey 0x8002 4]) ∧
    (s.dev.unit ≠ 4 → s.dev.boot.safeState = false → bit (s.dev.rd 0xA000 1) 0 = bit straps 0 →
      Answers (.rolporLinkUp straps lanes delay) s fun e => e.rd 0x8002 1 = 0 ∧
        s.dev.OnlyEntries { e with ring := s.dev.ring } [odKey 0x8002 1]) ∧
    (s.dev.unit ≠ 1 → Answers .rolporLinkDown s fun e => e.rd 0x8002 1 = 0 ∧ e.rd 0x8002 2 = 0 ∧
      (s.dev.unit = 0 → e.twin = { s.dev.twin with resyncReq := false, snapTick := 0 }) ∧ (s.dev.unit ≠ 0 → e.twin = s.dev.twin) ∧
      s.dev.OnlyEntries { e with twin := s.dev.twin } [odKey 0x8002 1, odKey 0x8002 2]) ∧
    (s.dev.unit = 1 → s.dev.twin.leaveSync = false → Answers .rolporLinkDown s fun e => e.rd 0x8002 1 = 0 ∧ e.twin.leaveSync = true ∧
      s.dev.Counted e 0x8000 0x0A) ∧
    (s.dev.ticking = true → s.dev.unit = 3 → s.dev.boot.safeState = false →
      Answers .tickRecordSend s fun e => e.twin.txSeq = (s.dev.twin.txSeq + 1) % 2 ^ 32 ∧
        e.twin.lastTx = [1, b2n s.dev.lease.valid, s.dev.rd 0x2020 5, s.dev.tick, (s.dev.twin.txSeq + 1) % 2 ^ 32]
          ++ ((List.range 32).map fun ch => s.dev.rd (chIdx ch) 9) ++ [s.dev.latchMap, s.dev.latchDigest, s.dev.twin.prevHash] ∧
        { e with twin := s.dev.twin } = s.dev) ∧
    (s.dev.unit ≠ 3 → Answers .tickRecordSend s fun e => e = s.dev) ∧
    (s.dev.boot.safeState = false → s.dev.boot.plantHeld = false →
      Answers .healthRecordSend s fun e => e.twin.txSeq = (s.dev.twin.txSeq + 1) % 2 ^ 32 ∧
        e.twin.lastTx = 4 :: beBytes 64 s.dev.healthBody ∧ s.dev.OnlyEntries { e with twin := s.dev.twin } [odKey 0x8010 1])

/-- R425, R429 to R431, R434: what a STANDBY-SYNC unit takes from the records of the ACTIVE unit. A TICK record of the present tick with the
unit's own hash is kept, with another hash it ends STANDBY-SYNC and is counted; a forwarded write or decision waits for its T0, and one
that is late ends STANDBY-SYNC; the peer's health record is shown. R435, R436: a STANDBY-SYNC unit without the tick's record bridges: it
is shown and counted, and a fit unit asks for the lease with priority 2. After EPWIN ticks without a grant it leaves STANDBY-SYNC. When
a unit leaves STANDBY-SYNC follows assumption log 64. A command whose event cannot occur changes nothing (assumption log 7). -/
def Obligations.StandbyAndBridging : Prop :=
  (∀ (r : TickRec) (rseq idx sub eff v p : Nat) (body : Nat) (margin : Int) (s : State), s.dev.Sound → s.dev.twinProfile = true →
    s.dev.twin.rxSeq = none →
    (s.dev.unit = 2 → 2 ≤ s.dev.rd 0x8002 1 → bit (s.dev.rd 0x2020 6) 1 = false → r.tick = s.dev.tick → 0 ≤ margin →
      (r.hash = s.dev.twin.prevHash → Answers (.rolporTickRecord r rseq false true margin) s fun e => e.twin.tickRec = some r ∧
        e.twin.rxSeq = some rseq ∧ e.twin.leaveSync = s.dev.twin.leaveSync ∧ e.lease.noTick = 0) ∧
      (r.hash ≠ s.dev.twin.prevHash → Answers (.rolporTickRecord r rseq false true margin) s fun e => e.twin.leaveSync = true ∧
        e.twin.diverged = true ∧ s.dev.Counted e 0x8000 0x0C)) ∧
    (Answers (.rolporTickRecord r rseq false false margin) s fun e => e = s.dev) ∧
    (s.dev.unit = 2 → s.dev.tick < eff →
      (Answers (.writeRecord rseq idx sub eff v false) s fun e =>
        e.twin = { s.dev.twin with rxSeq := some rseq, writes := s.dev.twin.writes ++ [(eff, odKey idx sub, v)] } ∧
        { e with twin := s.dev.twin } = s.dev) ∧
      (Answers (.decisionRecord rseq eff (.command p 3 0) false) s fun e =>
        e.twin = { s.dev.twin with rxSeq := some rseq, decisions := s.dev.twin.decisions ++ [(eff, .command p 3 0)] } ∧
        { e with twin := s.dev.twin } = s.dev)) ∧
    (s.dev.unit = 2 → eff ≤ s.dev.tick →
      (Answers (.writeRecord rseq idx sub eff v false) s fun e => e.twin = { s.dev.twin with rxSeq := some rseq, leaveSync := true } ∧
        { e with twin := s.dev.twin } = s.dev) ∧
      (Answers (.decisionRecord rseq eff (.command p 3 0) false) s fun e =>
        e.twin = { s.dev.twin with rxSeq := some rseq, leaveSync := true } ∧ { e with twin := s.dev.twin } = s.dev)) ∧
    (Answers (.healthRecord rseq body false true) s fun e => e.rd 0x2020 9 = field body 440 8 ∧ e.rd 0x8011 2 = 0 ∧
      e.twin.rxSeq = some rseq) ∧
    (Answers (.healthRecord rseq body false false) s fun e => e = s.dev) ∧
    (8 < s.dev.rd 0x8011 2 → s.dev.boot.act.pending = false → Answers .peerHealthStale s fun e => e.rd 0x2020 9 = 0xFF ∧
      e.twin.goodPeer = 0 ∧ e.twin.peerSafe = 0 ∧ s.dev.OnlyEntries { e with twin := s.dev.twin } [odKey 0x2020 9]) ∧
    (s.dev.rd 0x8011 2 ≤ 8 → Answers .peerHealthStale s fun e => e = s.dev)) ∧
  (∀ (r : TickRec) (s : State), s.dev.Sound → s.dev.twinProfile = true →
    (s.dev.unit = 2 → bit (s.dev.rd 0x2020 6) 1 = false → s.dev.twin.tickRec = none →
      Answers .tickRecordDeadline s fun e => bit (e.rd 0x2020 6) 1 = true ∧ s.dev.Counted e 0x8000 0x0E ∧
        e.twin.bridgeFrom = s.dev.tick ∧
        (s.dev.fit = true → e.lease.sent = (s.dev.lease.nextSeq :: s.dev.lease.sent).take 8 ∧ e.rd 0x8001 1 = 1) ∧
        (s.dev.fit = false → e.lease = s.dev.lease)) ∧
    (s.dev.twin.tickRec = some r → r.tick = s.dev.tick → Answers .tickRecordDeadline s fun e => e = s.dev) ∧
    (s.dev.unit = 2 → bit (s.dev.rd 0x2020 6) 1 = true → s.dev.twin.bridgeFrom + s.dev.epwin ≤ s.dev.tick →
      Answers .bridgingTimeout s fun e => e = { s.dev with twin := { s.dev.twin with leaveSync := true } }) ∧
    (s.dev.tick < s.dev.twin.bridgeFrom + s.dev.epwin → Answers .bridgingTimeout s fun e => e = s.dev))

/-! ### Castling, twin commands and resynchronisation (spec/13_twin_and_lease.md) -/

/-- R407, R438, R439, R442, R447, R468: the commands of 0x8000.01. CASTLE on the holder sets the castling tick, the first multiple of 1,024
at least 256 ticks away, or shows the first condition of R438 that fails; RESYNC asks from STANDBY-UNSYNC; OUT OF SERVICE and RETURN act
at the next tick boundary. R439 to R441, R447: castling. The standby acknowledges a proposal that it can take, the holder notes the
answer, and at the T0 of the castling tick the roles swap: the ACTIVE unit releases its lease, the standby becomes ACTIVE and asks with
priority 3 if it is fit. A CASTLE while one is pending shows 4 by assumption log 13. Any abandonment drops it on both sides. A dispute
ends after 1,000 quiet ticks. When a unit state changes follows assumption log 64. A command whose event cannot occur changes nothing
(assumption log 7). Abort codes of refused commands follow assumption log 13. Times are counted in whole ticks, rounded up (assumption
log 8). -/
def Obligations.TwinRoles : Prop :=
  (∀ (s : State), s.dev.Sound → s.dev.mailbox = true → s.dev.twinProfile = true →
    (s.dev.judge 0x8000 1 1 1 = none →
      (s.dev.unit = 3 → s.dev.lease.valid = true → s.dev.twin.castle = 0 → s.dev.castleFails = 0 →
        Answers .castle s fun e => e.twin.castle = 1 ∧ e.twin.noRelease = false ∧ e.rd 0x8000 3 = s.dev.futureTick 1024 256 % 2 ^ 64 ∧
          e.rd 0x8000 2 = 0 ∧ bit (e.rd 0x2020 6) 2 = true ∧ e.twin.lastTx = [5, 2, s.dev.futureTick 1024 256] ∧ e.unit = 3) ∧
      (s.dev.unit = 3 → s.dev.lease.valid = true → s.dev.twin.castle = 0 → s.dev.castleFails ≠ 0 →
        Answers .castle s fun e => e.rd 0x8000 2 = 3 ∧ e.rd 0x8000 4 = s.dev.castleFails ∧ e.twin = s.dev.twin) ∧
      (s.dev.unit = 3 → s.dev.lease.valid = true → s.dev.twin.castle ≠ 0 →
        Answers .castle s fun e => e.rd 0x8000 2 = 4 ∧ e.twin = s.dev.twin) ∧
      (s.dev.unit = 2 → Answers .castle s fun e => e.rd 0x8000 2 = 2 ∧ e.station.sdoResult = 0x08000020 ∧ e.twin = s.dev.twin)) ∧
    (s.dev.judge 0x8000 1 1 2 = none →
      (s.dev.unit = 0 → s.dev.disputed = false → Answers .resync s fun e => e.rd 0x8000 2 = 0 ∧ e.twin.resyncCmd = true) ∧
      (s.dev.unit = 3 → Answers .resync s fun e => e.rd 0x8000 2 = 1 ∧ e.twin = s.dev.twin)) ∧
    (s.dev.judge 0x8000 1 1 3 = none →
      (s.dev.unit ≠ 3 → Answers .outOfService s fun e => e.twin = { s.dev.twin with unitGo := some 4, oos := true } ∧
        e.rd 0x8000 2 = 0 ∧ s.dev.KeepsEntries e [odKey 0x8000 2]) ∧
      (s.dev.unit = 3 → Answers .outOfService s fun e => e.rd 0x8000 2 = 1 ∧ e.twin = s.dev.twin)) ∧
    (s.dev.judge 0x8000 1 1 4 = none → s.dev.unit = 4 → s.dev.boot.faultSince = false → s.dev.fit = true → 5 ≤ s.dev.boot.plState →
      Answers .returnToService s fun e => e.twin = { s.dev.twin with unitGo := some 0, oos := false } ∧ e.rd 0x8000 2 = 0) ∧
    (s.dev.judge 0x8000 1 1 5 = none →
      (s.dev.unit = 3 → s.dev.twin.castle ≠ 0 → s.dev.twin.noRelease = false →
        Answers .abandonCastling s fun e => e.twin.castle = 0 ∧ e.rd 0x8000 3 = 0 ∧ bit (e.rd 0x2020 6) 2 = false ∧ e.rd 0x8000 2 = 0 ∧
          e.twin.lastTx = [5, 4]) ∧
      (s.dev.twin.castle = 0 → Answers .abandonCastling s fun e => e.rd 0x8000 2 = 1 ∧ e.twin = s.dev.twin))) ∧
  (∀ (c : Nat) (s : State), s.dev.Sound → s.dev.twinProfile = true →
    (s.dev.unit = 2 → s.dev.peerShows 3 0 = true → s.dev.selfTestBits % 4096 = 0xFFF → s.dev.rd 0x8001 0x10 = 1 →
      bit s.dev.peerBody 427 = true → s.dev.disputed = false →
      Answers (.castlePropose c) s fun e => e.twin.castle = 2 ∧ e.twin.noRelease = false ∧ e.rd 0x8000 3 = c % 2 ^ 64 ∧
        bit (e.rd 0x2020 6) 2 = true ∧ e.twin.lastTx = [5, 3, c]) ∧
    (s.dev.unit ≠ 2 → Answers (.castlePropose c) s fun e => e = s.dev.control [4]) ∧
    (s.dev.unit = 3 → s.dev.twin.castle = 1 → s.dev.rd 0x8000 3 = c →
      Answers (.castleAck c) s fun e => e = { s.dev with twin := { s.dev.twin with castle := 2 } }) ∧
    (s.dev.twin.castle ≠ 0 → Answers .castleAbandon s fun e => e.twin.castle = 0 ∧ e.rd 0x8000 3 = 0 ∧ bit (e.rd 0x2020 6) 2 = false) ∧
    (s.dev.twin.castle = 0 → Answers .castleAbandon s fun e => e = s.dev) ∧
    (s.dev.unit = 2 → Answers (.abdicate c) s fun e => e.twin.castle = 2 ∧ e.twin.noRelease = true ∧ e.rd 0x8000 3 = c % 2 ^ 64 ∧
      s.dev.OnlyEntries { e with twin := s.dev.twin } [odKey 0x8000 3]) ∧
    (s.dev.twin.castle = 2 → s.dev.rd 0x8000 3 ≤ s.dev.tick →
      (s.dev.unit = 3 → s.dev.twin.noRelease = false → Answers .castlingTick s fun e => e.unit = 2 ∧ e.lease.valid = false ∧
        e.twin.castle = 0 ∧ e.rd 0x2020 8 = s.dev.tick) ∧
      (s.dev.unit = 2 → Answers .castlingTick s fun e => e.unit = 3 ∧ e.twin.castle = 0 ∧
        e.twin.castleWait = !s.dev.twin.noRelease ∧
        e.lease.sent = if s.dev.fit then (s.dev.lease.nextSeq :: s.dev.lease.sent).take 8 else s.dev.lease.sent)) ∧
    (s.dev.twin.castle = 1 → s.dev.rd 0x8000 3 ≤ s.dev.tick → Answers .castlingTick s fun e => e.twin.castle = 0 ∧ e.unit = s.dev.unit ∧
      e.twin.lastTx = [5, 4]) ∧
    (s.dev.unit = 3 → s.dev.twin.castleWait = true → s.dev.lease.valid = false →
      s.dev.twin.castleAt + s.dev.ticksOf (s.dev.rd 0x8000 0x41) ≤ s.dev.tick →
      Answers .castlingGrantTimeout s fun e => e.twin.castleWait = false ∧ e.rd 0x8001 1 = 3 ∧
        s.dev.OnlyEntries { e with twin := s.dev.twin, ring := s.dev.ring } [odKey 0x8001 1]) ∧
    (s.dev.disputed = true → 1000 ≤ s.dev.twin.dispQuiet → Answers .disputeEnd s fun e => e.disputed = false ∧ e.rd 0x2020 7 = 0 ∧
      s.dev.OnlyEntries { e with ring := s.dev.ring } [odKey 0x2020 6, odKey 0x2020 7]) ∧
    (s.dev.twin.dispQuiet < 1000 → Answers .disputeEnd s fun e => e = s.dev))

/-- R443, R444: resynchronisation. The ACTIVE unit answers with a snapshot tick, the first multiple of 256 at least 64 ticks away; at it a
standby whose configuration is the peer's enters RESYNC with empty buffers; what it receives is buffered, the state is loaded, the
outer-control state starts its runs, and enough equal hashes lead to STANDBY-SYNC at the next tick boundary. More than 1 s ends the
attempt, which is counted. The records and their replay follow assumption log 62 and 63. A command whose event cannot occur changes
nothing (assumption log 7). Times are counted in whole ticks, rounded up (assumption log 8). -/
def Obligations.Resynchronisation : Prop :=
  ∀ (c rseq n v : Nat) (part : StatePart) (blocks : List RefBlock) (poles : List PoleCtl) (s : State), s.dev.Sound →
    s.dev.twinProfile = true → s.dev.twin.rxSeq = none →
    (s.dev.unit = 3 → Answers .resyncRequest s fun e => e.twin.snapTick = s.dev.futureTick 256 64 ∧
      e.twin.lastTx = [5, 7, s.dev.futureTick 256 64] ∧ { e with twin := s.dev.twin } = s.dev) ∧
    (s.dev.unit = 0 → s.dev.twin.resyncReq = true →
      (Answers (.resyncAck c) s fun e => e = { s.dev with twin := { s.dev.twin with snapTick := c } }) ∧
      (s.dev.twin.snapTick = s.dev.tick → s.dev.tick ≠ 0 → s.dev.twin.unlike = false → Answers .snapshotTick s fun e => e.unit = 1 ∧ e.twin.resyncReq = false ∧
        e.twin.buffered = [] ∧ e.twin.bufState = [] ∧ e.twin.bufWrites = [] ∧ e.twin.loaded = false ∧ e.twin.verified = 0)) ∧
    (s.dev.twin.snapTick ≠ s.dev.tick → Answers .snapshotTick s fun e => e = s.dev) ∧
    (s.dev.unit = 0 → s.dev.twin.unlike = true → Answers .snapshotTick s fun e => e = s.dev) ∧
    (s.dev.unit = 1 →
      (Answers (.stateRecord rseq part false) s fun e =>
        e = { s.dev with twin := { s.dev.twin with rxSeq := some rseq, bufState := s.dev.twin.bufState ++ [part] } }) ∧
      (Answers (.refblkRecord rseq n blocks false) s fun e =>
        e = { s.dev with twin := { s.dev.twin with rxSeq := some rseq, bufBlocks := s.dev.twin.bufBlocks ++ [(n, blocks)] } }) ∧
      (s.dev.twin.loaded = false → s.dev.twin.leaveSync = false →
        Answers .resyncStateLoaded s fun e => e.twin.loaded = true ∧ e.twin.bufState = [] ∧ e.twin.bufReports = []) ∧
      (s.dev.twin.loaded = true → s.dev.twin.gotOuter = false → s.dev.twin.leaveSync = false → v ≤ s.dev.tick →
        Answers (.outerRecord rseq v poles true false) s fun e => e.twin.gotOuter = true ∧ e.tick = s.dev.tick ∧ e.unit = 1) ∧
      (s.dev.twin.loaded = true → s.dev.twin.leaveSync = false → s.dev.rd 0x8000 0x40 ≤ s.dev.twin.verified →
        Answers .resyncVerified s fun e => e = { s.dev with twin := { s.dev.twin with unitGo := some 2 } }) ∧
      (s.dev.twin.leaveSync = false → s.dev.twin.snapTick + s.dev.ticksOf 1000000 < s.dev.tick →
        Answers .resyncTimeout s fun e => e.twin.leaveSync = true ∧ s.dev.Counted e 0x8000 0x0A ∧
          e.rd 0x8000 5 = min 255 (s.dev.rd 0x8000 5 + 1) ∧
          s.dev.OnlyEntries { e with twin := s.dev.twin } [odKey 0x8000 5, odKey 0x8000 0x0A, odKey 0x8000 0x0B, odKey 0x9000 1])) ∧
    (s.dev.twin.verified < s.dev.rd 0x8000 0x40 → Answers .resyncVerified s fun e => e = s.dev) ∧
    (s.dev.tick ≤ s.dev.twin.snapTick + s.dev.ticksOf 1000000 → Answers .resyncTimeout s fun e => e = s.dev)

/-! ### Pole commands (spec/05_pole_control.md, spec/06_fault_ride_through.md) -/

/-- R188 to R190, R203: ENERGISE, DEBLOCK and DE-ENERGISE accepted: the pole changes at the next tick boundary, or at the deblock tick, the
first multiple of 64 at least 32 ticks away, with the result PENDING till then. With a lane of the pole down the sequence of ENERGISE is
ABORTED with reason 1 as it enters ENERGISING. A command in a state without its row is refused with result 1, and one without the lease
with result 2, for DEBLOCK with its condition 2. R165, R186, R188, R208, R712: BLOCK, RESET, RECONNECTED, RUN-BACK and its end. RESET
leads to BLOCKED-READY when the pole is energised, else to BLOCKED, and is refused while the trip cause is present. Cases that no row of
a table names follow assumption log 45. Abort codes of refused commands follow assumption log 13. -/
def Obligations.PoleCommands : Prop :=
  (∀ (p : Nat) (s : State), s.dev.Sound →
    (s.dev.poleServed p 1 → s.dev.poleJudge p 1 = (0, 0) →
      (s.dev.poleLanesUp p = true → Answers (.energise p) s fun e => (e.pole p).goto = some 2 ∧ e.pole (1 - p) = s.dev.pole (1 - p) ∧
        e.rd (poleIdx 0x3001 p) 3 = 0 ∧ e.poleState p = s.dev.poleState p ∧ bit (e.rd (reqIdx p) 3) 2 = false ∧
        s.dev.KeepsEntries e [odKey (poleIdx 0x3001 p) 3, odKey (poleIdx 0x3001 p) 5, odKey (reqIdx p) 3, odKey 0x510C 1, odKey 0x510D 1]) ∧
      (s.dev.poleLanesUp p = false → Answers (.energise p) s fun e => e.rd (enIdx p) 0x0E = 6 ∧ e.rd (enIdx p) 0x10 = 1 ∧
        (e.pole p).goto = some 2 ∧ (e.pole p).trips = (s.dev.pole p).trips)) ∧
    (s.dev.poleState p = 1 → s.dev.rd (enIdx p) 0x0E = 6 →
      (s.dev.enterPole p 2).poleState p = 2 ∧ 8 ∈ ((s.dev.enterPole p 2).pole p).trips ∧
        s.dev.Counted (s.dev.enterPole p 2) (enIdx p) 0x0F) ∧
    (s.dev.poleServed p 1 → s.dev.poleState p = 1 → (s.dev.pole p).goto = none → s.dev.rd 0x9010 0x40 = 1 → Answers (.energise p) s fun e =>
      e.rd (poleIdx 0x3001 p) 3 = 3 ∧ e.poles = s.dev.poles) ∧
    (s.dev.poleServed p 2 → s.dev.poleState p = 3 → s.dev.rd 0x9010 0x40 = 1 → Answers (.deblock p) s fun e =>
      e.rd (poleIdx 0x3001 p) 3 = 3 ∧ e.poles = s.dev.poles) ∧
    (s.dev.poleServed p 1 → s.dev.poleState p = 4 → Answers (.energise p) s fun e => e.rd (poleIdx 0x3001 p) 3 = 1 ∧
      e.poles = s.dev.poles ∧ e.station.sdoResult = 0x08000022) ∧
    (s.dev.poleServed p 2 → s.dev.poleJudge p 2 = (0, 0) → Answers (.deblock p) s fun e =>
      (e.pole p).deblockAt = some (s.dev.futureTick 64 32) ∧ e.rd (poleIdx 0x3001 p) 4 = s.dev.futureTick 64 32 % 2 ^ 64 ∧
        e.rd (poleIdx 0x3001 p) 3 = 4 ∧ e.pole (1 - p) = s.dev.pole (1 - p)) ∧
    (p < 2 → s.dev.mailbox = true → s.dev.judgeAs true (poleIdx 0x3001 p) 1 1 2 = none → s.dev.holds = false →
      Answers (.deblock p) s fun e => e.rd (poleIdx 0x3001 p) 3 = 2 ∧ e.rd (poleIdx 0x3001 p) 5 = 2 ∧
        e.poles = s.dev.poles ∧ e.station.sdoResult = 0x08000020) ∧
    (s.dev.poleServed p 5 → s.dev.poleState p = 3 → Answers (.deEnergise p) s fun e => (e.pole p).goto = some 1 ∧
      bit (e.rd (reqIdx p) 3) 2 = true ∧ e.rd (poleIdx 0x3001 p) 3 = 0 ∧ e.pole (1 - p) = s.dev.pole (1 - p))) ∧
  (∀ (p : Nat) (s : State), s.dev.Sound →
    (s.dev.poleServed p 3 → (s.dev.poleState p = 4 ∨ s.dev.poleState p = 5) →
      Answers (.block p) s fun e => (e.pole p).goto = some 3 ∧ e.pole (1 - p) = s.dev.pole (1 - p) ∧ e.rd (poleIdx 0x3001 p) 3 = 0 ∧
        s.dev.KeepsEntries e [odKey (poleIdx 0x3001 p) 3, odKey (poleIdx 0x3001 p) 5]) ∧
    (s.dev.poleServed p 3 → s.dev.poleState p = 2 → 1 ≤ s.dev.rd (enIdx p) 0x0E → s.dev.rd (enIdx p) 0x0E ≤ 4 → Answers (.block p) s fun e => e.rd (enIdx p) 0x10 = 9 ∧ 8 ∈ (e.pole p).trips) ∧
    (s.dev.poleServed p 4 → s.dev.poleState p = 6 → s.dev.disputed = false →
      (s.dev.causePresent p = false → Answers (.reset p) s fun e => (e.pole p).goto = some (if s.dev.energised p then 3 else 1) ∧
        bit (e.rd (reqIdx p) 3) 3 = false ∧ e.pole (1 - p) = s.dev.pole (1 - p)) ∧
      (s.dev.causePresent p = true → Answers (.reset p) s fun e => e.rd (poleIdx 0x3001 p) 3 = 3 ∧ e.poles = s.dev.poles)) ∧
    (s.dev.poleServed p 6 → s.dev.poleState p = 5 → s.dev.disputed = false → s.dev.rd (poleIdx 0x3004 p) 3 ≠ 0 →
      Answers (.reconnected p) s fun e => e.pole p = { s.dev.pole p with reconnect := true } ∧ e.pole (1 - p) = s.dev.pole (1 - p) ∧
        s.dev.KeepsEntries e [odKey (poleIdx 0x3001 p) 3, odKey (poleIdx 0x3001 p) 5]) ∧
    (s.dev.poleServed p 7 → s.dev.poleState p ≠ 0 → Answers (.runBack p) s fun e =>
      e.pole p = { s.dev.pole p with runBack := some (s.dev.rdF (poleIdx 0x3001 p) 2) } ∧ e.sub p 4 = true ∧
        e.pole (1 - p) = s.dev.pole (1 - p) ∧
        s.dev.KeepsEntries e [odKey (poleIdx 0x3001 p) 3, odKey (poleIdx 0x3001 p) 5, odKey (poleIdx 0x3000 p) 2]) ∧
    (s.dev.poleServed p 8 → s.dev.poleState p ≠ 0 → Answers (.runBackEnd p) s fun e =>
      e.pole p = { s.dev.pole p with runBack := none } ∧ e.sub p 4 = false ∧ e.pole (1 - p) = s.dev.pole (1 - p) ∧
        s.dev.KeepsEntries e [odKey (poleIdx 0x3001 p) 3, odKey (poleIdx 0x3001 p) 5, odKey (poleIdx 0x3000 p) 2]))

/-- R189, R203, R206, R555: the deblock tick judges every condition again and enters DEBLOCKED or shows the one that fails; BLOCK ALL blocks
both poles; an abort of the energisation trips with cause 8 and shows reason 9; a time limit of the sequence joins the decisions of the
fast run in progress, and acts at its commit tick as Table 6.1 says. A time limit acts through the fast run in progress, else through
the next one, by assumption log 45. A command whose event cannot occur changes nothing (assumption log 7). -/
def Obligations.PoleSequence : Prop :=
  ∀ (p t r : Nat) (x : FastPend) (s : State), s.dev.Sound → p < 2 →
    ((s.dev.pole p).deblockAt = some t → t ≤ s.dev.tick → (s.dev.twinProfile = true → s.dev.unit = 3) →
      (s.dev.deblockFails p = 0 → Answers (.deblockTick p) s fun e => e.poleState p = 4 ∧ e.rd (poleIdx 0x3000 p) 3 = s.dev.tick ∧
        (e.pole p).deblockAt = none ∧ e.rd (poleIdx 0x3001 p) 3 = 0) ∧
      (s.dev.deblockFails p ≠ 0 → Answers (.deblockTick p) s fun e => e.poleState p = s.dev.poleState p ∧ (e.pole p).deblockAt = none ∧
        e.rd (poleIdx 0x3001 p) 3 = 3 ∧ e.rd (poleIdx 0x3001 p) 5 = s.dev.deblockFails p)) ∧
    ((s.dev.pole p).deblockAt = none → Answers (.deblockTick p) s fun e => e = s.dev) ∧
    (s.dev.mailbox = true → s.dev.judgeAs true 0x2001 1 1 1 = none → s.dev.twinProfile = false → s.dev.plantReachable = true →
      s.dev.poleState 0 = 4 → s.dev.poleState 1 = 5 →
      Answers .blockAll s fun e => (e.pole 0).goto = some 3 ∧ (e.pole 1).goto = some 3 ∧ e.rd 0x2001 2 = 0) ∧
    (s.dev.mailbox = true → s.dev.judge (enIdx p) 0x12 1 1 = none →
      (s.dev.poleState p = 2 → 1 ≤ s.dev.rd (enIdx p) 0x0E → s.dev.rd (enIdx p) 0x0E ≤ 4 →
        Answers (.energisationAbort p) s fun e => e.rd (enIdx p) 0x0E = 6 ∧ e.rd (enIdx p) 0x10 = 9 ∧ 8 ∈ (e.pole p).trips ∧
          s.dev.Counted e (enIdx p) 0x0F ∧ bit (e.rd (reqIdx p) 3) 2 = true) ∧
      (s.dev.poleState p ≠ 2 → Answers (.energisationAbort p) s fun e =>
        e = s.dev.done.forward 2 [odKey (enIdx p) 0x12, s.dev.tick + 1, 1])) ∧
    (s.dev.poleState p = 2 → s.dev.enNext p (s.dev.pole p).fast.trk.state = some (6, r) → r ≠ 8 →
      (s.dev.pole p).fastPend = some x →
      Answers (.energisationTimeout p) s fun e =>
        e.pole p = { s.dev.pole p with fastPend := some { x with acts := x.acts ++ [.energise (s.dev.rd (enIdx p) 0x0E) 6 r] } } ∧
          e.pole (1 - p) = s.dev.pole (1 - p) ∧ { e with poles := s.dev.poles } = s.dev) ∧
    (s.dev.poleState p = 2 → r < 256 →
      (Device.fastAct p s.dev (.energise (s.dev.rd (enIdx p) 0x0E) 6 r)).rd (enIdx p) 0x0E = 6 ∧
        (Device.fastAct p s.dev (.energise (s.dev.rd (enIdx p) 0x0E) 6 r)).rd (enIdx p) 0x10 = r ∧
        8 ∈ ((Device.fastAct p s.dev (.energise (s.dev.rd (enIdx p) 0x0E) 6 r)).pole p).trips) ∧
    (s.dev.poleState p ≠ 2 → Answers (.energisationTimeout p) s fun e => e = s.dev)

/-! ### Outer control (spec/05_pole_control.md, spec/06_fault_ride_through.md, spec/11_loss_tracker.md) -/

/-- R156 to R159: the runs of outer control complete. A fast run of a present pole that starts at the T0 of a tick that is a multiple of T_f
is to commit T_f later with the results and decisions that the rules of the fast tier give, and starts new samples; a slow run at a
multiple of T_s is to commit T_s later with results for every present pole, and starts new sums. Until then nothing else of the device
changes with the fast run. At its commit tick a run that ended is in force; of one that did not the results before stand and it is
counted. Off its ticks a run does nothing. A run computes its results at its start by assumption log 42. Times are counted in whole
ticks, rounded up (assumption log 8). -/
def Obligations.OuterRuns : Prop :=
  ∀ (p : Nat) (finish : Bool) (x : FastPend) (s : State), s.dev.Sound → p < 2 →
    (s.dev.outerRuns = true → s.dev.polePresent p = true → s.dev.ticksOf (s.dev.fastUs p) ≠ 0 →
      s.dev.tick % s.dev.ticksOf (s.dev.fastUs p) = 0 → (s.dev.pole p).fastPend = none →
      ∃ t : State, exec (.fastRun p finish) s = .next t ∧ t.pending = s.pending ∧
        (t.dev.pole p).fastPend =
          some ⟨s.dev.tick + s.dev.ticksOf (s.dev.fastUs p), finish, (s.dev.fastRun p).1, (s.dev.fastRun p).2⟩ ∧
        (t.dev.pole p).samples = [] ∧ (t.dev.pole p).sums.runs = (s.dev.pole p).sums.runs + 1 ∧
        (t.dev.pole p).fast = (s.dev.pole p).fast ∧ t.dev.pole (1 - p) = s.dev.pole (1 - p) ∧
        { t.dev with poles := s.dev.poles } = s.dev) ∧
    (s.dev.tick % s.dev.ticksOf (s.dev.fastUs p) ≠ 0 → exec (.fastRun p finish) s = .next s) ∧
    (s.dev.outerRuns = true → s.dev.ticksOf s.dev.slowUs ≠ 0 → s.dev.tick % s.dev.ticksOf s.dev.slowUs = 0 →
      (s.dev.pole 0).slowPend = none → (s.dev.pole 1).slowPend = none →
      ∃ t : State, exec (.slowRun finish) s = .next t ∧ t.pending = s.pending ∧ t.dev.tick = s.dev.tick ∧
        (t.dev.pole p).sums = ⟨0, 0, 0, 0, 0, 0, 0, 0⟩ ∧
        ((s.dev.pole 0).frames = [] → (s.dev.pole 1).frames = [] →
          (s.dev.polePresent p = true →
            ∃ r, (t.dev.pole p).slowPend = some ⟨s.dev.tick + s.dev.ticksOf s.dev.slowUs, finish, r⟩) ∧
          (s.dev.polePresent p = false → (t.dev.pole p).slowPend = none))) ∧
    (s.dev.tick % s.dev.ticksOf s.dev.slowUs ≠ 0 → exec (.slowRun finish) s = .next s) ∧
    ((s.dev.pole p).fastPend = some x → x.commit = s.dev.tick →
      (x.finish = true → x.acts = [] → (s.dev.poleState p = 4 ∨ s.dev.poleState p = 5) →
        ((s.dev.commitFast p).pole p).fast = x.res ∧ ((s.dev.commitFast p).pole p).fastMiss = 0) ∧
      (x.finish = false → ((s.dev.commitFast p).pole p).fast = (s.dev.pole p).fast ∧
        ((s.dev.commitFast p).pole p).fastMiss = (s.dev.pole p).fastMiss + 1 ∧
        s.dev.Counted (s.dev.commitFast p) (poleIdx 0x3000 p) 0x0D))

/-- R161 to R163, R173, R563: setpoint frames. A unit that holds the role keeps a frame for two ticks later, for each pole what concerns it;
another unit counts it and changes no pole. No frame within the timeout is shown and counted, and the pole falls back, in ride-through
once that is over, or trips with cause 3; a tracker whose angle stays invalid trips it with cause 4. The timeout counts from the last
frame, and from tick 0 before any, by assumption log 46. A command whose event cannot occur changes nothing (assumption log 7). Times
are counted in whole ticks, rounded up (assumption log 8). -/
def Obligations.Setpoints : Prop :=
  ∀ (p : Nat) (vals : List (Nat × Nat)) (s : State), s.dev.Sound → p < 2 →
    (s.dev.ticking = true → s.dev.holds = true →
      Answers (.setpointFrame vals) s fun e => (e.pole p).frames = (s.dev.pole p).frames ++ [⟨s.dev.tick + 2, frameOf p vals⟩] ∧
        (e.pole p).lastFrame = some s.dev.tick ∧ bit (e.rd 0x2030 1) 3 = false ∧ s.dev.KeepsEntries e [odKey 0x2030 1]) ∧
    (s.dev.ticking = true → s.dev.holds = false → s.dev.unit ≠ 3 →
      Answers (.setpointFrame vals) s fun e => s.dev.Counted e 0x2030 5 ∧ bit (e.rd 0x2030 1) 3 = true ∧
        s.dev.OnlyEntries e [odKey 0x2030 1, odKey 0x2030 5, odKey 0x2030 6, odKey 0x9000 1]) ∧
    (s.dev.poleBlocked p = false → s.dev.hasPdoOrder p = true → s.dev.sub p 2 = false →
      (s.dev.pole p).lastFrame.getD 0 + s.dev.ticksOf (1000 * s.dev.rd (poleIdx 0x3003 p) 0x0C) ≤ s.dev.tick →
      (Answers (.setpointLoss p) s fun e => e.sub p 2 = true ∧ s.dev.Counted e (poleIdx 0x3000 p) 0x11 ∧
        e.pole (1 - p) = s.dev.pole (1 - p) ∧
        (s.dev.rd (poleIdx 0x3003 p) 0x0D = 1 → e.pole p = { s.dev.pole p with
          fallback := !s.dev.sub p 0, fallWait := s.dev.sub p 0 }) ∧
        (s.dev.rd (poleIdx 0x3003 p) 0x0D = 2 → 3 ∈ (e.pole p).trips))) ∧
    (s.dev.tick < (s.dev.pole p).lastFrame.getD 0 + s.dev.ticksOf (1000 * s.dev.rd (poleIdx 0x3003 p) 0x0C) →
      Answers (.setpointLoss p) s fun e => e = s.dev) ∧
    (s.dev.poleState p = 4 → (s.dev.pole p).slow.form = false → (s.dev.pole p).fast.trk.valid = false →
      1000 * s.dev.rd (poleIdx 0x3006 p) 6 ≤ (s.dev.pole p).fast.trk.clearUs →
      Answers (.angleLossTrip p) s fun e => 4 ∈ (e.pole p).trips ∧ e.pole (1 - p) = s.dev.pole (1 - p) ∧
        { e with poles := s.dev.poles } = s.dev) ∧
    ((s.dev.pole p).fast.trk.valid = true → Answers (.angleLossTrip p) s fun e => e = s.dev)

/-- R215 to R219: the timers of DC fault suppression. The current in the band for the hold time is the extinction, shown with its time; none
within the limit trips the pole with cause 8; after deionisation a restart is asked for, by itself or by command, and the fast run that
decides it begins it at its commit tick. R357: the settle time of a loss tracker ends: SETTLE-BASE and SETTLE-TRIAL go on to their
windows, which open at the next metering window end. The settle time is read when it expires by assumption log 50. A command whose event
cannot occur changes nothing (assumption log 7). Times are counted in whole ticks, rounded up (assumption log 8). -/
def Obligations.DcFaultAndLoss : Prop :=
  (∀ (p t : Nat) (s : State), s.dev.Sound → p < 2 →
    ((s.dev.pole p).dc.below = some t → s.dev.dcState p = 1 → t + s.dev.ticksOf (s.dev.rd (0x5104 + p) 8) ≤ s.dev.tick →
      Answers (.extinctionHoldExpiry p) s fun e => e.dcState p = 2 ∧
        e.rd (0x5104 + p) 0x12 = (s.dev.tick - (s.dev.pole p).dc.since) * s.dev.period % 2 ^ 32 ∧
        (e.pole p).dc = { (s.dev.pole p).dc with ir := 0, extinct := s.dev.tick } ∧
        s.dev.OnlyEntries { e with poles := s.dev.poles } [odKey (0x5104 + p) 0x10, odKey (0x5104 + p) 0x12]) ∧
    ((s.dev.pole p).dc.below = none → Answers (.extinctionHoldExpiry p) s fun e => e = s.dev) ∧
    (s.dev.dcState p = 1 → (s.dev.pole p).dc.since + s.dev.ticksOf (s.dev.rd (0x5104 + p) 6) ≤ s.dev.tick → s.dev.poleLive p = true →
      Answers (.extinctionLimitExpiry p) s fun e => e.dcState p = 0 ∧ 8 ∈ (e.pole p).trips ∧ e.pole (1 - p) = s.dev.pole (1 - p)) ∧
    (s.dev.dcState p ≠ 1 → Answers (.extinctionLimitExpiry p) s fun e => e = s.dev) ∧
    (s.dev.deionised p = true → s.dev.rd (0x5104 + p) 0x0D ≠ 0 →
      Answers (.deionisationExpiry p) s fun e => e.pole p = { s.dev.pole p with dc := { (s.dev.pole p).dc with again := true } } ∧
        e.pole (1 - p) = s.dev.pole (1 - p) ∧ { e with poles := s.dev.poles } = s.dev) ∧
    (s.dev.deionised p = false → Answers (.deionisationExpiry p) s fun e => e = s.dev) ∧
    (s.dev.mailbox = true → s.dev.judge (0x5104 + p) 0x11 1 1 = none →
      (s.dev.deionised p = true → Answers (.dcRestart p) s fun e => e.station.sdoResult = 0 ∧ e.od = s.dev.od ∧
        e.pole p = { s.dev.pole p with dc := { (s.dev.pole p).dc with again := true } }) ∧
      (s.dev.deionised p = false → Answers (.dcRestart p) s fun e => e.station.sdoResult = 0 ∧ e.od = s.dev.od ∧
        e.poles = s.dev.poles)) ∧
    (s.dev.dcState p = 2 →
      (Device.fastAct p s.dev .restartBegin).dcState p = 3 ∧ ((Device.fastAct p s.dev .restartBegin).pole p).fast.xR = 0 ∧
        ((Device.fastAct p s.dev .restartBegin).pole p).fast.vt = (s.dev.lastDc p).1 / (2 * (s.dev.base p).vb) ∧
        s.dev.KeepsEntries (Device.fastAct p s.dev .restartBegin) [odKey (0x5104 + p) 0x10])) ∧
  (∀ (p : Nat) (s : State), s.dev.Sound → p < 2 →
    ((s.dev.rd (0x5001 + p) 1 = 2 ∨ s.dev.rd (0x5001 + p) 1 = 4) →
      (s.dev.pole p).loss.settle + s.dev.ticksOf (1000 * s.dev.rd 0x5000 4) ≤ s.dev.tick →
      Answers (.lossSettleExpiry p) s fun e => e.rd (0x5001 + p) 1 = s.dev.rd (0x5001 + p) 1 + 1 ∧
        (e.pole p).loss = { (s.dev.pole p).loss with toOpen := true, closed := none } ∧ e.pole (1 - p) = s.dev.pole (1 - p) ∧
        s.dev.OnlyEntries { e with poles := s.dev.poles } [odKey (0x5001 + p) 1]) ∧
    (s.dev.tick < (s.dev.pole p).loss.settle + s.dev.ticksOf (1000 * s.dev.rd 0x5000 4) →
      Answers (.lossSettleExpiry p) s fun e => e = s.dev))

/-! ### Exclusion and forcing (spec/07_rank_engine.md, spec/08_firing_and_forcing.md) -/

/-- R235 to R237, R276 to R280: an exclusion map in range joins the writes of the next T0, one with a bit above the cell count or that
leaves a live arm too few cells aborts; a force request that passes R278 waits for the next T0, and one that fails changes no arm. Abort
codes of refused commands follow assumption log 13. -/
def Obligations.ExclusionAndForce : Prop :=
  ∀ (a map scope pattern lanes level offset code : Nat) (s : State), s.dev.Sound → a < 12 → s.dev.mailbox = true →
    (s.dev.judge (armIdx 0x4002 a) 1 128 map = none →
      (map < 2 ^ s.dev.rd (armIdx 0x4000 a) 2 → s.dev.armLive a = false → s.dev.timer.running = true →
        Answers (.exclusionMapWrite a map) s fun e => e.live = s.dev.live ++ [(odKey (armIdx 0x4002 a) 1, map)] ∧ e.od = s.dev.od ∧
          e.arms = s.dev.arms ∧ e.station.sdoResult = 0) ∧
      (2 ^ s.dev.rd (armIdx 0x4000 a) 2 ≤ map → Answers (.exclusionMapWrite a map) s fun e => e.station.sdoResult = 0x06090030 ∧
        s.dev.OnlyEntries { e with station := s.dev.station } [odKey 0x2002 8, odKey 0x2002 9]) ∧
      (map < 2 ^ s.dev.rd (armIdx 0x4000 a) 2 → s.dev.armLive a = true → s.dev.availUnder a map < max 1 (s.dev.rd (0x5301 + a) 6) →
        Answers (.exclusionMapWrite a map) s fun e => e.station.sdoResult = 0x08000020 ∧
          s.dev.OnlyEntries { e with station := s.dev.station } [odKey 0x2002 8, odKey 0x2002 9])) ∧
    (s.dev.judge (armIdx 0x4003 a) 1 1 scope = none → s.dev.judge (armIdx 0x4003 a) 2 1 pattern = none →
      s.dev.judge (armIdx 0x4003 a) 3 4 lanes = none → s.dev.judge (armIdx 0x4003 a) 4 2 level = none →
      s.dev.judge (armIdx 0x4003 a) 5 1 offset = none →
      (s.dev.forceAbort a ⟨scope, pattern, lanes, toInt 16 level, offset⟩ = none →
        Answers (.forceRequest a scope pattern lanes level offset) s fun e =>
          e.arm a = { s.dev.arm a with forceTo := some ⟨scope, pattern, lanes, toInt 16 level, offset⟩ } ∧
            (∀ b, b ≠ a → e.arm b = s.dev.arm b) ∧ e.station.sdoResult = 0) ∧
      (s.dev.forceAbort a ⟨scope, pattern, lanes, toInt 16 level, offset⟩ = some code →
        Answers (.forceRequest a scope pattern lanes level offset) s fun e => e.arms = s.dev.arms ∧ e.station.sdoResult = code ∧
          s.dev.OnlyEntries { e with station := s.dev.station } [odKey 0x2002 8, odKey 0x2002 9]))

/-! ### Protection and safety functions (spec/15_protection_and_safety.md) -/

/-- R483, R484, R488, R491: a comparator in service that stands outside a blanking window sets the latch of its pair, at the tick shown, and
masks the arms of the pair at once with BLOCK_OUT at its block level; in a blanking window it does nothing. The end of a window restarts
the qualification; a wrong read-back is counted. Blanking is judged by the cycle of the trip (assumption log 56). A command whose event
cannot occur changes nothing (assumption log 7). -/
def Obligations.ComparatorTrips : Prop :=
  ∀ (k cycle j w : Nat) (s : State), s.dev.Sound →
    (k < 24 → s.dev.boot.plantHeld = false → s.dev.inService k = true → s.dev.blanked (k / 2) cycle = false →
      s.dev.guard.quals.getD (k / 2) 0 = 0 → s.dev.latched (k / 2) = false →
      Answers (.comparatorTrip k cycle []) s fun e => e.latched (k / 2) = true ∧ e.rd 0x5700 0x0E = s.dev.tick ∧
        s.dev.Counted e 0x5700 5 ∧ bit e.guard.outside k = true ∧
        (∀ a, a < 12 → bit (s.dev.rd (pairIdx (k / 2)) 5) a = true → bit (e.rd 0x5400 5) a = true ∧ e.rd 0x5700 4 = 3)) ∧
    (s.dev.blanked (k / 2) cycle = true → Answers (.comparatorTrip k cycle []) s fun e => e = s.dev) ∧
    (s.dev.inService k = false → Answers (.comparatorTrip k cycle []) s fun e => e = s.dev) ∧
    (j < 12 → s.dev.pairOn j = true → Answers (.blankingWindowEnd j w) s fun e =>
      e.guard.quals = s.dev.guard.quals.set j
        (if w = 2 then s.dev.rd (pairIdx j) 8 + s.dev.rd (pairIdx j) 9 else s.dev.rd (pairIdx j) 6 + s.dev.rd (pairIdx j) 7) ∧
        { e with guard := s.dev.guard } = s.dev) ∧
    (s.dev.boot.plantHeld = false → Answers .blockOutReadbackMismatch s fun e => s.dev.Counted e 0x5700 0x0B ∧
      s.dev.OnlyEntries { e with ring := s.dev.ring } [odKey 0x5700 0x0B, odKey 0x5700 0x0C, odKey 0x9000 1])

/-- R485, R486: the comparator self-test takes the next comparator out of service, passes on a step as expected, repeats a step that fails
once, counting it, and marks the comparator failed when it fails again. A comparator marked failed is not selected (assumption log 56).
A command whose event cannot occur changes nothing (assumption log 7). -/
def Obligations.ComparatorTests : Prop :=
  ∀ (k t : Nat) (s : State), s.dev.Sound → k < 24 →
    (s.dev.boot.plantHeld = false → s.dev.boot.pairsHalted = false → s.dev.rd 0x5700 3 = 0xFF → s.dev.testDue = true → s.dev.guard.nextK = k →
      s.dev.pairOn (k / 2) = true → s.dev.cmpFailed k = false → s.dev.cmpFailed (partnerOf k) = false →
      Answers .comparatorSelfTest s fun e => e.rd 0x5700 3 = k ∧ e.guard.nextK = (k + 1) % 24 ∧ e.guard.testAt = some s.dev.tick ∧ e.guard.swapped = false ∧
        e.rd 0x5700 7 = (s.dev.rd 0x5700 7 + 1) % 2 ^ 32 ∧ s.dev.KeepsEntries e [odKey 0x5700 3, odKey 0x5700 7, odKey 0x5700 8]) ∧
    (s.dev.rd 0x5700 3 ≠ 0xFF → Answers .comparatorSelfTest s fun e => e = s.dev) ∧
    (s.dev.rd 0x5700 3 = k → s.dev.guard.discard = false → s.dev.guard.swapped = false →
      (s.dev.nextTestStep (k / 2) s.dev.guard.step 4 = some t → Answers (.comparatorTestStep true) s fun e =>
        e = { s.dev with guard := { s.dev.guard with step := t, again := false } }) ∧
      (s.dev.nextTestStep (k / 2) s.dev.guard.step 4 = none → Answers (.comparatorTestStep true) s fun e => e.rd 0x5700 3 = 0xFF ∧
        e.rd 0x5700 2 = s.dev.rd 0x5700 2 ∧ e.guard.step = 0) ∧
      (s.dev.guard.again = false → Answers (.comparatorTestStep false) s fun e => s.dev.Counted e 0x5700 9 ∧ e.guard.again = true ∧
        e.guard.step = s.dev.guard.step ∧ e.rd 0x5700 2 = s.dev.rd 0x5700 2) ∧
      (s.dev.guard.again = true → s.dev.guard.step ≠ 4 → Answers (.comparatorTestStep false) s fun e => s.dev.Counted e 0x5700 9 ∧
        e.cmpFailed k = true ∧ e.rd 0x5700 3 = 0xFF)) ∧
    (s.dev.rd 0x5700 3 = 0xFF → (Answers (.comparatorTestStep true) s fun e => e = s.dev) ∧
      (Answers (.comparatorTestStep false) s fun e => e = s.dev))

/-- R495 to R497, R500 to R504: Safe Block. A released input of the Safe Block function, or a discrepancy of one, requests it in both
channels; a valid reset pulse of 100 ms to 5 s takes LATCHED channels without a source to NORMAL and is counted; a stuck reset is shown
and counted; a lasting disagreement of the channels is an event. R505 to R508, R510, R511: outputs, zero energy and FSoE. A test pulse
without release is a counted fault of the output, which is released; the hold time shows zero energy; a frame shows the connection and
puts its data in force in Data only; the watchdog takes the received data to 0, a request of Safe Block where FSoE may request it.
Counts of resets follow assumption log 57, and the state of FSoE is an operand (assumption log 58). A command whose event cannot occur
changes nothing (assumption log 7). Event levels and data follow assumption log 20 and 21. Times are counted in whole ticks, rounded up
(assumption log 8). -/
def Obligations.SafeFunctions : Prop :=
  (∀ (i high low : Nat) (b level : Bool) (s : State), s.dev.Sound → s.dev.boot.plantHeld = false → s.dev.boot.pairsHalted = false →
    (i < 8 → s.dev.rd (0x7010 + i) 1 ≠ 0 →
      Answers (.safeInputFiltered i b level []) s fun e => bit (e.rd (0x7010 + i) 4) (b2n b) = level ∧
        (s.dev.rd (0x7010 + i) 1 = 1 → level = false → e.guard.ch1 = 1 ∧ e.rd 0x7000 2 = 1 ∧ e.rd 0x7000 1 = 1)) ∧
    (s.dev.rd (0x7010 + i) 1 = 0 → Answers (.safeInputFiltered i b level []) s fun e => e = s.dev) ∧
    (i < 8 → s.dev.rd (0x7010 + i) 1 = 1 → bit (s.dev.inputState i) 0 ≠ bit (s.dev.inputState i) 1 → bit (s.dev.inputState i) 2 = false →
      s.dev.guard.differ.getD i 0 + s.dev.ticksOf (1000 * s.dev.rd (0x7010 + i) 3) ≤ s.dev.tick →
      Answers (.discrepancyFault i) s fun e => bit (e.inputState i) 2 = true ∧ s.dev.Counted e (0x7010 + i) 5 ∧ e.guard.ch1 = 1 ∧
        e.rd 0x7000 2 = 1) ∧
    (bit (s.dev.inputState i) 0 = bit (s.dev.inputState i) 1 → Answers (.discrepancyFault i) s fun e => e = s.dev) ∧
    (s.dev.rd 0x7000 0x0A ≠ 2 → 100 ≤ low → 100 ≤ high → high < 5000 → s.dev.guard.ch1 = 2 → s.dev.rd 0x7000 2 = 2 →
      s.dev.safeSources = 0 → (∀ j, j < 8 → s.dev.rd (0x7010 + j) 1 = 1 → s.dev.inputState j = 3) → s.dev.rd 0x7000 5 ≠ 0 →
      Answers (.safeResetEdge high low) s fun e => e.guard.ch1 = 0 ∧ e.rd 0x7000 2 = 0 ∧ e.safeBlock = false ∧
        s.dev.Counted e 0x7000 0x0D) ∧
    (high < 100 → Answers (.safeResetEdge high low) s fun e => e.guard.ch1 = s.dev.guard.ch1 ∧ e.rd 0x7000 0x0A = 0 ∧
      s.dev.OnlyEntries { e with guard := s.dev.guard } [odKey 0x7000 0x0A]) ∧
    (s.dev.rd 0x7000 0x0A ≠ 2 → Answers .safeResetStuck s fun e => e.rd 0x7000 0x0A = 2 ∧ s.dev.Counted e 0x7000 0x11 ∧
      s.dev.OnlyEntries { e with ring := s.dev.ring } [odKey 0x7000 0x0A, odKey 0x7000 0x11, odKey 0x7000 0x12, odKey 0x9000 1]) ∧
    (∀ t, s.dev.guard.split = some t → t + s.dev.ticksOf 1000000 < s.dev.tick → Answers .safeBlockDisagreement s fun e =>
      e.ring.fresh = s.dev.ring.fresh ++ [⟨eventCode 0x7000 2 lvWarn, packData [(8, s.dev.rd 0x7000 2)]⟩] ∧
        { e with ring := s.dev.ring } = { s.dev with guard := { s.dev.guard with split := none } })) ∧
  (∀ (o conn data : Nat) (b : Bool) (s : State), s.dev.Sound →
    (o < 4 → s.dev.rd (0x7018 + o) 2 ≠ 0 → bit (s.dev.rd (0x7018 + o) 3) 0 = true → bit (s.dev.rd (0x7018 + o) 3) 3 = false →
      s.dev.boot.plantHeld = false →
      Answers (.outputTestPulse o b false) s fun e => e.rd (0x7018 + o) 3 = 8 ∧ s.dev.Counted e (0x7018 + o) 4 ∧
        s.dev.OnlyEntries { e with ring := s.dev.ring } [odKey (0x7018 + o) 3, odKey (0x7018 + o) 4, odKey (0x7018 + o) 5, odKey 0x9000 1]) ∧
    (Answers (.outputTestPulse o b true) s fun e => e = s.dev) ∧
    (s.dev.rd 0x7030 1 = 1 → s.dev.rd 0x7030 5 = 0 → s.dev.guard.zeSince + s.dev.ticksOf (1000000 * s.dev.rd 0x7030 4) ≤ s.dev.tick →
      Answers .zeroEnergyHoldExpiry s fun e => e.rd 0x7030 1 = 2 ∧ s.dev.Counted e 0x7030 7) ∧
    (s.dev.rd 0x7030 5 ≠ 0 → Answers .zeroEnergyHoldExpiry s fun e => e = s.dev) ∧
    (s.dev.boot.plantHeld = false → s.dev.boot.pairsHalted = false → s.dev.rd 0x7040 1 ≠ 0 →
      (conn ≤ 4 → Answers (.fsoeFrame conn data) s fun e => e.rd 0x7040 3 = conn ∧
        e.rd 0x7040 4 = (if conn = 4 then data % 64 else 0) ∧
        (conn = 0 → s.dev.rd 0x7040 3 ≠ 0 → s.dev.Counted e 0x7040 6)) ∧
      (s.dev.rd 0x7040 3 = 4 → s.dev.guard.fsoeAt + s.dev.ticksOf (1000 * s.dev.rd 0x7040 2) ≤ s.dev.tick → Answers .fsoeWatchdogExpiry s fun e => e.rd 0x7040 3 = 0 ∧ e.rd 0x7040 4 = 0 ∧ s.dev.Counted e 0x7040 6 ∧
        (s.dev.rd 0x7000 7 ≠ 0 → e.guard.ch1 = 1 ∧ e.rd 0x7000 2 = 1))) ∧
    (s.dev.rd 0x7040 1 = 0 → (Answers (.fsoeFrame conn data) s fun e => e = s.dev) ∧ (Answers .fsoeWatchdogExpiry s fun e => e = s.dev)))

/-! ### The tick (spec/02_control_tick.md) -/

/-- R46, R62, R68: T0 of a stand-alone unit with no write waiting: the tick number is one more, the stages of the tick begin anew, the slot
of core pair 3 is closed, and the reference blocks that the core pairs committed come into force; without a commit those in force are
held and the hold is counted. Of the blocks it says so where no run of outer control commits and no pole operates. While the tick timer
does not run there is no T0. The order of the actions within a T0 is assumption log 39. A command whose event cannot occur changes
nothing (assumption log 7). -/
def Obligations.TickStart : Prop :=
  ∀ (i : T0In) (s : State), s.dev.Sound →
    (s.dev.ticking = true → s.dev.twinProfile = false → s.dev.live = [] → s.dev.session.effect = false → s.dev.twin.takeUp = none →
      s.dev.twin.writes = [] → s.dev.twin.bufWrites = [] → s.dev.twin.decisions = [] →
      Answers (.tickT0 i) s fun e => e.tick = (s.dev.tick + 1) % 2 ^ 64 ∧ e.timer.stage = 0 ∧ e.slot3 = ⟨false, none, [], 0⟩ ∧ e.live = [] ∧
        (s.dev.timer.committed = true → e.timer.holds = 0) ∧
        (s.dev.timer.committed = false → e.timer.holds = s.dev.timer.holds + 1) ∧
        ((∀ p, p < 2 → (s.dev.pole p).fastPend = none ∧ (s.dev.pole p).slowPend = none ∧ s.dev.poleState p ≠ 4 ∧
            s.dev.poleState p ≠ 5) →
          e.refs = if s.dev.timer.committed then s.dev.refsNext else s.dev.refs)) ∧
    (s.dev.timer.committed = true → s.dev.swapRefs.refs = s.dev.refsNext ∧
      s.dev.swapRefs.timer = { s.dev.timer with committed := false, holds := 0 }) ∧
    (s.dev.ticking = true → Answers (.tickT0 i) s fun e => e = s.dev.tickT0 i) ∧
    (s.dev.ticking = false → Answers (.tickT0 i) s fun e => e = s.dev)

/-- R51 to R57, R91, R128, R227, R408: the deadlines of the tick act once each and in their order. With every arm current valid the control
engine computes after the measurement deadline, with every arm complete the Rank engine after the control engine's, and the firing
generator builds the frames after the Rank engine's; a named arm slips. A unit whose engines do not run only passes the deadlines. R54,
R58 to R60: a slip of an arm is shown with its stage and tick, counted, and counted in the row of slips; the third in a row of an arm
that is live is a plant fault: FAULT_N, FAULT, and no frame leaves. The order of slips follows assumption log 47. A command whose event
cannot occur changes nothing (assumption log 7). -/
def Obligations.TickDeadlinesAndSlips : Prop :=
  (∀ (late incomplete a : Nat) (s : State), s.dev.Sound → s.dev.ticking = true →
    (s.dev.timer.stage ≠ 0 → Answers (.measurementDeadline late) s fun e => e = s.dev) ∧
    (s.dev.timer.stage ≠ 1 → Answers (.controlEngineDeadline incomplete) s fun e => e = s.dev) ∧
    (s.dev.timer.stage ≠ 2 → Answers (.rankEngineDeadline incomplete) s fun e => e = s.dev) ∧
    (s.dev.enginesRun = false →
      (s.dev.timer.stage = 0 → Answers (.measurementDeadline late) s fun e => e = s.dev.setStage 1) ∧
      (s.dev.timer.stage = 1 → Answers (.controlEngineDeadline incomplete) s fun e => e = s.dev.setStage 2) ∧
      (s.dev.timer.stage = 2 → Answers (.rankEngineDeadline incomplete) s fun e => e = s.dev.setStage 3)) ∧
    (s.dev.enginesRun = true →
      (s.dev.timer.stage = 0 → s.dev.twinProfile = false → s.dev.boot.safeState = false →
        (∀ b, b < 12 → s.dev.armPresent b = true → 32 ≤ s.dev.rd (armIdx 0x4010 b) 1 ∨
          resultValid (((s.dev.setStage 1).takeAll 3).result (s.dev.rd (armIdx 0x4010 b) 1)) = true) →
        Answers (.measurementDeadline 0) s fun e => e = ((s.dev.setStage 1).takeAll 3).controlEngine) ∧
      (s.dev.timer.stage = 1 →
        (Answers (.controlEngineDeadline 0) s fun e => e = (s.dev.setStage 2).rankEngine) ∧
        (a < 12 → Answers (.controlEngineDeadline (2 ^ a)) s fun e => e = ((s.dev.setStage 2).slipArm 2 a).rankEngine)) ∧
      (s.dev.timer.stage = 2 → Answers (.rankEngineDeadline 0) s fun e => e = (s.dev.setStage 3).commitTick.fire))) ∧
  (∀ (a : Nat) (d : Device), d.Sound → a < 12 → d.armPresent a = true → (d.arm a).slip = 0 → d.twinProfile = false →
    d.boot.plState ≠ 12 → d.inTrial = false →
    (d.rd (armIdx 0x4001 a) 3 < 2 →
      ((d.slipArm 2 a).arm a).slip = 2 ∧ (d.slipArm 2 a).rd (armIdx 0x4001 a) 3 = d.rd (armIdx 0x4001 a) 3 + 1 ∧
        (d.slipArm 2 a).rd (armIdx 0x4001 a) 4 = d.tick ∧ (d.slipArm 2 a).rd (armIdx 0x4001 a) 5 = 2 ∧
        d.Counted (d.slipArm 2 a) (armIdx 0x4001 a) 1 ∧ (∀ b, b ≠ a → (d.slipArm 2 a).arm b = d.arm b)) ∧
    (2 ≤ d.rd (armIdx 0x4001 a) 3 → d.armLive a = true →
      (d.slipArm 2 a).boot.plState = 12 ∧ (d.slipArm 2 a).boot.faultN = false ∧ (∀ l, ((d.slipArm 2 a).lane l).sent = false)))

/-! ### The block as a whole -/

/-- A step takes the command at the front of the queue and runs it with the rest of the queue; on an empty queue the block idles (the
model's choice, assumption log 2). Every command completes: its answer is a next state, which differs from the state before in the
device only. -/
def Obligations.StepRunsTheFront : Prop :=
  (∀ (c : Instr) (d : Device) (rest : List Instr), step ⟨d, c :: rest⟩ = exec c ⟨d, rest⟩) ∧
  (∀ d : Device, step ⟨d, []⟩ = .next ⟨d, []⟩) ∧
  (∀ (c : Instr) (s : State), Answers c s fun _ => True)

/-- The state at reset is sound, its queue is empty, every dictionary entry reads as its table states (R532), both halves are held, every
barrier channel is in RESET, both poles are ABSENT and no permissive output conducts (R505, R574, R613). What stands for supplies never
applied is assumption log 4. -/
def Obligations.ResetState : Prop :=
  State.reset.dev.Sound ∧ State.reset.pending = [] ∧ (∀ k, odGet State.reset.dev.od k = odDefault k) ∧
    State.reset.dev.boot.plantHeld = true ∧ State.reset.dev.boot.stationHeld = true ∧
    (∀ c, c < 16 → (State.reset.dev.chan c).state = 0) ∧ (∀ p, p < 2 → State.reset.dev.poleState p = 0) ∧
    (∀ o, o < 4 → State.reset.dev.rd (0x7018 + o) 3 = 0)

/-- Every step keeps a sound state sound: the dictionary stays in its canonical form, every value within its width, and the device keeps its
2 poles, 12 arms, 32 lanes, 8 tasks, 16 channels of the barrier and 32 measurement channels (R22 to R24, R80, R473, R532, R609). -/
def Obligations.StepKeepsSound : Prop :=
  ∀ s t : State, s.dev.Sound → step s = .next t → t.dev.Sound

/-- R46, R47: while the plant half runs, no command but TICK_T0 changes the tick number; left aside are the three commands that load stored
values (the end of SELF-TEST, an activation's switch, the state of a resynchronisation). -/
def Obligations.OnlyT0Ticks : Prop :=
  ∀ (c : Instr) (s : State), s.dev.Sound → (∀ i, c ≠ .tickT0 i) → (∀ x y, c ≠ .selfTestComplete x y) → c ≠ .activationSwitch →
    c ≠ .resyncStateLoaded → s.dev.ticking = true →
    Answers c s fun e => e.ticking = true → e.tick = s.dev.tick

/-- R669, R670: at a T0 the events of the tick enter the ring in ascending order of EVENT, each with its data, with consecutive SEQ and the
number of the tick that ends, behind the entries that stood there. -/
def Obligations.EventsOfATick : Prop :=
  ∀ d : Device, d.Sound → d.ring.entries.length + d.ring.fresh.length ≤ 65536 → d.ring.nextSeq < 2 ^ 32 →
    ∃ es : List NewEvent, es.Perm d.ring.fresh ∧ es.Pairwise (fun a b => a.event ≤ b.event) ∧ d.flushEvents.ring.fresh = [] ∧
      d.flushEvents.ring.entries.map (fun x => (x.event, x.data)) =
        d.ring.entries.map (fun x => (x.event, x.data)) ++ es.map (fun x => (x.event, x.data)) ∧
      (d.flushEvents.ring.entries.drop d.ring.entries.length).map (fun x => (x.seq, x.tick)) =
        (List.range es.length).map fun i => ((d.ring.nextSeq + i) % 2 ^ 32, d.tick)

/-- R671: a full ring overwrites its oldest entry; one that had not been delivered so counts one in 0xB000.15, and the counting is itself an
event with the code of that entry. -/
def Obligations.FullRing : Prop :=
  ∀ (d : Device) (n : NewEvent) (old : RingEntry) (rest : List RingEntry), d.Sound → d.ring.entries = old :: rest →
    d.ring.entries.length = 65536 →
    (∃ x : RingEntry, (d.ringWrite n).ring.entries = rest ++ [x] ∧ x.event = n.event ∧ x.data = n.data ∧ x.seq = d.ring.nextSeq ∧
      x.delivered = false) ∧
    (old.delivered = false → d.Counted (d.ringWrite n) 0xB000 0x15 ∧
      ∃ lv data, lv < 6 ∧ (d.ringWrite n).ring.fresh = d.ring.fresh ++ [⟨eventCode 0xB000 0x15 lv, data⟩]) ∧
    (old.delivered = true → (d.ringWrite n).od = d.od ∧ (d.ringWrite n).ring.fresh = d.ring.fresh)

/-- R63: a T0 without a newly committed reference block leaves the previous block in use, counts the tick in 0x2010.0A, whose sticky bit is
0x2010.0B, and is not a slip of any arm. -/
def Obligations.ReferenceHold : Prop :=
  ∀ d : Device, d.Sound → d.timer.committed = false →
    d.swapRefs.refs = d.refs ∧ d.Counted d.swapRefs 0x2010 0x0A ∧
      (2 ^ 32 - 1 ≤ d.rd 0x2010 0x0A + 1 → d.swapRefs.rd 0x2010 0x0B = 1) ∧
      d.swapRefs.arms = d.arms ∧ (∀ a sub, a < 12 → sub < 256 →
        d.swapRefs.rd (armIdx 0x4001 a) sub = d.rd (armIdx 0x4001 a) sub)

/-- R10: the comparison of sequence numbers of n bits. -/
def Obligations.SerialNumbers : Prop :=
  ∀ n a b : Nat, 0 < n → a < 2 ^ n → b < 2 ^ n →
    (newer n a b = true ↔ ∃ k, 1 ≤ k ∧ k ≤ 2 ^ (n - 1) - 1 ∧ (a + k) % 2 ^ n = b) ∧
    (newer n a a = false) ∧ ((a + 2 ^ (n - 1)) % 2 ^ n = b → newer n a b = false ∧ newer n b a = false)

/-- R44: while a tick-period change is pending, every DEBLOCK of a pole is refused, by SDO and in process data, and each refusal is an
event. -/
def Obligations.DeblockWhilePending : Prop :=
  ∀ (p : Nat) (s : State), s.dev.Sound → p < 2 → s.dev.rd 0x2010 4 ≠ 0 →
    (s.dev.mailbox = true → s.dev.judgeAs true (poleIdx 0x3001 p) 1 1 2 = none →
      Answers (.deblock p) s fun e => e.poles = s.dev.poles ∧ e.poleState p = s.dev.poleState p ∧
        e.station.sdoResult ≠ 0 ∧ ∃ n, e.ring.fresh = s.dev.ring.fresh ++ [n]) ∧
    ((s.dev.poleOrder false p 2).poles = s.dev.poles ∧ (s.dev.poleOrder false p 2).poleState p = s.dev.poleState p ∧
      ∃ n, (s.dev.poleOrder false p 2).ring.fresh = s.dev.ring.fresh ++ [n])

/-- R529: the refusals of a request for PREOP to SAFEOP. The state stays PREOP and the AL status code names the reason: the RxPDO
assignment, the TxPDO assignment, SYNC0 not enabled in DC mode, or a SYNC0 cycle outside the multiples of 50 µs from 50 µs to 10 ms. -/
def Obligations.SafeopRefusals : Prop :=
  ∀ (dc : Bool) (ns code : Nat) (s : State), s.dev.Sound → s.dev.stationUp = true → s.dev.station.al = 2 →
    (code = 0x001D ∧ s.dev.pdoOk false = false ∨
      code = 0x001E ∧ s.dev.pdoOk false = true ∧ s.dev.fsoeUnmapped false = false ∧ s.dev.pdoOk true = false ∨
      (s.dev.pdoOk false = true ∧ s.dev.pdoOk true = true ∧ s.dev.fsoeUnmapped false = false ∧ s.dev.fsoeUnmapped true = false ∧
        s.dev.dcMode = true ∧
        (code = 0x0030 ∧ dc = false ∨ code = 0x0035 ∧ dc = true ∧ (ns % 50000 ≠ 0 ∨ ns < 50000 ∨ 10000000 < ns)))) →
    Answers (.alStateRequest 4 dc ns) s fun e =>
      e = { s.dev with station := { s.dev.station with alStatus := code } } ∧ e.station.al = 2

/-! ### The control engine and the Rank engine (spec/04_current_engine.md, spec/07_rank_engine.md) -/

/-- R120, R130, R133, R136: what the control engine of an arm never exceeds. The insertion count lies between the available cells and their
negative, or 0 on a half-bridge arm; the current integrator of a live arm lies within its limit, and that of a blocked arm is 0. R231,
R233, R234, R239, R243: selection. The ranking order holds every cell once, ascending in voltage and then in number. A pinned cell of a
live arm keeps its polarity and its pin timer runs down; a bypassed cell keeps its polarity and has no pin; a tick makes no more swaps
than the limit. Rounding follows assumption log 33. -/
def Obligations.EngineAndSelection : Prop :=
  (∀ (d : Device) (a : Nat) (g : Energy) (t : LegTerms) (b : Bool),
    (d.engineArm a g t b).n ≤ g.nav ∧
    (if d.rd (armIdx 0x4010 a) 5 = 1 then -(g.nav : Int) else 0) ≤ (d.engineArm a g t b).n ∧
    (d.engineArm a g t b).nav = g.nav ∧
    (d.armLive a = false → (d.engineArm a g t b).xi = 0) ∧
    (d.armLive a = true → g.nav ≠ 0 → 0 ≤ q24 (d.rdF (armIdx 0x4010 a) 8) →
      -q24 (d.rdF (armIdx 0x4010 a) 8) ≤ (d.engineArm a g t b).xi ∧
        (d.engineArm a g t b).xi ≤ q24 (d.rdF (armIdx 0x4010 a) 8)) ∧
    (d.armLive a = true → g.nav = 0 → (d.engineArm a g t b).n = 0 ∧ (d.engineArm a g t b).flags = 128 ∧
      (d.engineArm a g t b).xi = (d.arm a).xi ∧ (d.engineArm a g t b).xw = (d.arm a).xw ∧ (d.engineArm a g t b).s = (d.arm a).s)) ∧
  ((∀ xs : List Cand, (ranked xs).Perm xs ∧
    (ranked xs).Pairwise fun x y => x.volt < y.volt ∨ x.volt = y.volt ∧ x.c ≤ y.c) ∧
  (∀ (d : Device) (a : Nat) (o : EngOut), d.armLive a = true →
    (d.rankArm a o).cells.length = (d.arm a).cells.length ∧
    (d.rankArm a o).swaps ≤ d.rd (0x5301 + a) 4 ∧
    (d.forceWhole a = false → (d.rankArm a o).debt =
      min (max (o.n + (d.arm a).debt) (if d.rd (armIdx 0x4010 a) 5 = 1 then -(o.nav : Int) else 0)) o.nav - (d.rankArm a o).level) ∧
    (∀ (c : Nat) (x : Cell), (d.arm a).cells[c]? = some x →
      (x.pin ≠ 0 → x.byp = 0 → ∃ y, (d.rankArm a o).cells[c]? = some y ∧ y.pol = x.pol ∧ y.pinned = true ∧ y.pin = x.pin - 1) ∧
      (x.byp ≠ 0 → ∃ y, (d.rankArm a o).cells[c]? = some y ∧ y.pol = x.pol ∧ y.pin = 0))))
end

