-- ==== Sys2Proof/Laws/SoundOps.lean ====
section
/-! SUPPORT. Every operation of Machine/Ops.lean keeps a sound device sound; every command of it completes and
leaves the queue alone. -/
namespace Sys2Proof.Machine

set_option linter.all false
set_option Elab.async false

theorem Device.accum_sound (d : Device) (idx : Nat) (sub : Nat) (wrap : Nat) (n : Nat) (hd : Device.Sound d) :
    Device.Sound (Device.accum d idx sub wrap n) := by
  unfold Device.accum
  repeat' first
    | with_reducible assumption
    | (extract_lets -underBinder +onlyGivenNames x; clear_value (hv : x = _); refine (fun (hx : Device.Sound x) => ?_) ?_; rotate_left; refine sound_of_eq hv ?_; clear hv x; rotate_left; clear hv)
    | (extract_lets -underBinder +onlyGivenNames x; clear_value x) | with_reducible apply Device.wr_sound
    | with_reducible apply ite_sound | split | (with_reducible dsimp only)

theorem Device.wrBit_sound (d : Device) (idx : Nat) (sub : Nat) (i : Nat) (b : Bool) (hd : Device.Sound d) :
    Device.Sound (Device.wrBit d idx sub i b) := by
  unfold Device.wrBit
  repeat' first
    | with_reducible assumption | with_reducible apply Device.wr_sound

theorem Device.bumpBy_sound (d : Device) (idx : Nat) (sub : Nat) (sticky : Nat) (n : Nat) (hd : Device.Sound d) :
    Device.Sound (Device.bumpBy d idx sub sticky n) := by
  unfold Device.bumpBy
  repeat' first
    | with_reducible assumption | (extract_lets -underBinder +onlyGivenNames x; clear_value x)
    | with_reducible apply Device.wr_sound | with_reducible apply Device.wrBit_sound | with_reducible apply ite_sound
    | split | (with_reducible dsimp only)

theorem Device.bump_sound (d : Device) (idx : Nat) (sub : Nat) (sticky : Nat) (hd : Device.Sound d) :
    Device.Sound (Device.bump d idx sub sticky) := by
  unfold Device.bump
  repeat' first
    | with_reducible assumption | with_reducible apply Device.bumpBy_sound

theorem Device.event_sound (d : Device) (idx : Nat) (sub : Nat) (level : Nat) (data : List (Nat × Nat)) (hd : Device.Sound d) :
    Device.Sound (Device.event d idx sub level data) := by
  unfold Device.event
  repeat' first
    | with_reducible assumption
    | (extract_lets -underBinder +onlyGivenNames x; clear_value (hv : x = _); refine (fun (hb : (Barrier.chans x).length = 16) => ?_) ?_; rotate_left; rw [hv]; clear hv x; rotate_left; clear hv)
    | (extract_lets -underBinder +onlyGivenNames x; clear_value (hv : x = _); refine (fun (hb : (Front.chans x).length = 32) => ?_) ?_; rotate_left; rw [hv]; clear hv x; rotate_left; clear hv)
    | (extract_lets -underBinder +onlyGivenNames x; clear_value (hv : x = _); refine (fun (hb : List.length (α := Chan) x = 16) => ?_) ?_; rotate_left; rw [hv]; clear hv x; rotate_left; clear hv)
    | (extract_lets -underBinder +onlyGivenNames x; clear_value x) | (with_reducible dsimp only)
    | (refine Device.Sound.mk ?_ ?_ ?_ ?_ ?_ ?_ ?_ <;> with_reducible dsimp only) | with_reducible apply Device.Sound.wf
    | with_reducible apply Device.Sound.poles | with_reducible apply Device.Sound.arms
    | with_reducible apply Device.Sound.lanes | with_reducible apply Device.Sound.tasks
    | with_reducible apply Device.Sound.chans | with_reducible apply Device.Sound.convs | rw [List.length_set]
    | rw [List.length_map] | rw [numbered_length] | simp only [List.length_cons, List.length_nil]
    | simp only [Barrier.downWith]

theorem Device.bumpEvent_sound (d : Device) (idx : Nat) (sub : Nat) (sticky : Nat) (level : Nat) (data : List (Nat × Nat)) (hd : Device.Sound d) :
    Device.Sound (Device.bumpEvent d idx sub sticky level data) := by
  unfold Device.bumpEvent
  repeat' first
    | with_reducible assumption | with_reducible apply Device.bump_sound | with_reducible apply Device.event_sound

theorem Device.clearCtr_sound (d : Device) (idx : Nat) (sub : Nat) (sticky : Nat) (hd : Device.Sound d) :
    Device.Sound (Device.clearCtr d idx sub sticky) := by
  unfold Device.clearCtr
  repeat' first
    | with_reducible assumption | with_reducible apply Device.wr_sound

theorem Device.drawn_sound (d : Device) (n : Nat) (hd : Device.Sound d) :
    Device.Sound (Device.drawn d n) := by
  unfold Device.drawn
  repeat' first
    | with_reducible assumption | (with_reducible dsimp only)
    | (refine Device.Sound.mk ?_ ?_ ?_ ?_ ?_ ?_ ?_ <;> with_reducible dsimp only) | with_reducible apply Device.Sound.wf
    | with_reducible apply Device.Sound.poles | with_reducible apply Device.Sound.arms
    | with_reducible apply Device.Sound.lanes | with_reducible apply Device.Sound.tasks
    | with_reducible apply Device.Sound.chans | with_reducible apply Device.Sound.convs | rw [List.length_set]
    | rw [List.length_map] | rw [numbered_length] | simp only [List.length_cons, List.length_nil]
    | simp only [Barrier.downWith]

theorem Device.emcyQueue_sound (d : Device) (m : Emcy) (hd : Device.Sound d) :
    Device.Sound (Device.emcyQueue d m) := by
  unfold Device.emcyQueue
  repeat' first
    | with_reducible assumption
    | (extract_lets -underBinder +onlyGivenNames x; clear_value (hv : x = _); refine (fun (hb : (Barrier.chans x).length = 16) => ?_) ?_; rotate_left; rw [hv]; clear hv x; rotate_left; clear hv)
    | (extract_lets -underBinder +onlyGivenNames x; clear_value (hv : x = _); refine (fun (hb : (Front.chans x).length = 32) => ?_) ?_; rotate_left; rw [hv]; clear hv x; rotate_left; clear hv)
    | (extract_lets -underBinder +onlyGivenNames x; clear_value (hv : x = _); refine (fun (hb : List.length (α := Chan) x = 16) => ?_) ?_; rotate_left; rw [hv]; clear hv x; rotate_left; clear hv)
    | (extract_lets -underBinder +onlyGivenNames x; clear_value x) | with_reducible apply Device.bump_sound
    | with_reducible apply Device.wrBit_sound | with_reducible apply ite_sound | split | (with_reducible dsimp only)
    | (refine Device.Sound.mk ?_ ?_ ?_ ?_ ?_ ?_ ?_ <;> with_reducible dsimp only) | with_reducible apply Device.Sound.wf
    | with_reducible apply Device.Sound.poles | with_reducible apply Device.Sound.arms
    | with_reducible apply Device.Sound.lanes | with_reducible apply Device.Sound.tasks
    | with_reducible apply Device.Sound.chans | with_reducible apply Device.Sound.convs | rw [List.length_set]
    | rw [List.length_map] | rw [numbered_length] | simp only [List.length_cons, List.length_nil]
    | simp only [Barrier.downWith]

theorem Device.setChan_sound (d : Device) (c : Nat) (ch : Chan) (hd : Device.Sound d) :
    Device.Sound (Device.setChan d c ch) := by
  have h : Device.Sound { d with barrier := { d.barrier with chans := d.barrier.chans.set c ch } } :=
    ⟨hd.wf, hd.poles, hd.arms, hd.lanes, hd.tasks, by rw [List.length_set]; exact hd.chans, hd.convs⟩
  exact ite_sound (Device.wrBit_sound _ _ _ _ _ (Device.wr_sound _ _ _ _ h)) (Device.wr_sound _ _ _ _ h)

theorem Device.setOnLanes_sound (d : Device) (up : Bool) (cs : List Nat) (hd : Device.Sound d) :
    Device.Sound (Device.setOnLanes d up cs) := by
  unfold Device.setOnLanes
  repeat' first
    | with_reducible assumption
    | (extract_lets -underBinder +onlyGivenNames x; clear_value (hv : x = _); refine (fun (hb : (Barrier.chans x).length = 16) => ?_) ?_; rotate_left; rw [hv]; clear hv x; rotate_left; clear hv)
    | (extract_lets -underBinder +onlyGivenNames x; clear_value (hv : x = _); refine (fun (hb : (Front.chans x).length = 32) => ?_) ?_; rotate_left; rw [hv]; clear hv x; rotate_left; clear hv)
    | (extract_lets -underBinder +onlyGivenNames x; clear_value (hv : x = _); refine (fun (hb : List.length (α := Chan) x = 16) => ?_) ?_; rotate_left; rw [hv]; clear hv x; rotate_left; clear hv)
    | (extract_lets -underBinder +onlyGivenNames x; clear_value x) | with_reducible apply ite_sound | split
    | (with_reducible dsimp only) | (refine Device.Sound.mk ?_ ?_ ?_ ?_ ?_ ?_ ?_ <;> with_reducible dsimp only)
    | with_reducible apply Device.Sound.wf | with_reducible apply Device.Sound.poles
    | with_reducible apply Device.Sound.arms | with_reducible apply Device.Sound.lanes
    | with_reducible apply Device.Sound.tasks | with_reducible apply Device.Sound.chans
    | with_reducible apply Device.Sound.convs | rw [List.length_set] | rw [List.length_map] | rw [numbered_length]
    | simp only [List.length_cons, List.length_nil] | simp only [Barrier.downWith]

theorem Device.send_sound (d : Device) (c : Nat) (cls : Nat) (typ : Nat) (pair : Nat) (payload : List Nat) (hd : Device.Sound d) :
    Device.Sound (Device.send d c cls typ pair payload).dev := by
  unfold Device.send
  repeat' first
    | with_reducible assumption | (extract_lets -underBinder +onlyGivenNames x; clear_value x)
    | with_reducible apply Device.setChan_sound | with_reducible apply Device.setOnLanes_sound
    | with_reducible apply ite_sound | split | (with_reducible dsimp only)

theorem pumpList_sound (x0 : List RingEntry) (x1 : Device) (hx1 : Device.Sound x1) :
    Device.Sound (pumpList x0 x1).2 := by
  induction x0 generalizing x1 with
  | nil => exact hx1
  | cons e r ih =>
    unfold pumpList
    dsimp only
    split
    · exact ih x1 hx1
    · split
      · exact ih _ (Device.send_sound _ _ _ _ _ _ hx1)
      · exact hx1

/-- The same for the parts of the pair. -/
theorem pumpList_sound_eq {x0 : List RingEntry} {x1 : Device} {z : Device} {e : _} (he : pumpList x0 x1 = (e, z)) (hx1 : Device.Sound x1) : Device.Sound z := by
  have h := pumpList_sound x0 x1 hx1
  rwa [he] at h

theorem Device.pump_sound (d : Device) (hd : Device.Sound d) :
    Device.Sound (Device.pump d) := by
  unfold Device.pump
  repeat' first
    | with_reducible assumption
    | (extract_lets -underBinder +onlyGivenNames x; clear_value (hv : x = _); refine (fun (hx : Device.Sound x) => ?_) ?_; rotate_left; refine sound_of_eq hv ?_; clear hv x; rotate_left; clear hv)
    | (extract_lets -underBinder +onlyGivenNames x; clear_value (hv : x = _); refine (fun (hb : (Barrier.chans x).length = 16) => ?_) ?_; rotate_left; rw [hv]; clear hv x; rotate_left; clear hv)
    | (extract_lets -underBinder +onlyGivenNames x; clear_value (hv : x = _); refine (fun (hb : (Front.chans x).length = 32) => ?_) ?_; rotate_left; rw [hv]; clear hv x; rotate_left; clear hv)
    | (extract_lets -underBinder +onlyGivenNames x; clear_value (hv : x = _); refine (fun (hb : List.length (α := Chan) x = 16) => ?_) ?_; rotate_left; rw [hv]; clear hv x; rotate_left; clear hv)
    | (extract_lets -underBinder +onlyGivenNames x; clear_value x) | with_reducible apply Device.setChan_sound
    | with_reducible refine pumpList_sound_eq (by assumption) ?_ | with_reducible apply pumpList_sound
    | with_reducible apply ite_sound | split | (with_reducible dsimp only)
    | (refine Device.Sound.mk ?_ ?_ ?_ ?_ ?_ ?_ ?_ <;> with_reducible dsimp only) | with_reducible apply Device.Sound.wf
    | with_reducible apply Device.Sound.poles | with_reducible apply Device.Sound.arms
    | with_reducible apply Device.Sound.lanes | with_reducible apply Device.Sound.tasks
    | with_reducible apply Device.Sound.chans | with_reducible apply Device.Sound.convs | rw [List.length_set]
    | rw [List.length_map] | rw [numbered_length] | simp only [List.length_cons, List.length_nil]
    | simp only [Barrier.downWith]

theorem Device.ringWrite_sound (d : Device) (e : NewEvent) (hd : Device.Sound d) :
    Device.Sound (Device.ringWrite d e) := by
  unfold Device.ringWrite
  repeat' first
    | with_reducible assumption
    | (extract_lets -underBinder +onlyGivenNames x; clear_value (hv : x = _); refine (fun (hx : Device.Sound x) => ?_) ?_; rotate_left; refine sound_of_eq hv ?_; clear hv x; rotate_left; clear hv)
    | (extract_lets -underBinder +onlyGivenNames x; clear_value (hv : x = _); refine (fun (hb : (Barrier.chans x).length = 16) => ?_) ?_; rotate_left; rw [hv]; clear hv x; rotate_left; clear hv)
    | (extract_lets -underBinder +onlyGivenNames x; clear_value (hv : x = _); refine (fun (hb : (Front.chans x).length = 32) => ?_) ?_; rotate_left; rw [hv]; clear hv x; rotate_left; clear hv)
    | (extract_lets -underBinder +onlyGivenNames x; clear_value (hv : x = _); refine (fun (hb : List.length (α := Chan) x = 16) => ?_) ?_; rotate_left; rw [hv]; clear hv x; rotate_left; clear hv)
    | (extract_lets -underBinder +onlyGivenNames x; clear_value x) | with_reducible apply Device.bumpEvent_sound
    | with_reducible apply ite_sound | split | (with_reducible dsimp only)
    | (refine Device.Sound.mk ?_ ?_ ?_ ?_ ?_ ?_ ?_ <;> with_reducible dsimp only) | with_reducible apply Device.Sound.wf
    | with_reducible apply Device.Sound.poles | with_reducible apply Device.Sound.arms
    | with_reducible apply Device.Sound.lanes | with_reducible apply Device.Sound.tasks
    | with_reducible apply Device.Sound.chans | with_reducible apply Device.Sound.convs | rw [List.length_set]
    | rw [List.length_map] | rw [numbered_length] | simp only [List.length_cons, List.length_nil]
    | simp only [Barrier.downWith]

theorem Device.flushEvents_sound (d : Device) (hd : Device.Sound d) :
    Device.Sound (Device.flushEvents d) := by
  unfold Device.flushEvents
  repeat' first
    | with_reducible assumption
    | (extract_lets -underBinder +onlyGivenNames x; clear_value (hv : x = _); refine (fun (hx : Device.Sound x) => ?_) ?_; rotate_left; refine sound_of_eq hv ?_; clear hv x; rotate_left; clear hv)
    | (extract_lets -underBinder +onlyGivenNames x; clear_value (hv : x = _); refine (fun (hb : (Barrier.chans x).length = 16) => ?_) ?_; rotate_left; rw [hv]; clear hv x; rotate_left; clear hv)
    | (extract_lets -underBinder +onlyGivenNames x; clear_value (hv : x = _); refine (fun (hb : (Front.chans x).length = 32) => ?_) ?_; rotate_left; rw [hv]; clear hv x; rotate_left; clear hv)
    | (extract_lets -underBinder +onlyGivenNames x; clear_value (hv : x = _); refine (fun (hb : List.length (α := Chan) x = 16) => ?_) ?_; rotate_left; rw [hv]; clear hv x; rotate_left; clear hv)
    | (extract_lets -underBinder +onlyGivenNames x; clear_value x) | with_reducible apply Device.pump_sound
    | with_reducible apply Device.ringWrite_sound | with_reducible apply Device.wr_sound
    | with_reducible apply foldl_sound | intro _ | with_reducible apply ite_sound | split | (with_reducible dsimp only)
    | (refine Device.Sound.mk ?_ ?_ ?_ ?_ ?_ ?_ ?_ <;> with_reducible dsimp only) | with_reducible apply Device.Sound.wf
    | with_reducible apply Device.Sound.poles | with_reducible apply Device.Sound.arms
    | with_reducible apply Device.Sound.lanes | with_reducible apply Device.Sound.tasks
    | with_reducible apply Device.Sound.chans | with_reducible apply Device.Sound.convs | rw [List.length_set]
    | rw [List.length_map] | rw [numbered_length] | simp only [List.length_cons, List.length_nil]
    | simp only [Barrier.downWith]

theorem Device.logAppend_sound (d : Device) (e : RingEntry) (hd : Device.Sound d) :
    Device.Sound (Device.logAppend d e) := by
  unfold Device.logAppend
  repeat' first
    | with_reducible assumption
    | (extract_lets -underBinder +onlyGivenNames x; clear_value (hv : x = _); refine (fun (hx : Device.Sound x) => ?_) ?_; rotate_left; refine sound_of_eq hv ?_; clear hv x; rotate_left; clear hv)
    | (extract_lets -underBinder +onlyGivenNames x; clear_value (hv : x = _); refine (fun (hb : (Barrier.chans x).length = 16) => ?_) ?_; rotate_left; rw [hv]; clear hv x; rotate_left; clear hv)
    | (extract_lets -underBinder +onlyGivenNames x; clear_value (hv : x = _); refine (fun (hb : (Front.chans x).length = 32) => ?_) ?_; rotate_left; rw [hv]; clear hv x; rotate_left; clear hv)
    | (extract_lets -underBinder +onlyGivenNames x; clear_value (hv : x = _); refine (fun (hb : List.length (α := Chan) x = 16) => ?_) ?_; rotate_left; rw [hv]; clear hv x; rotate_left; clear hv)
    | (extract_lets -underBinder +onlyGivenNames x; clear_value x) | with_reducible apply Device.wr_sound
    | (with_reducible dsimp only) | (refine Device.Sound.mk ?_ ?_ ?_ ?_ ?_ ?_ ?_ <;> with_reducible dsimp only)
    | with_reducible apply Device.Sound.wf | with_reducible apply Device.Sound.poles
    | with_reducible apply Device.Sound.arms | with_reducible apply Device.Sound.lanes
    | with_reducible apply Device.Sound.tasks | with_reducible apply Device.Sound.chans
    | with_reducible apply Device.Sound.convs | rw [List.length_set] | rw [List.length_map] | rw [numbered_length]
    | simp only [List.length_cons, List.length_nil] | simp only [Barrier.downWith]

theorem Device.modArm_sound (d : Device) (x1 : Nat) (f : Arm → Arm) (hd : Device.Sound d) :
    Device.Sound (Device.modArm d x1 f) := by
  unfold Device.modArm
  repeat' first
    | with_reducible assumption | (with_reducible dsimp only)
    | (refine Device.Sound.mk ?_ ?_ ?_ ?_ ?_ ?_ ?_ <;> with_reducible dsimp only) | with_reducible apply Device.Sound.wf
    | with_reducible apply Device.Sound.poles | with_reducible apply Device.Sound.arms
    | with_reducible apply Device.Sound.lanes | with_reducible apply Device.Sound.tasks
    | with_reducible apply Device.Sound.chans | with_reducible apply Device.Sound.convs | rw [List.length_set]
    | rw [List.length_map] | rw [numbered_length] | simp only [List.length_cons, List.length_nil]
    | simp only [Barrier.downWith]

theorem Device.noteTrigger_sound (d : Device) (b : Nat) (hd : Device.Sound d) :
    Device.Sound (Device.noteTrigger d b) := by
  unfold Device.noteTrigger
  repeat' first
    | with_reducible assumption | (with_reducible dsimp only)
    | (refine Device.Sound.mk ?_ ?_ ?_ ?_ ?_ ?_ ?_ <;> with_reducible dsimp only) | with_reducible apply Device.Sound.wf
    | with_reducible apply Device.Sound.poles | with_reducible apply Device.Sound.arms
    | with_reducible apply Device.Sound.lanes | with_reducible apply Device.Sound.tasks
    | with_reducible apply Device.Sound.chans | with_reducible apply Device.Sound.convs | rw [List.length_set]
    | rw [List.length_map] | rw [numbered_length] | simp only [List.length_cons, List.length_nil]
    | simp only [Barrier.downWith]

theorem Device.stEvent_sound (d : Device) (idx : Nat) (sub : Nat) (level : Nat) (data : List (Nat × Nat)) (hd : Device.Sound d) :
    Device.Sound (Device.stEvent d idx sub level data) := by
  unfold Device.stEvent
  repeat' first
    | with_reducible assumption
    | (extract_lets -underBinder +onlyGivenNames x; clear_value (hv : x = _); refine (fun (hx : Device.Sound x) => ?_) ?_; rotate_left; refine sound_of_eq hv ?_; clear hv x; rotate_left; clear hv)
    | (extract_lets -underBinder +onlyGivenNames x; clear_value (hv : x = _); refine (fun (hb : (Barrier.chans x).length = 16) => ?_) ?_; rotate_left; rw [hv]; clear hv x; rotate_left; clear hv)
    | (extract_lets -underBinder +onlyGivenNames x; clear_value (hv : x = _); refine (fun (hb : (Front.chans x).length = 32) => ?_) ?_; rotate_left; rw [hv]; clear hv x; rotate_left; clear hv)
    | (extract_lets -underBinder +onlyGivenNames x; clear_value (hv : x = _); refine (fun (hb : List.length (α := Chan) x = 16) => ?_) ?_; rotate_left; rw [hv]; clear hv x; rotate_left; clear hv)
    | (extract_lets -underBinder +onlyGivenNames x; clear_value x) | with_reducible apply Device.emcyQueue_sound
    | with_reducible apply Device.logAppend_sound | with_reducible apply ite_sound | split | (with_reducible dsimp only)
    | (refine Device.Sound.mk ?_ ?_ ?_ ?_ ?_ ?_ ?_ <;> with_reducible dsimp only) | with_reducible apply Device.Sound.wf
    | with_reducible apply Device.Sound.poles | with_reducible apply Device.Sound.arms
    | with_reducible apply Device.Sound.lanes | with_reducible apply Device.Sound.tasks
    | with_reducible apply Device.Sound.chans | with_reducible apply Device.Sound.convs | rw [List.length_set]
    | rw [List.length_map] | rw [numbered_length] | simp only [List.length_cons, List.length_nil]
    | simp only [Barrier.downWith]

theorem Device.wrB_sound (d : Device) (idx : Nat) (sub : Nat) (b : Bool) (hd : Device.Sound d) :
    Device.Sound (Device.wrB d idx sub b) := by
  unfold Device.wrB
  repeat' first
    | with_reducible assumption | with_reducible apply Device.wr_sound

theorem Device.wrF_sound (d : Device) (idx : Nat) (sub : Nat) (x : Rat) (hd : Device.Sound d) :
    Device.Sound (Device.wrF d idx sub x) := by
  unfold Device.wrF
  repeat' first
    | with_reducible assumption | with_reducible apply Device.wr_sound

theorem Device.wrI_sound (d : Device) (idx : Nat) (sub : Nat) (v : Int) (hd : Device.Sound d) :
    Device.Sound (Device.wrI d idx sub v) := by
  unfold Device.wrI
  repeat' first
    | with_reducible assumption | (extract_lets -underBinder +onlyGivenNames x; clear_value x)
    | with_reducible apply Device.wr_sound

end Sys2Proof.Machine
end

