-- ==== Sys2Proof/Laws/SoundRecSlots.lean ====
section
/-! SUPPORT. Every operation of Machine/RecSlots.lean keeps a sound device sound; every command of it completes and
leaves the queue alone. -/
namespace Sys2Proof.Machine

set_option linter.all false
set_option Elab.async false

theorem Device.showSlots_sound (d : Device) (hd : Device.Sound d) :
    Device.Sound (Device.showSlots d) := by
  unfold Device.showSlots
  repeat' first
    | with_reducible assumption | with_reducible apply Device.wr_sound

theorem Device.stCount_sound (d : Device) (idx : Nat) (sub : Nat) (sticky : Nat) (hd : Device.Sound d) :
    Device.Sound (Device.stCount d idx sub sticky) := by
  unfold Device.stCount
  repeat' first
    | with_reducible assumption | with_reducible apply Device.bump_sound | with_reducible apply Device.stEvent_sound

theorem Device.armRecorder_sound (d : Device) (hd : Device.Sound d) :
    Device.Sound (Device.armRecorder d) := by
  unfold Device.armRecorder
  repeat' first
    | with_reducible assumption
    | (extract_lets -underBinder +onlyGivenNames x; clear_value (hv : x = _); refine (fun (hx : Device.Sound x) => ?_) ?_; rotate_left; refine sound_of_eq hv ?_; clear hv x; rotate_left; clear hv)
    | (extract_lets -underBinder +onlyGivenNames x; clear_value (hv : x = _); refine (fun (hb : (Barrier.chans x).length = 16) => ?_) ?_; rotate_left; rw [hv]; clear hv x; rotate_left; clear hv)
    | (extract_lets -underBinder +onlyGivenNames x; clear_value (hv : x = _); refine (fun (hb : (Front.chans x).length = 32) => ?_) ?_; rotate_left; rw [hv]; clear hv x; rotate_left; clear hv)
    | (extract_lets -underBinder +onlyGivenNames x; clear_value (hv : x = _); refine (fun (hb : List.length (α := Chan) x = 16) => ?_) ?_; rotate_left; rw [hv]; clear hv x; rotate_left; clear hv)
    | (extract_lets -underBinder +onlyGivenNames x; clear_value x) | with_reducible apply Device.showSlots_sound
    | with_reducible apply Device.stCount_sound | with_reducible apply ite_sound | split | (with_reducible dsimp only)
    | (refine Device.Sound.mk ?_ ?_ ?_ ?_ ?_ ?_ ?_ <;> with_reducible dsimp only) | with_reducible apply Device.Sound.wf
    | with_reducible apply Device.Sound.poles | with_reducible apply Device.Sound.arms
    | with_reducible apply Device.Sound.lanes | with_reducible apply Device.Sound.tasks
    | with_reducible apply Device.Sound.chans | with_reducible apply Device.Sound.convs | rw [List.length_set]
    | rw [List.length_map] | rw [numbered_length] | simp only [List.length_cons, List.length_nil]
    | simp only [Barrier.downWith]

theorem Device.recTrigger_sound (d : Device) (src : Nat) (t : Nat) (hd : Device.Sound d) :
    Device.Sound (Device.recTrigger d src t) := by
  unfold Device.recTrigger
  repeat' first
    | with_reducible assumption
    | (extract_lets -underBinder +onlyGivenNames x; clear_value (hv : x = _); refine (fun (hx : Device.Sound x) => ?_) ?_; rotate_left; refine sound_of_eq hv ?_; clear hv x; rotate_left; clear hv)
    | (extract_lets -underBinder +onlyGivenNames x; clear_value (hv : x = _); refine (fun (hb : (Barrier.chans x).length = 16) => ?_) ?_; rotate_left; rw [hv]; clear hv x; rotate_left; clear hv)
    | (extract_lets -underBinder +onlyGivenNames x; clear_value (hv : x = _); refine (fun (hb : (Front.chans x).length = 32) => ?_) ?_; rotate_left; rw [hv]; clear hv x; rotate_left; clear hv)
    | (extract_lets -underBinder +onlyGivenNames x; clear_value (hv : x = _); refine (fun (hb : List.length (α := Chan) x = 16) => ?_) ?_; rotate_left; rw [hv]; clear hv x; rotate_left; clear hv)
    | (extract_lets -underBinder +onlyGivenNames x; clear_value x) | with_reducible apply Device.showSlots_sound
    | with_reducible apply Device.stCount_sound | with_reducible apply Device.wr_sound | with_reducible apply odWf_odPut
    | with_reducible apply odWf_puts | with_reducible apply odWf_filter | with_reducible exact Device.reset_sound
    | with_reducible apply ite_sound | split | (with_reducible dsimp only)
    | (refine Device.Sound.mk ?_ ?_ ?_ ?_ ?_ ?_ ?_ <;> with_reducible dsimp only) | with_reducible apply Device.Sound.wf
    | with_reducible apply Device.Sound.poles | with_reducible apply Device.Sound.arms
    | with_reducible apply Device.Sound.lanes | with_reducible apply Device.Sound.tasks
    | with_reducible apply Device.Sound.chans | with_reducible apply Device.Sound.convs | rw [List.length_set]
    | rw [List.length_map] | rw [numbered_length] | simp only [List.length_cons, List.length_nil]
    | simp only [Barrier.downWith]

theorem Device.recPartnerReset_sound (d : Device) (hd : Device.Sound d) :
    Device.Sound (Device.recPartnerReset d) := by
  unfold Device.recPartnerReset
  repeat' first
    | with_reducible assumption | with_reducible apply Device.recTrigger_sound | with_reducible apply ite_sound | split
    | (with_reducible dsimp only)

theorem Device.storeStream_sound (d : Device) (typ : Nat) (tickLo : Nat) (payload : List Nat) (hd : Device.Sound d) :
    Device.Sound (Device.storeStream d typ tickLo payload) := by
  unfold Device.storeStream
  repeat' first
    | with_reducible assumption
    | (extract_lets -underBinder +onlyGivenNames x; clear_value (hv : x = _); refine (fun (hx : Device.Sound x) => ?_) ?_; rotate_left; refine sound_of_eq hv ?_; clear hv x; rotate_left; clear hv)
    | (extract_lets -underBinder +onlyGivenNames x; clear_value (hv : x = _); refine (fun (hb : (Barrier.chans x).length = 16) => ?_) ?_; rotate_left; rw [hv]; clear hv x; rotate_left; clear hv)
    | (extract_lets -underBinder +onlyGivenNames x; clear_value (hv : x = _); refine (fun (hb : (Front.chans x).length = 32) => ?_) ?_; rotate_left; rw [hv]; clear hv x; rotate_left; clear hv)
    | (extract_lets -underBinder +onlyGivenNames x; clear_value (hv : x = _); refine (fun (hb : List.length (α := Chan) x = 16) => ?_) ?_; rotate_left; rw [hv]; clear hv x; rotate_left; clear hv)
    | (extract_lets -underBinder +onlyGivenNames x; clear_value x) | with_reducible apply Device.stCount_sound
    | with_reducible apply foldl_sound | intro _ | with_reducible apply ite_sound | split | (with_reducible dsimp only)
    | (refine Device.Sound.mk ?_ ?_ ?_ ?_ ?_ ?_ ?_ <;> with_reducible dsimp only) | with_reducible apply Device.Sound.wf
    | with_reducible apply Device.Sound.poles | with_reducible apply Device.Sound.arms
    | with_reducible apply Device.Sound.lanes | with_reducible apply Device.Sound.tasks
    | with_reducible apply Device.Sound.chans | with_reducible apply Device.Sound.convs | rw [List.length_set]
    | rw [List.length_map] | rw [numbered_length] | simp only [List.length_cons, List.length_nil]
    | simp only [Barrier.downWith]

end Sys2Proof.Machine
end

