-- ==== Sys2Proof/Laws/SoundSdoRead.lean ====
section
/-! SUPPORT. Every operation of Machine/SdoRead.lean keeps a sound device sound; every command of it completes and
leaves the queue alone. -/
namespace Sys2Proof.Machine

set_option linter.all false
set_option Elab.async false

theorem Device.abort_sound (d : Device) (idx : Nat) (sub : Nat) (code : Nat) (hd : Device.Sound d) :
    Device.Sound (Device.abort d idx sub code) := by
  unfold Device.abort
  repeat' first
    | with_reducible assumption
    | (extract_lets -underBinder +onlyGivenNames x; clear_value (hv : x = _); refine (fun (hx : Device.Sound x) => ?_) ?_; rotate_left; refine sound_of_eq hv ?_; clear hv x; rotate_left; clear hv)
    | (extract_lets -underBinder +onlyGivenNames x; clear_value (hv : x = _); refine (fun (hb : (Barrier.chans x).length = 16) => ?_) ?_; rotate_left; rw [hv]; clear hv x; rotate_left; clear hv)
    | (extract_lets -underBinder +onlyGivenNames x; clear_value (hv : x = _); refine (fun (hb : (Front.chans x).length = 32) => ?_) ?_; rotate_left; rw [hv]; clear hv x; rotate_left; clear hv)
    | (extract_lets -underBinder +onlyGivenNames x; clear_value (hv : x = _); refine (fun (hb : List.length (α := Chan) x = 16) => ?_) ?_; rotate_left; rw [hv]; clear hv x; rotate_left; clear hv)
    | (extract_lets -underBinder +onlyGivenNames x; clear_value x) | with_reducible apply Device.wr_sound
    | (with_reducible dsimp only) | (refine Device.Sound.mk ?_ ?_ ?_ ?_ ?_ ?_ ?_ <;> with_reducible dsimp only)
    | with_reducible apply Device.Sound.wf | with_reducible apply Device.Sound.poles
    | with_reducible apply Device.Sound.arms | with_reducible apply Device.Sound.lanes
    | with_reducible apply Device.Sound.tasks | with_reducible apply Device.Sound.chans
    | with_reducible apply Device.Sound.convs | rw [List.length_set] | rw [List.length_map] | rw [numbered_length]
    | simp only [List.length_cons, List.length_nil] | simp only [Barrier.downWith]

theorem Device.markBoundary_sound (d : Device) (hd : Device.Sound d) :
    Device.Sound (Device.markBoundary d) := by
  unfold Device.markBoundary
  repeat' first
    | with_reducible assumption | (with_reducible dsimp only)
    | (refine Device.Sound.mk ?_ ?_ ?_ ?_ ?_ ?_ ?_ <;> with_reducible dsimp only) | with_reducible apply Device.Sound.wf
    | with_reducible apply Device.Sound.poles | with_reducible apply Device.Sound.arms
    | with_reducible apply Device.Sound.lanes | with_reducible apply Device.Sound.tasks
    | with_reducible apply Device.Sound.chans | with_reducible apply Device.Sound.convs | rw [List.length_set]
    | rw [List.length_map] | rw [numbered_length] | simp only [List.length_cons, List.length_nil]
    | simp only [Barrier.downWith]

theorem Device.sendAnswer_sound (d : Device) (typ : Nat) (head : List Nat) (bytes : List Nat) (hd : Device.Sound d) :
    Device.Sound (Device.sendAnswer d typ head bytes) := by
  unfold Device.sendAnswer
  repeat' first
    | with_reducible assumption
    | (extract_lets -underBinder +onlyGivenNames x; clear_value (hv : x = _); refine (fun (hx : Device.Sound x) => ?_) ?_; rotate_left; refine sound_of_eq hv ?_; clear hv x; rotate_left; clear hv)
    | (extract_lets -underBinder +onlyGivenNames x; clear_value (hv : x = _); refine (fun (hx : Device.Sound (SendResult.dev x)) => ?_) ?_; rotate_left; refine sound_of_eq_send hv ?_; clear hv x; rotate_left; clear hv)
    | (extract_lets -underBinder +onlyGivenNames x; clear_value (hv : x = _); refine (fun (hb : (Barrier.chans x).length = 16) => ?_) ?_; rotate_left; rw [hv]; clear hv x; rotate_left; clear hv)
    | (extract_lets -underBinder +onlyGivenNames x; clear_value (hv : x = _); refine (fun (hb : (Front.chans x).length = 32) => ?_) ?_; rotate_left; rw [hv]; clear hv x; rotate_left; clear hv)
    | (extract_lets -underBinder +onlyGivenNames x; clear_value (hv : x = _); refine (fun (hb : List.length (α := Chan) x = 16) => ?_) ?_; rotate_left; rw [hv]; clear hv x; rotate_left; clear hv)
    | (extract_lets -underBinder +onlyGivenNames x; clear_value x) | with_reducible apply Device.send_sound
    | (with_reducible dsimp only) | (refine Device.Sound.mk ?_ ?_ ?_ ?_ ?_ ?_ ?_ <;> with_reducible dsimp only)
    | with_reducible apply Device.Sound.wf | with_reducible apply Device.Sound.poles
    | with_reducible apply Device.Sound.arms | with_reducible apply Device.Sound.lanes
    | with_reducible apply Device.Sound.tasks | with_reducible apply Device.Sound.chans
    | with_reducible apply Device.Sound.convs | rw [List.length_set] | rw [List.length_map] | rw [numbered_length]
    | simp only [List.length_cons, List.length_nil] | simp only [Barrier.downWith]

theorem Device.serveAccess_sound (d : Device) (m : Msg) (hd : Device.Sound d) :
    Device.Sound (Device.serveAccess d m) := by
  unfold Device.serveAccess
  repeat' first
    | with_reducible assumption
    | (extract_lets -underBinder +onlyGivenNames x; clear_value (hv : x = _); refine (fun (hb : (Barrier.chans x).length = 16) => ?_) ?_; rotate_left; rw [hv]; clear hv x; rotate_left; clear hv)
    | (extract_lets -underBinder +onlyGivenNames x; clear_value (hv : x = _); refine (fun (hb : (Front.chans x).length = 32) => ?_) ?_; rotate_left; rw [hv]; clear hv x; rotate_left; clear hv)
    | (extract_lets -underBinder +onlyGivenNames x; clear_value (hv : x = _); refine (fun (hb : List.length (α := Chan) x = 16) => ?_) ?_; rotate_left; rw [hv]; clear hv x; rotate_left; clear hv)
    | (extract_lets -underBinder +onlyGivenNames x; clear_value x) | with_reducible apply Device.send_sound
    | with_reducible apply Device.sendAnswer_sound | with_reducible apply ite_sound | split | (with_reducible dsimp only)
    | (refine Device.Sound.mk ?_ ?_ ?_ ?_ ?_ ?_ ?_ <;> with_reducible dsimp only) | with_reducible apply Device.Sound.wf
    | with_reducible apply Device.Sound.poles | with_reducible apply Device.Sound.arms
    | with_reducible apply Device.Sound.lanes | with_reducible apply Device.Sound.tasks
    | with_reducible apply Device.Sound.chans | with_reducible apply Device.Sound.convs | rw [List.length_set]
    | rw [List.length_map] | rw [numbered_length] | simp only [List.length_cons, List.length_nil]
    | simp only [Barrier.downWith]

theorem Device.takeAnswer_sound (d : Device) (typ : Nat) (bytes : List Nat) (hd : Device.Sound d) :
    Device.Sound (Device.takeAnswer d typ bytes) := by
  unfold Device.takeAnswer
  repeat' first
    | with_reducible assumption
    | (extract_lets -underBinder +onlyGivenNames x; clear_value (hv : x = _); refine (fun (hx : Device.Sound x) => ?_) ?_; rotate_left; refine sound_of_eq hv ?_; clear hv x; rotate_left; clear hv)
    | (extract_lets -underBinder +onlyGivenNames x; clear_value (hv : x = _); refine (fun (hb : (Barrier.chans x).length = 16) => ?_) ?_; rotate_left; rw [hv]; clear hv x; rotate_left; clear hv)
    | (extract_lets -underBinder +onlyGivenNames x; clear_value (hv : x = _); refine (fun (hb : (Front.chans x).length = 32) => ?_) ?_; rotate_left; rw [hv]; clear hv x; rotate_left; clear hv)
    | (extract_lets -underBinder +onlyGivenNames x; clear_value (hv : x = _); refine (fun (hb : List.length (α := Chan) x = 16) => ?_) ?_; rotate_left; rw [hv]; clear hv x; rotate_left; clear hv)
    | (extract_lets -underBinder +onlyGivenNames x; clear_value x) | with_reducible apply Device.abort_sound
    | with_reducible apply ite_sound | split | (with_reducible dsimp only)
    | (refine Device.Sound.mk ?_ ?_ ?_ ?_ ?_ ?_ ?_ <;> with_reducible dsimp only) | with_reducible apply Device.Sound.wf
    | with_reducible apply Device.Sound.poles | with_reducible apply Device.Sound.arms
    | with_reducible apply Device.Sound.lanes | with_reducible apply Device.Sound.tasks
    | with_reducible apply Device.Sound.chans | with_reducible apply Device.Sound.convs | rw [List.length_set]
    | rw [List.length_map] | rw [numbered_length] | simp only [List.length_cons, List.length_nil]
    | simp only [Barrier.downWith]

end Sys2Proof.Machine
end

