-- ==== Sys2Proof/Laws/SoundBarrier.lean ====
section
/-! SUPPORT. Every operation of Machine/Barrier.lean keeps a sound device sound; every command of it completes and
leaves the queue alone. -/
namespace Sys2Proof.Machine

set_option linter.all false
set_option Elab.async false

theorem Device.clearChannels_sound (d : Device) (mask : Nat) (hd : Device.Sound d) :
    Device.Sound (Device.clearChannels d mask) := by
  unfold Device.clearChannels
  repeat' first
    | with_reducible assumption | with_reducible apply Device.setChan_sound | with_reducible apply foldl_sound | intro _
    | with_reducible apply ite_sound | split | (with_reducible dsimp only)

theorem Device.closeSession_sound (d : Device) (hd : Device.Sound d) :
    Device.Sound (Device.closeSession d) := by
  unfold Device.closeSession
  repeat' first
    | with_reducible assumption
    | (extract_lets -underBinder +onlyGivenNames x; clear_value (hv : x = _); refine (fun (hx : Device.Sound x) => ?_) ?_; rotate_left; refine sound_of_eq hv ?_; clear hv x; rotate_left; clear hv)
    | (extract_lets -underBinder +onlyGivenNames x; clear_value (hv : x = _); refine (fun (hb : (Barrier.chans x).length = 16) => ?_) ?_; rotate_left; rw [hv]; clear hv x; rotate_left; clear hv)
    | (extract_lets -underBinder +onlyGivenNames x; clear_value (hv : x = _); refine (fun (hb : (Front.chans x).length = 32) => ?_) ?_; rotate_left; rw [hv]; clear hv x; rotate_left; clear hv)
    | (extract_lets -underBinder +onlyGivenNames x; clear_value (hv : x = _); refine (fun (hb : List.length (α := Chan) x = 16) => ?_) ?_; rotate_left; rw [hv]; clear hv x; rotate_left; clear hv)
    | (extract_lets -underBinder +onlyGivenNames x; clear_value x) | with_reducible apply Device.wr_sound
    | with_reducible apply ite_sound | split | (with_reducible dsimp only)
    | (refine Device.Sound.mk ?_ ?_ ?_ ?_ ?_ ?_ ?_ <;> with_reducible dsimp only) | with_reducible apply Device.Sound.wf
    | with_reducible apply Device.Sound.poles | with_reducible apply Device.Sound.arms
    | with_reducible apply Device.Sound.lanes | with_reducible apply Device.Sound.tasks
    | with_reducible apply Device.Sound.chans | with_reducible apply Device.Sound.convs | rw [List.length_set]
    | rw [List.length_map] | rw [numbered_length] | simp only [List.length_cons, List.length_nil]
    | simp only [Barrier.downWith]

theorem Device.deliver_sound (d : Device) (m : Msg) (hd : Device.Sound d) :
    Device.Sound (Device.deliver d m) := by
  unfold Device.deliver
  repeat' first
    | with_reducible assumption
    | (extract_lets -underBinder +onlyGivenNames x; clear_value (hv : x = _); refine (fun (hx : Device.Sound x) => ?_) ?_; rotate_left; refine sound_of_eq hv ?_; clear hv x; rotate_left; clear hv)
    | (extract_lets -underBinder +onlyGivenNames x; clear_value (hv : x = _); refine (fun (hb : (Barrier.chans x).length = 16) => ?_) ?_; rotate_left; rw [hv]; clear hv x; rotate_left; clear hv)
    | (extract_lets -underBinder +onlyGivenNames x; clear_value (hv : x = _); refine (fun (hb : (Front.chans x).length = 32) => ?_) ?_; rotate_left; rw [hv]; clear hv x; rotate_left; clear hv)
    | (extract_lets -underBinder +onlyGivenNames x; clear_value (hv : x = _); refine (fun (hb : List.length (α := Chan) x = 16) => ?_) ?_; rotate_left; rw [hv]; clear hv x; rotate_left; clear hv)
    | (extract_lets -underBinder +onlyGivenNames x; clear_value x) | with_reducible apply Device.emcyQueue_sound
    | with_reducible apply Device.logAppend_sound | with_reducible apply ite_sound | split | (with_reducible dsimp only)
    | (refine Device.Sound.mk ?_ ?_ ?_ ?_ ?_ ?_ ?_ <;> with_reducible dsimp only) | with_reducible apply Device.Sound.wf
    | with_reducible apply Device.Sound.poles | with_reducible apply Device.Sound.arms
    | with_reducible apply Device.Sound.lanes | with_reducible apply Device.Sound.tasks
    | with_reducible apply Device.Sound.chans | with_reducible apply Device.Sound.convs | rw [List.length_set]
    | rw [List.length_map] | rw [numbered_length] | simp only [List.length_cons, List.length_nil]
    | simp only [Barrier.downWith]

theorem Device.taskInbox_sound (d : Device) (m : Msg) (hd : Device.Sound d) :
    Device.Sound (Device.taskInbox d m) := by
  unfold Device.taskInbox
  repeat' first
    | with_reducible assumption
    | (extract_lets -underBinder +onlyGivenNames x; clear_value (hv : x = _); refine (fun (hb : (Barrier.chans x).length = 16) => ?_) ?_; rotate_left; rw [hv]; clear hv x; rotate_left; clear hv)
    | (extract_lets -underBinder +onlyGivenNames x; clear_value (hv : x = _); refine (fun (hb : (Front.chans x).length = 32) => ?_) ?_; rotate_left; rw [hv]; clear hv x; rotate_left; clear hv)
    | (extract_lets -underBinder +onlyGivenNames x; clear_value (hv : x = _); refine (fun (hb : List.length (α := Chan) x = 16) => ?_) ?_; rotate_left; rw [hv]; clear hv x; rotate_left; clear hv)
    | (extract_lets -underBinder +onlyGivenNames x; clear_value x) | with_reducible apply Device.bump_sound
    | with_reducible apply ite_sound | split | (with_reducible dsimp only)
    | (refine Device.Sound.mk ?_ ?_ ?_ ?_ ?_ ?_ ?_ <;> with_reducible dsimp only) | with_reducible apply Device.Sound.wf
    | with_reducible apply Device.Sound.poles | with_reducible apply Device.Sound.arms
    | with_reducible apply Device.Sound.lanes | with_reducible apply Device.Sound.tasks
    | with_reducible apply Device.Sound.chans | with_reducible apply Device.Sound.convs | rw [List.length_set]
    | rw [List.length_map] | rw [numbered_length] | simp only [List.length_cons, List.length_nil]
    | simp only [Barrier.downWith]

theorem Device.consume_sound (d : Device) (c : Nat) (m : Msg) (hd : Device.Sound d) :
    Device.Sound (Device.consume d c m) := by
  unfold Device.consume
  repeat' first
    | with_reducible assumption
    | (extract_lets -underBinder +onlyGivenNames x; clear_value (hv : x = _); refine (fun (hb : (Barrier.chans x).length = 16) => ?_) ?_; rotate_left; rw [hv]; clear hv x; rotate_left; clear hv)
    | (extract_lets -underBinder +onlyGivenNames x; clear_value (hv : x = _); refine (fun (hb : (Front.chans x).length = 32) => ?_) ?_; rotate_left; rw [hv]; clear hv x; rotate_left; clear hv)
    | (extract_lets -underBinder +onlyGivenNames x; clear_value (hv : x = _); refine (fun (hb : List.length (α := Chan) x = 16) => ?_) ?_; rotate_left; rw [hv]; clear hv x; rotate_left; clear hv)
    | (extract_lets -underBinder +onlyGivenNames x; clear_value x) | with_reducible apply Device.deliver_sound
    | with_reducible apply Device.pump_sound | with_reducible apply Device.serveAccess_sound
    | with_reducible apply Device.storeStream_sound | with_reducible apply Device.takeAnswer_sound
    | with_reducible apply Device.taskInbox_sound | with_reducible apply ite_sound | split | (with_reducible dsimp only)
    | (refine Device.Sound.mk ?_ ?_ ?_ ?_ ?_ ?_ ?_ <;> with_reducible dsimp only) | with_reducible apply Device.Sound.wf
    | with_reducible apply Device.Sound.poles | with_reducible apply Device.Sound.arms
    | with_reducible apply Device.Sound.lanes | with_reducible apply Device.Sound.tasks
    | with_reducible apply Device.Sound.chans | with_reducible apply Device.Sound.convs | rw [List.length_set]
    | rw [List.length_map] | rw [numbered_length] | simp only [List.length_cons, List.length_nil]
    | simp only [Barrier.downWith]

theorem Device.giveUpTransfers_sound (d : Device) (hd : Device.Sound d) :
    Device.Sound (Device.giveUpTransfers d) := by
  unfold Device.giveUpTransfers
  repeat' first
    | with_reducible assumption
    | (extract_lets -underBinder +onlyGivenNames x; clear_value (hv : x = _); refine (fun (hx : Device.Sound x) => ?_) ?_; rotate_left; refine sound_of_eq hv ?_; clear hv x; rotate_left; clear hv)
    | (extract_lets -underBinder +onlyGivenNames x; clear_value (hv : x = _); refine (fun (hb : (Barrier.chans x).length = 16) => ?_) ?_; rotate_left; rw [hv]; clear hv x; rotate_left; clear hv)
    | (extract_lets -underBinder +onlyGivenNames x; clear_value (hv : x = _); refine (fun (hb : (Front.chans x).length = 32) => ?_) ?_; rotate_left; rw [hv]; clear hv x; rotate_left; clear hv)
    | (extract_lets -underBinder +onlyGivenNames x; clear_value (hv : x = _); refine (fun (hb : List.length (α := Chan) x = 16) => ?_) ?_; rotate_left; rw [hv]; clear hv x; rotate_left; clear hv)
    | (extract_lets -underBinder +onlyGivenNames x; clear_value x) | with_reducible apply Device.wr_sound
    | with_reducible apply ite_sound | split | (with_reducible dsimp only)
    | (refine Device.Sound.mk ?_ ?_ ?_ ?_ ?_ ?_ ?_ <;> with_reducible dsimp only) | with_reducible apply Device.Sound.wf
    | with_reducible apply Device.Sound.poles | with_reducible apply Device.Sound.arms
    | with_reducible apply Device.Sound.lanes | with_reducible apply Device.Sound.tasks
    | with_reducible apply Device.Sound.chans | with_reducible apply Device.Sound.convs | rw [List.length_set]
    | rw [List.length_map] | rw [numbered_length] | simp only [List.length_cons, List.length_nil]
    | simp only [Barrier.downWith]

theorem bindChan_sound (d : Device) (c : Nat) (hd : Device.Sound d) :
    Device.Sound (bindChan d c) := by
  unfold bindChan
  repeat' first
    | with_reducible assumption | (extract_lets -underBinder +onlyGivenNames x; clear_value x)
    | with_reducible apply Device.setChan_sound | with_reducible apply ite_sound | split | (with_reducible dsimp only)

theorem Device.openChannels_sound (d : Device) (hd : Device.Sound d) :
    Device.Sound (Device.openChannels d) := by
  unfold Device.openChannels
  repeat' first
    | with_reducible assumption
    | (extract_lets -underBinder +onlyGivenNames x; clear_value (hv : x = _); refine (fun (hx : Device.Sound x) => ?_) ?_; rotate_left; refine sound_of_eq hv ?_; clear hv x; rotate_left; clear hv)
    | (extract_lets -underBinder +onlyGivenNames x; clear_value (hv : x = _); refine (fun (hx : Device.Sound (SendResult.dev x)) => ?_) ?_; rotate_left; refine sound_of_eq_send hv ?_; clear hv x; rotate_left; clear hv)
    | (extract_lets -underBinder +onlyGivenNames x; clear_value (hv : x = _); refine (fun (hb : (Barrier.chans x).length = 16) => ?_) ?_; rotate_left; rw [hv]; clear hv x; rotate_left; clear hv)
    | (extract_lets -underBinder +onlyGivenNames x; clear_value (hv : x = _); refine (fun (hb : (Front.chans x).length = 32) => ?_) ?_; rotate_left; rw [hv]; clear hv x; rotate_left; clear hv)
    | (extract_lets -underBinder +onlyGivenNames x; clear_value (hv : x = _); refine (fun (hb : List.length (α := Chan) x = 16) => ?_) ?_; rotate_left; rw [hv]; clear hv x; rotate_left; clear hv)
    | (extract_lets -underBinder +onlyGivenNames x; clear_value x) | with_reducible apply Device.pump_sound
    | with_reducible apply Device.send_sound | with_reducible apply bindChan_sound | with_reducible apply foldl_sound
    | intro _ | with_reducible apply ite_sound | split | (with_reducible dsimp only)
    | (refine Device.Sound.mk ?_ ?_ ?_ ?_ ?_ ?_ ?_ <;> with_reducible dsimp only) | with_reducible apply Device.Sound.wf
    | with_reducible apply Device.Sound.poles | with_reducible apply Device.Sound.arms
    | with_reducible apply Device.Sound.lanes | with_reducible apply Device.Sound.tasks
    | with_reducible apply Device.Sound.chans | with_reducible apply Device.Sound.convs | rw [List.length_set]
    | rw [List.length_map] | rw [numbered_length] | simp only [List.length_cons, List.length_nil]
    | simp only [Barrier.downWith]

theorem Device.showReach_sound (d : Device) (hd : Device.Sound d) :
    Device.Sound (Device.showReach d) := by
  unfold Device.showReach
  repeat' first
    | with_reducible assumption | (extract_lets -underBinder +onlyGivenNames x; clear_value x)
    | with_reducible apply Device.wr_sound | with_reducible apply Device.wrB_sound
    | with_reducible apply Device.wrBit_sound | with_reducible apply ite_sound | split | (with_reducible dsimp only)

theorem resetChan_sound (sel : Binding → Bool) (recv : Binding → Bool) (d : Device) (c : Nat) (hd : Device.Sound d) :
    Device.Sound (resetChan sel recv d c) := by
  unfold resetChan
  repeat' first
    | with_reducible assumption
    | (extract_lets -underBinder +onlyGivenNames x; clear_value (hv : x = _); refine (fun (hx : Device.Sound x) => ?_) ?_; rotate_left; refine sound_of_eq hv ?_; clear hv x; rotate_left; clear hv)
    | (extract_lets -underBinder +onlyGivenNames x; clear_value x) | with_reducible apply Device.event_sound
    | with_reducible apply Device.recPartnerReset_sound | with_reducible apply Device.setChan_sound
    | with_reducible apply ite_sound | split | (with_reducible dsimp only)

theorem Device.stationLost_sound (d : Device) (hd : Device.Sound d) :
    Device.Sound (Device.stationLost d) := by
  unfold Device.stationLost
  repeat' first
    | with_reducible assumption
    | (extract_lets -underBinder +onlyGivenNames x; clear_value (hv : x = _); refine (fun (hx : Device.Sound x) => ?_) ?_; rotate_left; refine sound_of_eq hv ?_; clear hv x; rotate_left; clear hv)
    | (extract_lets -underBinder +onlyGivenNames x; clear_value (hv : x = _); refine (fun (hb : (Barrier.chans x).length = 16) => ?_) ?_; rotate_left; rw [hv]; clear hv x; rotate_left; clear hv)
    | (extract_lets -underBinder +onlyGivenNames x; clear_value (hv : x = _); refine (fun (hb : (Front.chans x).length = 32) => ?_) ?_; rotate_left; rw [hv]; clear hv x; rotate_left; clear hv)
    | (extract_lets -underBinder +onlyGivenNames x; clear_value (hv : x = _); refine (fun (hb : List.length (α := Chan) x = 16) => ?_) ?_; rotate_left; rw [hv]; clear hv x; rotate_left; clear hv)
    | (extract_lets -underBinder +onlyGivenNames x; clear_value x) | with_reducible apply Device.giveUpTransfers_sound
    | with_reducible apply resetChan_sound | with_reducible apply foldl_sound | intro _ | (with_reducible dsimp only)
    | (refine Device.Sound.mk ?_ ?_ ?_ ?_ ?_ ?_ ?_ <;> with_reducible dsimp only) | with_reducible apply Device.Sound.wf
    | with_reducible apply Device.Sound.poles | with_reducible apply Device.Sound.arms
    | with_reducible apply Device.Sound.lanes | with_reducible apply Device.Sound.tasks
    | with_reducible apply Device.Sound.chans | with_reducible apply Device.Sound.convs | rw [List.length_set]
    | rw [List.length_map] | rw [numbered_length] | simp only [List.length_cons, List.length_nil]
    | simp only [Barrier.downWith]

theorem Device.lanesChanged_sound (d : Device) (hd : Device.Sound d) :
    Device.Sound (Device.lanesChanged d) := by
  unfold Device.lanesChanged
  repeat' first
    | with_reducible assumption | with_reducible apply Device.closeSession_sound
    | with_reducible apply Device.openChannels_sound | with_reducible apply Device.showReach_sound
    | with_reducible apply Device.stationLost_sound | with_reducible apply ite_sound | split
    | (with_reducible dsimp only)

theorem Device.mapChans_sound (d : Device) (f : Nat → Chan → Chan) (hd : Device.Sound d) :
    Device.Sound (Device.mapChans d f) := by
  unfold Device.mapChans
  repeat' first
    | with_reducible assumption
    | (extract_lets -underBinder +onlyGivenNames x; clear_value (hv : x = _); refine (fun (hb : (Barrier.chans x).length = 16) => ?_) ?_; rotate_left; rw [hv]; clear hv x; rotate_left; clear hv)
    | (extract_lets -underBinder +onlyGivenNames x; clear_value (hv : x = _); refine (fun (hb : (Front.chans x).length = 32) => ?_) ?_; rotate_left; rw [hv]; clear hv x; rotate_left; clear hv)
    | (extract_lets -underBinder +onlyGivenNames x; clear_value (hv : x = _); refine (fun (hb : List.length (α := Chan) x = 16) => ?_) ?_; rotate_left; rw [hv]; clear hv x; rotate_left; clear hv)
    | (extract_lets -underBinder +onlyGivenNames x; clear_value x) | with_reducible apply Device.wr_sound
    | (with_reducible dsimp only) | (refine Device.Sound.mk ?_ ?_ ?_ ?_ ?_ ?_ ?_ <;> with_reducible dsimp only)
    | with_reducible apply Device.Sound.wf | with_reducible apply Device.Sound.poles
    | with_reducible apply Device.Sound.arms | with_reducible apply Device.Sound.lanes
    | with_reducible apply Device.Sound.tasks | with_reducible apply Device.Sound.chans
    | with_reducible apply Device.Sound.convs | rw [List.length_set] | rw [List.length_map] | rw [numbered_length]
    | simp only [List.length_cons, List.length_nil] | simp only [Barrier.downWith]

theorem Device.showBarrier_sound (d : Device) (hd : Device.Sound d) :
    Device.Sound (Device.showBarrier d) := by
  unfold Device.showBarrier
  repeat' first
    | with_reducible assumption | (extract_lets -underBinder +onlyGivenNames x; clear_value x)
    | with_reducible apply Device.wr_sound | with_reducible apply ite_sound | split | (with_reducible dsimp only)

theorem Device.markLane_sound (d : Device) (toStation : Bool) (lane : Nat) (up : Bool) (hd : Device.Sound d) :
    Device.Sound (Device.markLane d toStation lane up) := by
  unfold Device.markLane
  repeat' first
    | with_reducible assumption
    | (extract_lets -underBinder +onlyGivenNames x; clear_value (hv : x = _); refine (fun (hb : (Barrier.chans x).length = 16) => ?_) ?_; rotate_left; rw [hv]; clear hv x; rotate_left; clear hv)
    | (extract_lets -underBinder +onlyGivenNames x; clear_value (hv : x = _); refine (fun (hb : (Front.chans x).length = 32) => ?_) ?_; rotate_left; rw [hv]; clear hv x; rotate_left; clear hv)
    | (extract_lets -underBinder +onlyGivenNames x; clear_value (hv : x = _); refine (fun (hb : List.length (α := Chan) x = 16) => ?_) ?_; rotate_left; rw [hv]; clear hv x; rotate_left; clear hv)
    | (extract_lets -underBinder +onlyGivenNames x; clear_value x) | with_reducible apply Device.showBarrier_sound
    | with_reducible apply ite_sound | split | (with_reducible dsimp only)
    | (refine Device.Sound.mk ?_ ?_ ?_ ?_ ?_ ?_ ?_ <;> with_reducible dsimp only) | with_reducible apply Device.Sound.wf
    | with_reducible apply Device.Sound.poles | with_reducible apply Device.Sound.arms
    | with_reducible apply Device.Sound.lanes | with_reducible apply Device.Sound.tasks
    | with_reducible apply Device.Sound.chans | with_reducible apply Device.Sound.convs | rw [List.length_set]
    | rw [List.length_map] | rw [numbered_length] | simp only [List.length_cons, List.length_nil]
    | simp only [Barrier.downWith]

theorem Device.pairsLost_sound (d : Device) (hd : Device.Sound d) :
    Device.Sound (Device.pairsLost d) := by
  unfold Device.pairsLost
  repeat' first
    | with_reducible assumption
    | (extract_lets -underBinder +onlyGivenNames x; clear_value (hv : x = _); refine (fun (hx : Device.Sound x) => ?_) ?_; rotate_left; refine sound_of_eq hv ?_; clear hv x; rotate_left; clear hv)
    | (extract_lets -underBinder +onlyGivenNames x; clear_value (hv : x = _); refine (fun (hb : (Barrier.chans x).length = 16) => ?_) ?_; rotate_left; rw [hv]; clear hv x; rotate_left; clear hv)
    | (extract_lets -underBinder +onlyGivenNames x; clear_value (hv : x = _); refine (fun (hb : (Front.chans x).length = 32) => ?_) ?_; rotate_left; rw [hv]; clear hv x; rotate_left; clear hv)
    | (extract_lets -underBinder +onlyGivenNames x; clear_value (hv : x = _); refine (fun (hb : List.length (α := Chan) x = 16) => ?_) ?_; rotate_left; rw [hv]; clear hv x; rotate_left; clear hv)
    | (extract_lets -underBinder +onlyGivenNames x; clear_value x) | with_reducible apply Device.giveUpTransfers_sound
    | with_reducible apply resetChan_sound | with_reducible apply foldl_sound | intro _ | (with_reducible dsimp only)
    | (refine Device.Sound.mk ?_ ?_ ?_ ?_ ?_ ?_ ?_ <;> with_reducible dsimp only) | with_reducible apply Device.Sound.wf
    | with_reducible apply Device.Sound.poles | with_reducible apply Device.Sound.arms
    | with_reducible apply Device.Sound.lanes | with_reducible apply Device.Sound.tasks
    | with_reducible apply Device.Sound.chans | with_reducible apply Device.Sound.convs | rw [List.length_set]
    | rw [List.length_map] | rw [numbered_length] | simp only [List.length_cons, List.length_nil]
    | simp only [Barrier.downWith]

theorem Device.plantBinding_sound (d : Device) (hd : Device.Sound d) :
    Device.Sound (Device.plantBinding d) := by
  unfold Device.plantBinding
  repeat' first
    | with_reducible assumption | with_reducible apply Device.mapChans_sound | with_reducible apply ite_sound | split
    | (with_reducible dsimp only)

theorem Device.plantChansUnbound_sound (d : Device) (hd : Device.Sound d) :
    Device.Sound (Device.plantChansUnbound d) := by
  unfold Device.plantChansUnbound
  repeat' first
    | with_reducible assumption
    | (extract_lets -underBinder +onlyGivenNames x; clear_value (hv : x = _); refine (fun (hx : Device.Sound x) => ?_) ?_; rotate_left; refine sound_of_eq hv ?_; clear hv x; rotate_left; clear hv)
    | (extract_lets -underBinder +onlyGivenNames x; clear_value (hv : x = _); refine (fun (hb : (Barrier.chans x).length = 16) => ?_) ?_; rotate_left; rw [hv]; clear hv x; rotate_left; clear hv)
    | (extract_lets -underBinder +onlyGivenNames x; clear_value (hv : x = _); refine (fun (hb : (Front.chans x).length = 32) => ?_) ?_; rotate_left; rw [hv]; clear hv x; rotate_left; clear hv)
    | (extract_lets -underBinder +onlyGivenNames x; clear_value (hv : x = _); refine (fun (hb : List.length (α := Chan) x = 16) => ?_) ?_; rotate_left; rw [hv]; clear hv x; rotate_left; clear hv)
    | (extract_lets -underBinder +onlyGivenNames x; clear_value x) | with_reducible apply Device.giveUpTransfers_sound
    | with_reducible apply Device.mapChans_sound | with_reducible apply Device.recPartnerReset_sound
    | with_reducible apply ite_sound | split | (with_reducible dsimp only)
    | (refine Device.Sound.mk ?_ ?_ ?_ ?_ ?_ ?_ ?_ <;> with_reducible dsimp only) | with_reducible apply Device.Sound.wf
    | with_reducible apply Device.Sound.poles | with_reducible apply Device.Sound.arms
    | with_reducible apply Device.Sound.lanes | with_reducible apply Device.Sound.tasks
    | with_reducible apply Device.Sound.chans | with_reducible apply Device.Sound.convs | rw [List.length_set]
    | rw [List.length_map] | rw [numbered_length] | simp only [List.length_cons, List.length_nil]
    | simp only [Barrier.downWith]

theorem Device.serveOn_sound (d : Device) (c : Nat) (hd : Device.Sound d) :
    Device.Sound (Device.serveOn d c) := by
  unfold Device.serveOn
  repeat' first
    | with_reducible assumption
    | (extract_lets -underBinder +onlyGivenNames x; clear_value (hv : x = _); refine (fun (hx : Device.Sound x) => ?_) ?_; rotate_left; refine sound_of_eq hv ?_; clear hv x; rotate_left; clear hv)
    | (extract_lets -underBinder +onlyGivenNames x; clear_value x) | with_reducible apply Device.setChan_sound
    | with_reducible apply Device.setOnLanes_sound | with_reducible apply ite_sound | split | (with_reducible dsimp only)

theorem Device.stationBinding_sound (d : Device) (hd : Device.Sound d) :
    Device.Sound (Device.stationBinding d) := by
  unfold Device.stationBinding
  repeat' first
    | with_reducible assumption | with_reducible apply Device.mapChans_sound | with_reducible apply ite_sound | split
    | (with_reducible dsimp only)

theorem Device.takeMessage_sound (d : Device) (c : Nat) (hd : Device.Sound d) :
    Device.Sound (Device.takeMessage d c) := by
  unfold Device.takeMessage
  repeat' first
    | with_reducible assumption | (extract_lets -underBinder +onlyGivenNames x; clear_value x)
    | with_reducible apply Device.consume_sound | with_reducible apply Device.setChan_sound
    | with_reducible apply ite_sound | split | (with_reducible dsimp only)

theorem execBarrierLaneFailure_keeps (toStation : Bool) (lane : Nat) (s : State) :
    Keeps s (execBarrierLaneFailure toStation lane s) := by
  unfold execBarrierLaneFailure
  refine State.run_keeps fun d hd => ?_
  repeat' first
    | with_reducible assumption
    | (extract_lets -underBinder +onlyGivenNames x; clear_value (hv : x = _); refine (fun (hx : Device.Sound x) => ?_) ?_; rotate_left; refine sound_of_eq hv ?_; clear hv x; rotate_left; clear hv)
    | (extract_lets -underBinder +onlyGivenNames x; clear_value x) | with_reducible apply Device.bumpEvent_sound
    | with_reducible apply Device.lanesChanged_sound | with_reducible apply Device.markLane_sound
    | with_reducible apply State.run_keeps | intro _ | with_reducible apply ite_sound | split
    | (with_reducible dsimp only)

theorem execBarrierLaneTrained_keeps (toStation : Bool) (lane : Nat) (crcEqual : Bool) (s : State) :
    Keeps s (execBarrierLaneTrained toStation lane crcEqual s) := by
  unfold execBarrierLaneTrained
  refine State.run_keeps fun d hd => ?_
  repeat' first
    | with_reducible assumption
    | (extract_lets -underBinder +onlyGivenNames x; clear_value (hv : x = _); refine (fun (hx : Device.Sound x) => ?_) ?_; rotate_left; refine sound_of_eq hv ?_; clear hv x; rotate_left; clear hv)
    | (extract_lets -underBinder +onlyGivenNames x; clear_value (hv : x = _); refine (fun (hb : (Barrier.chans x).length = 16) => ?_) ?_; rotate_left; rw [hv]; clear hv x; rotate_left; clear hv)
    | (extract_lets -underBinder +onlyGivenNames x; clear_value (hv : x = _); refine (fun (hb : (Front.chans x).length = 32) => ?_) ?_; rotate_left; rw [hv]; clear hv x; rotate_left; clear hv)
    | (extract_lets -underBinder +onlyGivenNames x; clear_value (hv : x = _); refine (fun (hb : List.length (α := Chan) x = 16) => ?_) ?_; rotate_left; rw [hv]; clear hv x; rotate_left; clear hv)
    | (extract_lets -underBinder +onlyGivenNames x; clear_value x) | with_reducible apply Device.event_sound
    | with_reducible apply Device.markLane_sound | with_reducible apply Device.openChannels_sound
    | with_reducible apply Device.showReach_sound | with_reducible apply State.run_keeps | intro _
    | with_reducible apply ite_sound | split | (with_reducible dsimp only)
    | (refine Device.Sound.mk ?_ ?_ ?_ ?_ ?_ ?_ ?_ <;> with_reducible dsimp only) | with_reducible apply Device.Sound.wf
    | with_reducible apply Device.Sound.poles | with_reducible apply Device.Sound.arms
    | with_reducible apply Device.Sound.lanes | with_reducible apply Device.Sound.tasks
    | with_reducible apply Device.Sound.chans | with_reducible apply Device.Sound.convs | rw [List.length_set]
    | rw [List.length_map] | rw [numbered_length] | simp only [List.length_cons, List.length_nil]
    | simp only [Barrier.downWith]

theorem execDoorbellClear_keeps (ident : Nat) (pair : Nat) (c : Nat) (bits : Nat) (s : State) :
    Keeps s (execDoorbellClear ident pair c bits s) := by
  unfold execDoorbellClear
  refine State.run_keeps fun d hd => ?_
  repeat' first
    | with_reducible assumption | (extract_lets -underBinder +onlyGivenNames x; clear_value x)
    | with_reducible apply Device.setChan_sound | with_reducible apply State.run_keeps | intro _
    | with_reducible apply ite_sound | split | (with_reducible dsimp only)

theorem execDoorbellSet_keeps (ident : Nat) (pair : Nat) (c : Nat) (bits : Nat) (s : State) :
    Keeps s (execDoorbellSet ident pair c bits s) := by
  unfold execDoorbellSet
  refine State.run_keeps fun d hd => ?_
  repeat' first
    | with_reducible assumption | (extract_lets -underBinder +onlyGivenNames x; clear_value x)
    | with_reducible apply Device.setChan_sound | with_reducible apply State.run_keeps | intro _
    | with_reducible apply ite_sound | split | (with_reducible dsimp only)

theorem execLinkStatusBlock_keeps (s : State) :
    Keeps s (execLinkStatusBlock s) := by
  unfold execLinkStatusBlock
  refine State.run_keeps fun d hd => ?_
  repeat' first
    | with_reducible assumption
    | (extract_lets -underBinder +onlyGivenNames x; clear_value (hv : x = _); refine (fun (hb : (Barrier.chans x).length = 16) => ?_) ?_; rotate_left; rw [hv]; clear hv x; rotate_left; clear hv)
    | (extract_lets -underBinder +onlyGivenNames x; clear_value (hv : x = _); refine (fun (hb : (Front.chans x).length = 32) => ?_) ?_; rotate_left; rw [hv]; clear hv x; rotate_left; clear hv)
    | (extract_lets -underBinder +onlyGivenNames x; clear_value (hv : x = _); refine (fun (hb : List.length (α := Chan) x = 16) => ?_) ?_; rotate_left; rw [hv]; clear hv x; rotate_left; clear hv)
    | (extract_lets -underBinder +onlyGivenNames x; clear_value x) | with_reducible apply State.run_keeps | intro _
    | with_reducible apply ite_sound | split | (with_reducible dsimp only)
    | (refine Device.Sound.mk ?_ ?_ ?_ ?_ ?_ ?_ ?_ <;> with_reducible dsimp only) | with_reducible apply Device.Sound.wf
    | with_reducible apply Device.Sound.poles | with_reducible apply Device.Sound.arms
    | with_reducible apply Device.Sound.lanes | with_reducible apply Device.Sound.tasks
    | with_reducible apply Device.Sound.chans | with_reducible apply Device.Sound.convs | rw [List.length_set]
    | rw [List.length_map] | rw [numbered_length] | simp only [List.length_cons, List.length_nil]
    | simp only [Barrier.downWith]

theorem execMessageReceived_keeps (c : Nat) (crcOk : Bool) (s : State) :
    Keeps s (execMessageReceived c crcOk s) := by
  unfold execMessageReceived
  refine State.run_keeps fun d hd => ?_
  repeat' first
    | with_reducible assumption
    | (extract_lets -underBinder +onlyGivenNames x; clear_value (hv : x = _); refine (fun (hx : Device.Sound x) => ?_) ?_; rotate_left; refine sound_of_eq hv ?_; clear hv x; rotate_left; clear hv)
    | (extract_lets -underBinder +onlyGivenNames x; clear_value x) | with_reducible apply Device.bump_sound
    | with_reducible apply Device.serveOn_sound | with_reducible apply Device.setChan_sound
    | with_reducible apply State.run_keeps | intro _ | with_reducible apply ite_sound | split
    | (with_reducible dsimp only)

theorem execMessageSend_keeps (ident : Nat) (pair : Nat) (c : Nat) (cls : Nat) (typ : Nat) (payload : List Nat) (s : State) :
    Keeps s (execMessageSend ident pair c cls typ payload s) := by
  unfold execMessageSend
  refine State.run_keeps fun d hd => ?_
  repeat' first
    | with_reducible assumption
    | (extract_lets -underBinder +onlyGivenNames x; clear_value (hv : x = _); refine (fun (hx : Device.Sound x) => ?_) ?_; rotate_left; refine sound_of_eq hv ?_; clear hv x; rotate_left; clear hv)
    | (extract_lets -underBinder +onlyGivenNames x; clear_value (hv : x = _); refine (fun (hx : Device.Sound (SendResult.dev x)) => ?_) ?_; rotate_left; refine sound_of_eq_send hv ?_; clear hv x; rotate_left; clear hv)
    | (extract_lets -underBinder +onlyGivenNames x; clear_value (hv : x = _); refine (fun (hb : (Barrier.chans x).length = 16) => ?_) ?_; rotate_left; rw [hv]; clear hv x; rotate_left; clear hv)
    | (extract_lets -underBinder +onlyGivenNames x; clear_value (hv : x = _); refine (fun (hb : (Front.chans x).length = 32) => ?_) ?_; rotate_left; rw [hv]; clear hv x; rotate_left; clear hv)
    | (extract_lets -underBinder +onlyGivenNames x; clear_value (hv : x = _); refine (fun (hb : List.length (α := Chan) x = 16) => ?_) ?_; rotate_left; rw [hv]; clear hv x; rotate_left; clear hv)
    | (extract_lets -underBinder +onlyGivenNames x; clear_value x) | with_reducible apply Device.send_sound
    | with_reducible apply Device.setChan_sound | with_reducible apply State.run_keeps | intro _
    | with_reducible apply ite_sound | split | (with_reducible dsimp only)
    | (refine Device.Sound.mk ?_ ?_ ?_ ?_ ?_ ?_ ?_ <;> with_reducible dsimp only) | with_reducible apply Device.Sound.wf
    | with_reducible apply Device.Sound.poles | with_reducible apply Device.Sound.arms
    | with_reducible apply Device.Sound.lanes | with_reducible apply Device.Sound.tasks
    | with_reducible apply Device.Sound.chans | with_reducible apply Device.Sound.convs | rw [List.length_set]
    | rw [List.length_map] | rw [numbered_length] | simp only [List.length_cons, List.length_nil]
    | simp only [Barrier.downWith]

theorem execMessageTake_keeps (ident : Nat) (pair : Nat) (c : Nat) (s : State) :
    Keeps s (execMessageTake ident pair c s) := by
  unfold execMessageTake
  refine State.run_keeps fun d hd => ?_
  repeat' first
    | with_reducible assumption | with_reducible apply Device.setChan_sound
    | with_reducible apply Device.takeMessage_sound | with_reducible apply State.run_keeps | intro _
    | with_reducible apply ite_sound | split | (with_reducible dsimp only)

theorem execTaskMessageReceived_keeps (s : State) :
    Keeps s (execTaskMessageReceived s) := by
  unfold execTaskMessageReceived
  refine State.run_keeps fun d hd => ?_
  repeat' first
    | with_reducible assumption | with_reducible apply Device.takeMessage_sound | with_reducible apply State.run_keeps
    | intro _ | with_reducible apply ite_sound | split | (with_reducible dsimp only)

end Sys2Proof.Machine
end

