-- ==== Sys2Proof/Laws/SoundEnergy.lean ====
section
/-! SUPPORT. Every operation of Machine/Energy.lean keeps a sound device sound; every command of it completes and
leaves the queue alone. -/
namespace Sys2Proof.Machine

set_option linter.all false
set_option Elab.async false

theorem Device.modMeter_sound (d : Device) (f : Meter → Meter) (hd : Device.Sound d) :
    Device.Sound (Device.modMeter d f) := by
  unfold Device.modMeter
  repeat' first
    | with_reducible assumption | (with_reducible dsimp only)
    | (refine Device.Sound.mk ?_ ?_ ?_ ?_ ?_ ?_ ?_ <;> with_reducible dsimp only) | with_reducible apply Device.Sound.wf
    | with_reducible apply Device.Sound.poles | with_reducible apply Device.Sound.arms
    | with_reducible apply Device.Sound.lanes | with_reducible apply Device.Sound.tasks
    | with_reducible apply Device.Sound.chans | with_reducible apply Device.Sound.convs | rw [List.length_set]
    | rw [List.length_map] | rw [numbered_length] | simp only [List.length_cons, List.length_nil]
    | simp only [Barrier.downWith]

theorem Device.modWin_sound (d : Device) (p : Nat) (f : MeterWin → MeterWin) (hd : Device.Sound d) :
    Device.Sound (Device.modWin d p f) := by
  unfold Device.modWin
  repeat' first
    | with_reducible assumption | with_reducible apply Device.modMeter_sound

theorem Device.showMeterLog_sound (d : Device) (hd : Device.Sound d) :
    Device.Sound (Device.showMeterLog d) := by
  unfold Device.showMeterLog
  repeat' first
    | with_reducible assumption | (extract_lets -underBinder +onlyGivenNames x; clear_value x)
    | with_reducible apply Device.wr_sound

theorem Device.meterLogAt_sound (d : Device) (tick : Nat) (utc : Nat) (typ : Nat) (pole : Nat) (item : Nat) (value : Nat) (hd : Device.Sound d) :
    Device.Sound (Device.meterLogAt d tick utc typ pole item value) := by
  unfold Device.meterLogAt
  repeat' first
    | with_reducible assumption
    | (extract_lets -underBinder +onlyGivenNames x; clear_value (hv : x = _); refine (fun (hx : Device.Sound x) => ?_) ?_; rotate_left; refine sound_of_eq hv ?_; clear hv x; rotate_left; clear hv)
    | (extract_lets -underBinder +onlyGivenNames x; clear_value x) | with_reducible apply Device.bump_sound
    | with_reducible apply Device.modMeter_sound | with_reducible apply Device.showMeterLog_sound
    | with_reducible apply ite_sound | split | (with_reducible dsimp only)

theorem Device.meterLog_sound (d : Device) (typ : Nat) (pole : Nat) (item : Nat) (value : Nat) (hd : Device.Sound d) :
    Device.Sound (Device.meterLog d typ pole item value) := by
  unfold Device.meterLog
  repeat' first
    | with_reducible assumption | with_reducible apply Device.meterLogAt_sound

theorem Device.showLegacy_sound (d : Device) (p : Nat) (k : Nat) (hd : Device.Sound d) :
    Device.Sound (Device.showLegacy d p k) := by
  unfold Device.showLegacy
  repeat' first
    | with_reducible assumption
    | (extract_lets -underBinder +onlyGivenNames x; clear_value (hv : x = _); refine (fun (hx : Device.Sound x) => ?_) ?_; rotate_left; refine sound_of_eq hv ?_; clear hv x; rotate_left; clear hv)
    | (extract_lets -underBinder +onlyGivenNames x; clear_value x) | with_reducible apply Device.event_sound
    | with_reducible apply Device.meterLog_sound | with_reducible apply Device.wr_sound | with_reducible apply ite_sound
    | split | (with_reducible dsimp only)

theorem Device.creditOne_sound (d : Device) (p : Nat) (k : Nat) (inc : Rat) (hd : Device.Sound d) :
    Device.Sound (Device.creditOne d p k inc) := by
  unfold Device.creditOne
  repeat' first
    | with_reducible assumption
    | (extract_lets -underBinder +onlyGivenNames x; clear_value (hv : x = _); refine (fun (hx : Device.Sound x) => ?_) ?_; rotate_left; refine sound_of_eq hv ?_; clear hv x; rotate_left; clear hv)
    | (extract_lets -underBinder +onlyGivenNames x; clear_value x) | with_reducible apply Device.accum_sound
    | with_reducible apply Device.modWin_sound | with_reducible apply Device.showLegacy_sound
    | with_reducible apply ite_sound | split | (with_reducible dsimp only)

theorem Device.creditFrom_sound (p : Nat) (x1 : Nat) (x2 : List Rat) (x3 : Device) (hx3 : Device.Sound x3) :
    Device.Sound (Device.creditFrom p x1 x2 x3) := by
  induction x2 generalizing x1 x3 with
  | nil => exact hx3
  | cons x r ih => exact ih _ _ (Device.creditOne_sound _ _ _ _ hx3)

theorem Device.credit_sound (d : Device) (p : Nat) (incs : List Rat) (hd : Device.Sound d) :
    Device.Sound (Device.credit d p incs) := by
  unfold Device.credit
  repeat' first
    | with_reducible assumption | with_reducible apply Device.creditFrom_sound

theorem Device.writeSlot_sound (d : Device) (i : Nat) (r : SaveRec) (hd : Device.Sound d) :
    Device.Sound (Device.writeSlot d i r) := by
  unfold Device.writeSlot
  repeat' first
    | with_reducible assumption | with_reducible apply Device.modMeter_sound

theorem Device.endgameSave_sound (d : Device) (hd : Device.Sound d) :
    Device.Sound (Device.endgameSave d) := by
  unfold Device.endgameSave
  repeat' first
    | with_reducible assumption | (extract_lets -underBinder +onlyGivenNames x; clear_value x)
    | with_reducible apply Device.writeSlot_sound | with_reducible apply ite_sound | split | (with_reducible dsimp only)

theorem Device.shutEarly_sound (d : Device) (ps : List Nat) (hd : Device.Sound d) :
    Device.Sound (Device.shutEarly d ps) := by
  unfold Device.shutEarly
  repeat' first
    | with_reducible assumption | with_reducible apply Device.modWin_sound | with_reducible apply foldl_sound | intro _
    | (with_reducible dsimp only)

theorem Device.noteParam_sound (d : Device) (key : Nat) (hd : Device.Sound d) :
    Device.Sound (Device.noteParam d key) := by
  unfold Device.noteParam
  repeat' first
    | with_reducible assumption | (extract_lets -underBinder +onlyGivenNames x; clear_value x)
    | with_reducible apply Device.shutEarly_sound | with_reducible apply odWf_odPut | with_reducible apply odWf_puts
    | with_reducible apply odWf_filter | with_reducible exact Device.reset_sound | with_reducible apply ite_sound | split
    | (with_reducible dsimp only) | (refine Device.Sound.mk ?_ ?_ ?_ ?_ ?_ ?_ ?_ <;> with_reducible dsimp only)
    | with_reducible apply Device.Sound.wf | with_reducible apply Device.Sound.poles
    | with_reducible apply Device.Sound.arms | with_reducible apply Device.Sound.lanes
    | with_reducible apply Device.Sound.tasks | with_reducible apply Device.Sound.chans
    | with_reducible apply Device.Sound.convs | rw [List.length_set] | rw [List.length_map] | rw [numbered_length]
    | simp only [List.length_cons, List.length_nil] | simp only [Barrier.downWith]

theorem Device.showLockCrc_sound (d : Device) (hd : Device.Sound d) :
    Device.Sound (Device.showLockCrc d) := by
  unfold Device.showLockCrc
  repeat' first
    | with_reducible assumption | with_reducible apply Device.wr_sound

end Sys2Proof.Machine
end

