-- ==== Sys2Proof/Laws/SoundRecorder.lean ====
section
/-! SUPPORT. Every operation of Machine/Recorder.lean keeps a sound device sound; every command of it completes and
leaves the queue alone. -/
namespace Sys2Proof.Machine

set_option linter.all false
set_option Elab.async false

theorem Device.foeError_sound (d : Device) (e : Nat) (hd : Device.Sound d) :
    Device.Sound (Device.foeError d e) := by
  unfold Device.foeError
  repeat' first
    | with_reducible assumption
    | (extract_lets -underBinder +onlyGivenNames x; clear_value (hv : x = _); refine (fun (hb : (Barrier.chans x).length = 16) => ?_) ?_; rotate_left; rw [hv]; clear hv x; rotate_left; clear hv)
    | (extract_lets -underBinder +onlyGivenNames x; clear_value (hv : x = _); refine (fun (hb : (Front.chans x).length = 32) => ?_) ?_; rotate_left; rw [hv]; clear hv x; rotate_left; clear hv)
    | (extract_lets -underBinder +onlyGivenNames x; clear_value (hv : x = _); refine (fun (hb : List.length (α := Chan) x = 16) => ?_) ?_; rotate_left; rw [hv]; clear hv x; rotate_left; clear hv)
    | (extract_lets -underBinder +onlyGivenNames x; clear_value x) | (with_reducible dsimp only)
    | (refine Device.Sound.mk ?_ ?_ ?_ ?_ ?_ ?_ ?_ <;> with_reducible dsimp only) | with_reducible apply Device.Sound.wf
    | with_reducible apply Device.Sound.poles | with_reducible apply Device.Sound.arms
    | with_reducible apply Device.Sound.lanes | with_reducible apply Device.Sound.tasks
    | with_reducible apply Device.Sound.chans | with_reducible apply Device.Sound.convs | rw [List.length_set]
    | rw [List.length_map] | rw [numbered_length] | simp only [List.length_cons, List.length_nil]
    | simp only [Barrier.downWith]

theorem Device.foeFile_sound (d : Device) (bs : List Nat) (hd : Device.Sound d) :
    Device.Sound (Device.foeFile d bs) := by
  unfold Device.foeFile
  repeat' first
    | with_reducible assumption
    | (extract_lets -underBinder +onlyGivenNames x; clear_value (hv : x = _); refine (fun (hb : (Barrier.chans x).length = 16) => ?_) ?_; rotate_left; rw [hv]; clear hv x; rotate_left; clear hv)
    | (extract_lets -underBinder +onlyGivenNames x; clear_value (hv : x = _); refine (fun (hb : (Front.chans x).length = 32) => ?_) ?_; rotate_left; rw [hv]; clear hv x; rotate_left; clear hv)
    | (extract_lets -underBinder +onlyGivenNames x; clear_value (hv : x = _); refine (fun (hb : List.length (α := Chan) x = 16) => ?_) ?_; rotate_left; rw [hv]; clear hv x; rotate_left; clear hv)
    | (extract_lets -underBinder +onlyGivenNames x; clear_value x) | (with_reducible dsimp only)
    | (refine Device.Sound.mk ?_ ?_ ?_ ?_ ?_ ?_ ?_ <;> with_reducible dsimp only) | with_reducible apply Device.Sound.wf
    | with_reducible apply Device.Sound.poles | with_reducible apply Device.Sound.arms
    | with_reducible apply Device.Sound.lanes | with_reducible apply Device.Sound.tasks
    | with_reducible apply Device.Sound.chans | with_reducible apply Device.Sound.convs | rw [List.length_set]
    | rw [List.length_map] | rw [numbered_length] | simp only [List.length_cons, List.length_nil]
    | simp only [Barrier.downWith]

theorem Device.recEnd_sound (d : Device) (trunc : Bool) (hd : Device.Sound d) :
    Device.Sound (Device.recEnd d trunc) := by
  unfold Device.recEnd
  repeat' first
    | with_reducible assumption
    | (extract_lets -underBinder +onlyGivenNames x; clear_value (hv : x = _); refine (fun (hb : (Barrier.chans x).length = 16) => ?_) ?_; rotate_left; rw [hv]; clear hv x; rotate_left; clear hv)
    | (extract_lets -underBinder +onlyGivenNames x; clear_value (hv : x = _); refine (fun (hb : (Front.chans x).length = 32) => ?_) ?_; rotate_left; rw [hv]; clear hv x; rotate_left; clear hv)
    | (extract_lets -underBinder +onlyGivenNames x; clear_value (hv : x = _); refine (fun (hb : List.length (α := Chan) x = 16) => ?_) ?_; rotate_left; rw [hv]; clear hv x; rotate_left; clear hv)
    | (extract_lets -underBinder +onlyGivenNames x; clear_value x) | with_reducible apply Device.armRecorder_sound
    | with_reducible apply ite_sound | split | (with_reducible dsimp only)
    | (refine Device.Sound.mk ?_ ?_ ?_ ?_ ?_ ?_ ?_ <;> with_reducible dsimp only) | with_reducible apply Device.Sound.wf
    | with_reducible apply Device.Sound.poles | with_reducible apply Device.Sound.arms
    | with_reducible apply Device.Sound.lanes | with_reducible apply Device.Sound.tasks
    | with_reducible apply Device.Sound.chans | with_reducible apply Device.Sound.convs | rw [List.length_set]
    | rw [List.length_map] | rw [numbered_length] | simp only [List.length_cons, List.length_nil]
    | simp only [Barrier.downWith]

theorem Device.recorderSetup_sound (d : Device) (hd : Device.Sound d) :
    Device.Sound (Device.recorderSetup d) := by
  unfold Device.recorderSetup
  repeat' first
    | with_reducible assumption
    | (extract_lets -underBinder +onlyGivenNames x; clear_value (hv : x = _); refine (fun (hx : Device.Sound x) => ?_) ?_; rotate_left; refine sound_of_eq hv ?_; clear hv x; rotate_left; clear hv)
    | (extract_lets -underBinder +onlyGivenNames x; clear_value (hv : x = _); refine (fun (hb : (Barrier.chans x).length = 16) => ?_) ?_; rotate_left; rw [hv]; clear hv x; rotate_left; clear hv)
    | (extract_lets -underBinder +onlyGivenNames x; clear_value (hv : x = _); refine (fun (hb : (Front.chans x).length = 32) => ?_) ?_; rotate_left; rw [hv]; clear hv x; rotate_left; clear hv)
    | (extract_lets -underBinder +onlyGivenNames x; clear_value (hv : x = _); refine (fun (hb : List.length (α := Chan) x = 16) => ?_) ?_; rotate_left; rw [hv]; clear hv x; rotate_left; clear hv)
    | (extract_lets -underBinder +onlyGivenNames x; clear_value x) | with_reducible apply Device.armRecorder_sound
    | with_reducible apply Device.stCount_sound | with_reducible apply Device.wr_sound | with_reducible apply foldl_sound
    | with_reducible apply odWf_odPut | with_reducible apply odWf_puts | with_reducible apply odWf_filter
    | with_reducible exact Device.reset_sound | intro _ | with_reducible apply ite_sound | split
    | (with_reducible dsimp only) | (refine Device.Sound.mk ?_ ?_ ?_ ?_ ?_ ?_ ?_ <;> with_reducible dsimp only)
    | with_reducible apply Device.Sound.wf | with_reducible apply Device.Sound.poles
    | with_reducible apply Device.Sound.arms | with_reducible apply Device.Sound.lanes
    | with_reducible apply Device.Sound.tasks | with_reducible apply Device.Sound.chans
    | with_reducible apply Device.Sound.convs | rw [List.length_set] | rw [List.length_map] | rw [numbered_length]
    | simp only [List.length_cons, List.length_nil] | simp only [Barrier.downWith]

theorem Device.recorderStationReset_sound (d : Device) (hd : Device.Sound d) :
    Device.Sound (Device.recorderStationReset d) := by
  unfold Device.recorderStationReset
  repeat' first
    | with_reducible assumption
    | (extract_lets -underBinder +onlyGivenNames x; clear_value (hv : x = _); refine (fun (hb : (Barrier.chans x).length = 16) => ?_) ?_; rotate_left; rw [hv]; clear hv x; rotate_left; clear hv)
    | (extract_lets -underBinder +onlyGivenNames x; clear_value (hv : x = _); refine (fun (hb : (Front.chans x).length = 32) => ?_) ?_; rotate_left; rw [hv]; clear hv x; rotate_left; clear hv)
    | (extract_lets -underBinder +onlyGivenNames x; clear_value (hv : x = _); refine (fun (hb : List.length (α := Chan) x = 16) => ?_) ?_; rotate_left; rw [hv]; clear hv x; rotate_left; clear hv)
    | (extract_lets -underBinder +onlyGivenNames x; clear_value x) | with_reducible apply Device.bumpBy_sound
    | with_reducible apply Device.showSlots_sound | with_reducible apply odWf_odPut | with_reducible apply odWf_puts
    | with_reducible apply odWf_filter | with_reducible exact Device.reset_sound | (with_reducible dsimp only)
    | (refine Device.Sound.mk ?_ ?_ ?_ ?_ ?_ ?_ ?_ <;> with_reducible dsimp only) | with_reducible apply Device.Sound.wf
    | with_reducible apply Device.Sound.poles | with_reducible apply Device.Sound.arms
    | with_reducible apply Device.Sound.lanes | with_reducible apply Device.Sound.tasks
    | with_reducible apply Device.Sound.chans | with_reducible apply Device.Sound.convs | rw [List.length_set]
    | rw [List.length_map] | rw [numbered_length] | simp only [List.length_cons, List.length_nil]
    | simp only [Barrier.downWith]

theorem execFoeReadEventLog_keeps (password : Nat) (s : State) :
    Keeps s (execFoeReadEventLog password s) := by
  unfold execFoeReadEventLog
  refine State.run_keeps fun d hd => ?_
  repeat' first
    | with_reducible assumption | with_reducible apply Device.foeError_sound | with_reducible apply Device.foeFile_sound
    | with_reducible apply State.run_keeps | intro _ | with_reducible apply ite_sound | split
    | (with_reducible dsimp only)

theorem execFoeReadRecord_keeps (i : Nat) (password : Nat) (s : State) :
    Keeps s (execFoeReadRecord i password s) := by
  unfold execFoeReadRecord
  refine State.run_keeps fun d hd => ?_
  repeat' first
    | with_reducible assumption
    | (extract_lets -underBinder +onlyGivenNames x; clear_value (hv : x = _); refine (fun (hx : Device.Sound x) => ?_) ?_; rotate_left; refine sound_of_eq hv ?_; clear hv x; rotate_left; clear hv)
    | (extract_lets -underBinder +onlyGivenNames x; clear_value (hv : x = _); refine (fun (hb : (Barrier.chans x).length = 16) => ?_) ?_; rotate_left; rw [hv]; clear hv x; rotate_left; clear hv)
    | (extract_lets -underBinder +onlyGivenNames x; clear_value (hv : x = _); refine (fun (hb : (Front.chans x).length = 32) => ?_) ?_; rotate_left; rw [hv]; clear hv x; rotate_left; clear hv)
    | (extract_lets -underBinder +onlyGivenNames x; clear_value (hv : x = _); refine (fun (hb : List.length (α := Chan) x = 16) => ?_) ?_; rotate_left; rw [hv]; clear hv x; rotate_left; clear hv)
    | (extract_lets -underBinder +onlyGivenNames x; clear_value x) | with_reducible apply Device.armRecorder_sound
    | with_reducible apply Device.foeError_sound | with_reducible apply Device.foeFile_sound
    | with_reducible apply State.run_keeps | intro _ | with_reducible apply ite_sound | split
    | (with_reducible dsimp only) | (refine Device.Sound.mk ?_ ?_ ?_ ?_ ?_ ?_ ?_ <;> with_reducible dsimp only)
    | with_reducible apply Device.Sound.wf | with_reducible apply Device.Sound.poles
    | with_reducible apply Device.Sound.arms | with_reducible apply Device.Sound.lanes
    | with_reducible apply Device.Sound.tasks | with_reducible apply Device.Sound.chans
    | with_reducible apply Device.Sound.convs | rw [List.length_set] | rw [List.length_map] | rw [numbered_length]
    | simp only [List.length_cons, List.length_nil] | simp only [Barrier.downWith]

theorem execLifeAccounting_keeps (mC : Int) (s : State) :
    Keeps s (execLifeAccounting mC s) := by
  unfold execLifeAccounting
  refine State.run_keeps fun d hd => ?_
  repeat' first
    | with_reducible assumption
    | (extract_lets -underBinder +onlyGivenNames x; clear_value (hv : x = _); refine (fun (hx : Device.Sound x) => ?_) ?_; rotate_left; refine sound_of_eq hv ?_; clear hv x; rotate_left; clear hv)
    | (extract_lets -underBinder +onlyGivenNames x; clear_value (hv : x = _); refine (fun (hb : (Barrier.chans x).length = 16) => ?_) ?_; rotate_left; rw [hv]; clear hv x; rotate_left; clear hv)
    | (extract_lets -underBinder +onlyGivenNames x; clear_value (hv : x = _); refine (fun (hb : (Front.chans x).length = 32) => ?_) ?_; rotate_left; rw [hv]; clear hv x; rotate_left; clear hv)
    | (extract_lets -underBinder +onlyGivenNames x; clear_value (hv : x = _); refine (fun (hb : List.length (α := Chan) x = 16) => ?_) ?_; rotate_left; rw [hv]; clear hv x; rotate_left; clear hv)
    | (extract_lets -underBinder +onlyGivenNames x; clear_value x) | with_reducible apply Device.bumpEvent_sound
    | with_reducible apply Device.event_sound | with_reducible apply Device.wr_sound
    | with_reducible apply Device.wrF_sound | with_reducible apply State.run_keeps | intro _
    | with_reducible apply ite_sound | split | (with_reducible dsimp only)
    | (refine Device.Sound.mk ?_ ?_ ?_ ?_ ?_ ?_ ?_ <;> with_reducible dsimp only) | with_reducible apply Device.Sound.wf
    | with_reducible apply Device.Sound.poles | with_reducible apply Device.Sound.arms
    | with_reducible apply Device.Sound.lanes | with_reducible apply Device.Sound.tasks
    | with_reducible apply Device.Sound.chans | with_reducible apply Device.Sound.convs | rw [List.length_set]
    | rw [List.length_map] | rw [numbered_length] | simp only [List.length_cons, List.length_nil]
    | simp only [Barrier.downWith]

theorem execMemoryScrub_keeps (corrected : Nat) (dram : Nat) (s : State) :
    Keeps s (execMemoryScrub corrected dram s) := by
  unfold execMemoryScrub
  refine State.run_keeps fun d hd => ?_
  repeat' first
    | with_reducible assumption
    | (extract_lets -underBinder +onlyGivenNames x; clear_value (hv : x = _); refine (fun (hx : Device.Sound x) => ?_) ?_; rotate_left; refine sound_of_eq hv ?_; clear hv x; rotate_left; clear hv)
    | (extract_lets -underBinder +onlyGivenNames x; clear_value x) | with_reducible apply Device.bumpBy_sound
    | with_reducible apply Device.stEvent_sound | with_reducible apply State.run_keeps | intro _
    | with_reducible apply ite_sound | split | (with_reducible dsimp only)

theorem execRecorderTrigger_keeps (src : Nat) (t : Nat) (s : State) :
    Keeps s (execRecorderTrigger src t s) := by
  unfold execRecorderTrigger
  refine State.run_keeps fun d hd => ?_
  repeat' first
    | with_reducible assumption | with_reducible apply Device.recTrigger_sound | with_reducible apply State.run_keeps
    | intro _ | with_reducible apply ite_sound | split | (with_reducible dsimp only)

theorem execRecordingEnd_keeps (s : State) :
    Keeps s (execRecordingEnd s) := by
  unfold execRecordingEnd
  refine State.run_keeps fun d hd => ?_
  repeat' first
    | with_reducible assumption | with_reducible apply Device.recEnd_sound | with_reducible apply State.run_keeps
    | intro _ | with_reducible apply ite_sound | split | (with_reducible dsimp only)

theorem execRecordingStreamTimeout_keeps (s : State) :
    Keeps s (execRecordingStreamTimeout s) := by
  unfold execRecordingStreamTimeout
  refine State.run_keeps fun d hd => ?_
  repeat' first
    | with_reducible assumption | with_reducible apply Device.recEnd_sound | with_reducible apply State.run_keeps
    | intro _ | with_reducible apply ite_sound | split | (with_reducible dsimp only)

theorem execTimeEdge_keeps (mode : Nat) (reading : Nat) (offUs : Nat) (delay : Nat) (s : State) :
    Keeps s (execTimeEdge mode reading offUs delay s) := by
  unfold execTimeEdge
  refine State.run_keeps fun d hd => ?_
  repeat' first
    | with_reducible assumption
    | (extract_lets -underBinder +onlyGivenNames x; clear_value (hv : x = _); refine (fun (hx : Device.Sound x) => ?_) ?_; rotate_left; refine sound_of_eq hv ?_; clear hv x; rotate_left; clear hv)
    | (extract_lets -underBinder +onlyGivenNames x; clear_value (hv : x = _); refine (fun (hx : Device.Sound (SendResult.dev x)) => ?_) ?_; rotate_left; refine sound_of_eq_send hv ?_; clear hv x; rotate_left; clear hv)
    | (extract_lets -underBinder +onlyGivenNames x; clear_value (hv : x = _); refine (fun (hb : (Barrier.chans x).length = 16) => ?_) ?_; rotate_left; rw [hv]; clear hv x; rotate_left; clear hv)
    | (extract_lets -underBinder +onlyGivenNames x; clear_value (hv : x = _); refine (fun (hb : (Front.chans x).length = 32) => ?_) ?_; rotate_left; rw [hv]; clear hv x; rotate_left; clear hv)
    | (extract_lets -underBinder +onlyGivenNames x; clear_value (hv : x = _); refine (fun (hb : List.length (α := Chan) x = 16) => ?_) ?_; rotate_left; rw [hv]; clear hv x; rotate_left; clear hv)
    | (extract_lets -underBinder +onlyGivenNames x; clear_value x) | with_reducible apply Device.bump_sound
    | with_reducible apply Device.send_sound | with_reducible apply Device.stEvent_sound
    | with_reducible apply Device.wr_sound | with_reducible apply State.run_keeps | intro _
    | with_reducible apply ite_sound | split | (with_reducible dsimp only)
    | (refine Device.Sound.mk ?_ ?_ ?_ ?_ ?_ ?_ ?_ <;> with_reducible dsimp only) | with_reducible apply Device.Sound.wf
    | with_reducible apply Device.Sound.poles | with_reducible apply Device.Sound.arms
    | with_reducible apply Device.Sound.lanes | with_reducible apply Device.Sound.tasks
    | with_reducible apply Device.Sound.chans | with_reducible apply Device.Sound.convs | rw [List.length_set]
    | rw [List.length_map] | rw [numbered_length] | simp only [List.length_cons, List.length_nil]
    | simp only [Barrier.downWith]

theorem execTimeHoldover_keeps (s : State) :
    Keeps s (execTimeHoldover s) := by
  unfold execTimeHoldover
  refine State.run_keeps fun d hd => ?_
  repeat' first
    | with_reducible assumption
    | (extract_lets -underBinder +onlyGivenNames x; clear_value (hv : x = _); refine (fun (hb : (Barrier.chans x).length = 16) => ?_) ?_; rotate_left; rw [hv]; clear hv x; rotate_left; clear hv)
    | (extract_lets -underBinder +onlyGivenNames x; clear_value (hv : x = _); refine (fun (hb : (Front.chans x).length = 32) => ?_) ?_; rotate_left; rw [hv]; clear hv x; rotate_left; clear hv)
    | (extract_lets -underBinder +onlyGivenNames x; clear_value (hv : x = _); refine (fun (hb : List.length (α := Chan) x = 16) => ?_) ?_; rotate_left; rw [hv]; clear hv x; rotate_left; clear hv)
    | (extract_lets -underBinder +onlyGivenNames x; clear_value x) | with_reducible apply Device.wr_sound
    | with_reducible apply State.run_keeps | intro _ | with_reducible apply ite_sound | split
    | (with_reducible dsimp only) | (refine Device.Sound.mk ?_ ?_ ?_ ?_ ?_ ?_ ?_ <;> with_reducible dsimp only)
    | with_reducible apply Device.Sound.wf | with_reducible apply Device.Sound.poles
    | with_reducible apply Device.Sound.arms | with_reducible apply Device.Sound.lanes
    | with_reducible apply Device.Sound.tasks | with_reducible apply Device.Sound.chans
    | with_reducible apply Device.Sound.convs | rw [List.length_set] | rw [List.length_map] | rw [numbered_length]
    | simp only [List.length_cons, List.length_nil] | simp only [Barrier.downWith]

theorem execTimeMessage_keeps (sec : Nat) (delay : Nat) (sinceT0 : Nat) (s : State) :
    Keeps s (execTimeMessage sec delay sinceT0 s) := by
  unfold execTimeMessage
  refine State.run_keeps fun d hd => ?_
  repeat' first
    | with_reducible assumption
    | (extract_lets -underBinder +onlyGivenNames x; clear_value (hv : x = _); refine (fun (hx : Device.Sound x) => ?_) ?_; rotate_left; refine sound_of_eq hv ?_; clear hv x; rotate_left; clear hv)
    | (extract_lets -underBinder +onlyGivenNames x; clear_value (hv : x = _); refine (fun (hb : (Barrier.chans x).length = 16) => ?_) ?_; rotate_left; rw [hv]; clear hv x; rotate_left; clear hv)
    | (extract_lets -underBinder +onlyGivenNames x; clear_value (hv : x = _); refine (fun (hb : (Front.chans x).length = 32) => ?_) ?_; rotate_left; rw [hv]; clear hv x; rotate_left; clear hv)
    | (extract_lets -underBinder +onlyGivenNames x; clear_value (hv : x = _); refine (fun (hb : List.length (α := Chan) x = 16) => ?_) ?_; rotate_left; rw [hv]; clear hv x; rotate_left; clear hv)
    | (extract_lets -underBinder +onlyGivenNames x; clear_value x) | with_reducible apply Device.wr_sound
    | with_reducible apply State.run_keeps | intro _ | with_reducible apply ite_sound | split
    | (with_reducible dsimp only) | (refine Device.Sound.mk ?_ ?_ ?_ ?_ ?_ ?_ ?_ <;> with_reducible dsimp only)
    | with_reducible apply Device.Sound.wf | with_reducible apply Device.Sound.poles
    | with_reducible apply Device.Sound.arms | with_reducible apply Device.Sound.lanes
    | with_reducible apply Device.Sound.tasks | with_reducible apply Device.Sound.chans
    | with_reducible apply Device.Sound.convs | rw [List.length_set] | rw [List.length_map] | rw [numbered_length]
    | simp only [List.length_cons, List.length_nil] | simp only [Barrier.downWith]

end Sys2Proof.Machine
end

