-- ==== Sys2Proof/Laws/SoundEntryRules.lean ====
section
/-! SUPPORT. Every operation of Machine/EntryRules.lean keeps a sound device sound; every command of it completes and
leaves the queue alone. -/
namespace Sys2Proof.Machine

set_option linter.all false
set_option Elab.async false

theorem Device.deriveEntry_sound (d : Device) (idx : Nat) (sub : Nat) (hd : Device.Sound d) :
    Device.Sound (Device.deriveEntry d idx sub) := by
  unfold Device.deriveEntry
  repeat' first
    | with_reducible assumption | (extract_lets -underBinder +onlyGivenNames x; clear_value x)
    | with_reducible apply Device.wr_sound | with_reducible apply ite_sound | split | (with_reducible dsimp only)

theorem Device.deriveArm_sound (d : Device) (x1 : Nat) (hd : Device.Sound d) :
    Device.Sound (Device.deriveArm d x1) := by
  unfold Device.deriveArm
  repeat' first
    | with_reducible assumption
    | (extract_lets -underBinder +onlyGivenNames x; clear_value (hv : x = _); refine (fun (hx : Device.Sound x) => ?_) ?_; rotate_left; refine sound_of_eq hv ?_; clear hv x; rotate_left; clear hv)
    | (extract_lets -underBinder +onlyGivenNames x; clear_value x) | with_reducible apply Device.deriveEntry_sound
    | with_reducible apply foldl_sound | intro _ | (with_reducible dsimp only)

end Sys2Proof.Machine
end

