-- ==== Sys2Proof/Laws/SoundConfigStore.lean ====
section
/-! SUPPORT. Every operation of Machine/ConfigStore.lean keeps a sound device sound; every command of it completes and
leaves the queue alone. -/
namespace Sys2Proof.Machine

set_option linter.all false
set_option Elab.async false

theorem Device.modBoot_sound (d : Device) (f : Boot → Boot) (hd : Device.Sound d) :
    Device.Sound (Device.modBoot d f) := by
  unfold Device.modBoot
  repeat' first
    | with_reducible assumption | (with_reducible dsimp only)
    | (refine Device.Sound.mk ?_ ?_ ?_ ?_ ?_ ?_ ?_ <;> with_reducible dsimp only) | with_reducible apply Device.Sound.wf
    | with_reducible apply Device.Sound.poles | with_reducible apply Device.Sound.arms
    | with_reducible apply Device.Sound.lanes | with_reducible apply Device.Sound.tasks
    | with_reducible apply Device.Sound.chans | with_reducible apply Device.Sound.convs | rw [List.length_set]
    | rw [List.length_map] | rw [numbered_length] | simp only [List.length_cons, List.length_nil]
    | simp only [Barrier.downWith]

theorem Device.modAct_sound (d : Device) (f : Activation → Activation) (hd : Device.Sound d) :
    Device.Sound (Device.modAct d f) := by
  unfold Device.modAct
  repeat' first
    | with_reducible assumption | with_reducible apply Device.modBoot_sound

theorem Device.storeRefuse_sound (d : Device) (result : Nat) (reason : Nat) (hd : Device.Sound d) :
    Device.Sound (Device.storeRefuse d result reason) := by
  unfold Device.storeRefuse
  repeat' first
    | with_reducible assumption | with_reducible apply Device.abort_sound | with_reducible apply Device.wr_sound
    | with_reducible apply ite_sound | split | (with_reducible dsimp only)

theorem Device.activate_sound (d : Device) (fw : Bool) (rollback : Bool) (ok : Bool) (target : Nat) (hd : Device.Sound d) :
    Device.Sound (Device.activate d fw rollback ok target) := by
  unfold Device.activate
  repeat' first
    | with_reducible assumption
    | (extract_lets -underBinder +onlyGivenNames x; clear_value (hv : x = _); refine (fun (hx : Device.Sound x) => ?_) ?_; rotate_left; refine sound_of_eq hv ?_; clear hv x; rotate_left; clear hv)
    | (extract_lets -underBinder +onlyGivenNames x; clear_value x) | with_reducible apply Device.control_sound
    | with_reducible apply Device.modAct_sound | with_reducible apply Device.storeRefuse_sound
    | with_reducible apply Device.wr_sound | with_reducible apply ite_sound | split | (with_reducible dsimp only)

theorem Device.ringCommit_sound (d : Device) (r : CommitRec) (hd : Device.Sound d) :
    Device.Sound (Device.ringCommit d r) := by
  unfold Device.ringCommit
  repeat' first
    | with_reducible assumption | (extract_lets -underBinder +onlyGivenNames x; clear_value x)
    | with_reducible apply Device.modBoot_sound

theorem Device.checkpoint_sound (d : Device) (target : Nat) (hd : Device.Sound d) :
    Device.Sound (Device.checkpoint d target) := by
  unfold Device.checkpoint
  repeat' first
    | with_reducible assumption | with_reducible apply Device.ringCommit_sound | with_reducible apply ite_sound | split
    | (with_reducible dsimp only)

theorem Device.commit_sound (d : Device) (r : CommitRec) (hd : Device.Sound d) :
    Device.Sound (Device.commit d r) := by
  unfold Device.commit
  repeat' first
    | with_reducible assumption
    | (extract_lets -underBinder +onlyGivenNames x; clear_value (hv : x = _); refine (fun (hx : Device.Sound x) => ?_) ?_; rotate_left; refine sound_of_eq hv ?_; clear hv x; rotate_left; clear hv)
    | (extract_lets -underBinder +onlyGivenNames x; clear_value x) | with_reducible apply Device.checkpoint_sound
    | with_reducible apply Device.ringCommit_sound | with_reducible apply ite_sound | split | (with_reducible dsimp only)

theorem Device.activationBoundary_sound (d : Device) (hd : Device.Sound d) :
    Device.Sound (Device.activationBoundary d) := by
  unfold Device.activationBoundary
  repeat' first
    | with_reducible assumption
    | (extract_lets -underBinder +onlyGivenNames x; clear_value (hv : x = _); refine (fun (hx : Device.Sound x) => ?_) ?_; rotate_left; refine sound_of_eq hv ?_; clear hv x; rotate_left; clear hv)
    | (extract_lets -underBinder +onlyGivenNames x; clear_value x) | with_reducible apply Device.bumpEvent_sound
    | with_reducible apply Device.commit_sound | with_reducible apply Device.control_sound
    | with_reducible apply Device.modAct_sound | with_reducible apply Device.wr_sound | with_reducible apply ite_sound
    | split | (with_reducible dsimp only)

theorem Device.setSlot_sound (d : Device) (s : Nat) (st : Nat) (hd : Device.Sound d) :
    Device.Sound (Device.setSlot d s st) := by
  unfold Device.setSlot
  repeat' first
    | with_reducible assumption | with_reducible apply Device.wr_sound | with_reducible apply ite_sound | split
    | (with_reducible dsimp only)

theorem Device.rollConfig_sound (d : Device) (hd : Device.Sound d) :
    Device.Sound (Device.rollConfig d) := by
  unfold Device.rollConfig
  repeat' first
    | with_reducible assumption
    | (extract_lets -underBinder +onlyGivenNames x; clear_value (hv : x = _); refine (fun (hx : Device.Sound x) => ?_) ?_; rotate_left; refine sound_of_eq hv ?_; clear hv x; rotate_left; clear hv)
    | (extract_lets -underBinder +onlyGivenNames x; clear_value x) | with_reducible apply Device.commit_sound
    | with_reducible apply Device.setSlot_sound | with_reducible apply Device.wr_sound | with_reducible apply ite_sound
    | split | (with_reducible dsimp only)

theorem Device.rollFirmware_sound (d : Device) (hd : Device.Sound d) :
    Device.Sound (Device.rollFirmware d) := by
  unfold Device.rollFirmware
  repeat' first
    | with_reducible assumption | (extract_lets -underBinder +onlyGivenNames x; clear_value x)
    | with_reducible apply Device.commit_sound

theorem Device.automaticRollback_sound (d : Device) (hd : Device.Sound d) :
    Device.Sound (Device.automaticRollback d) := by
  unfold Device.automaticRollback
  repeat' first
    | with_reducible assumption
    | (extract_lets -underBinder +onlyGivenNames x; clear_value (hv : x = _); refine (fun (hx : Device.Sound x) => ?_) ?_; rotate_left; refine sound_of_eq hv ?_; clear hv x; rotate_left; clear hv)
    | (extract_lets -underBinder +onlyGivenNames x; clear_value x) | with_reducible apply Device.bumpEvent_sound
    | with_reducible apply Device.flushEvents_sound | with_reducible apply Device.plantReset_sound
    | with_reducible apply Device.rollConfig_sound | with_reducible apply Device.rollFirmware_sound
    | with_reducible apply ite_sound | split | (with_reducible dsimp only)

theorem Device.putImage_sound (d : Device) (i : Nat) (im : FwImage) (hd : Device.Sound d) :
    Device.Sound (Device.putImage d i im) := by
  unfold Device.putImage
  repeat' first
    | with_reducible assumption | with_reducible apply Device.modBoot_sound | with_reducible apply Device.wr_sound

theorem Device.putSlot_sound (d : Device) (s : Nat) (st : Nat) (im : List Nat) (hd : Device.Sound d) :
    Device.Sound (Device.putSlot d s st im) := by
  unfold Device.putSlot
  repeat' first
    | with_reducible assumption
    | (extract_lets -underBinder +onlyGivenNames x; clear_value (hv : x = _); refine (fun (hx : Device.Sound x) => ?_) ?_; rotate_left; refine sound_of_eq hv ?_; clear hv x; rotate_left; clear hv)
    | (extract_lets -underBinder +onlyGivenNames x; clear_value x) | with_reducible apply Device.modBoot_sound
    | with_reducible apply Device.setSlot_sound | with_reducible apply Device.wr_sound

theorem Device.slotsSwitched_sound (d : Device) (t : Nat) (rollback : Bool) (hd : Device.Sound d) :
    Device.Sound (Device.slotsSwitched d t rollback) := by
  unfold Device.slotsSwitched
  repeat' first
    | with_reducible assumption
    | (extract_lets -underBinder +onlyGivenNames x; clear_value (hv : x = _); refine (fun (hx : Device.Sound x) => ?_) ?_; rotate_left; refine sound_of_eq hv ?_; clear hv x; rotate_left; clear hv)
    | (extract_lets -underBinder +onlyGivenNames x; clear_value x) | with_reducible apply Device.setSlot_sound
    | with_reducible apply Device.wr_sound | with_reducible apply ite_sound | split | (with_reducible dsimp only)

theorem Device.storeCommand_sound (d : Device) (code : Nat) (f : Device → Device) (hd : Device.Sound d) (hf : ∀ y0, Device.Sound y0 → Device.Sound (f y0)) :
    Device.Sound (Device.storeCommand d code f) := by
  unfold Device.storeCommand
  repeat' first
    | with_reducible assumption | with_reducible apply Device.sdo_sound | with_reducible apply hf | intro _

theorem execAbandon_keeps (s : State) :
    Keeps s (execAbandon s) := by
  unfold execAbandon
  refine State.run_keeps fun d hd => ?_
  repeat' first
    | with_reducible assumption | with_reducible apply Device.modAct_sound
    | with_reducible apply Device.storeCommand_sound | with_reducible apply Device.storeRefuse_sound
    | with_reducible apply Device.wr_sound | with_reducible apply State.run_keeps | intro _
    | with_reducible apply ite_sound | split | (with_reducible dsimp only)

theorem execActAbandon_keeps (s : State) :
    Keeps s (execActAbandon s) := by
  unfold execActAbandon
  refine State.run_keeps fun d hd => ?_
  repeat' first
    | with_reducible assumption | with_reducible apply Device.modAct_sound | with_reducible apply State.run_keeps
    | intro _ | with_reducible apply ite_sound | split | (with_reducible dsimp only)

theorem execActCommitted_keeps (s : State) :
    Keeps s (execActCommitted s) := by
  unfold execActCommitted
  refine State.run_keeps fun d hd => ?_
  repeat' first
    | with_reducible assumption | with_reducible apply Device.modAct_sound | with_reducible apply State.run_keeps
    | intro _ | with_reducible apply ite_sound | split | (with_reducible dsimp only)

theorem execActPropose_keeps (kind : Nat) (version : Nat) (crc : Nat) (x3 : Nat) (s : State) :
    Keeps s (execActPropose kind version crc x3 s) := by
  unfold execActPropose
  refine State.run_keeps fun d hd => ?_
  repeat' first
    | with_reducible assumption
    | (extract_lets -underBinder +onlyGivenNames x; clear_value (hv : x = _); refine (fun (hx : Device.Sound x) => ?_) ?_; rotate_left; refine sound_of_eq hv ?_; clear hv x; rotate_left; clear hv)
    | (extract_lets -underBinder +onlyGivenNames x; clear_value x) | with_reducible apply Device.control_sound
    | with_reducible apply Device.modAct_sound | with_reducible apply Device.wr_sound
    | with_reducible apply State.run_keeps | intro _ | with_reducible apply ite_sound | split
    | (with_reducible dsimp only)

theorem execActReady_keeps (s : State) :
    Keeps s (execActReady s) := by
  unfold execActReady
  refine State.run_keeps fun d hd => ?_
  repeat' first
    | with_reducible assumption | with_reducible apply Device.modAct_sound | with_reducible apply Device.wr_sound
    | with_reducible apply State.run_keeps | intro _ | with_reducible apply ite_sound | split
    | (with_reducible dsimp only)

theorem execActRefuse_keeps (s : State) :
    Keeps s (execActRefuse s) := by
  unfold execActRefuse
  refine State.run_keeps fun d hd => ?_
  repeat' first
    | with_reducible assumption
    | (extract_lets -underBinder +onlyGivenNames x; clear_value (hv : x = _); refine (fun (hx : Device.Sound x) => ?_) ?_; rotate_left; refine sound_of_eq hv ?_; clear hv x; rotate_left; clear hv)
    | (extract_lets -underBinder +onlyGivenNames x; clear_value x) | with_reducible apply Device.modAct_sound
    | with_reducible apply Device.wr_sound | with_reducible apply State.run_keeps | intro _
    | with_reducible apply ite_sound | split | (with_reducible dsimp only)

theorem execActivate_keeps (s : State) :
    Keeps s (execActivate s) := by
  unfold execActivate
  refine State.run_keeps fun d hd => ?_
  repeat' first
    | with_reducible assumption | (extract_lets -underBinder +onlyGivenNames x; clear_value x)
    | with_reducible apply Device.activate_sound | with_reducible apply Device.storeCommand_sound
    | with_reducible apply State.run_keeps | intro _

theorem execActivateFirmware_keeps (s : State) :
    Keeps s (execActivateFirmware s) := by
  unfold execActivateFirmware
  refine State.run_keeps fun d hd => ?_
  repeat' first
    | with_reducible assumption | (extract_lets -underBinder +onlyGivenNames x; clear_value x)
    | with_reducible apply Device.activate_sound | with_reducible apply Device.storeCommand_sound
    | with_reducible apply State.run_keeps | intro _

theorem execCommitRecord_keeps (s : State) :
    Keeps s (execCommitRecord s) := by
  unfold execCommitRecord
  refine State.run_keeps fun d hd => ?_
  repeat' first
    | with_reducible assumption
    | (extract_lets -underBinder +onlyGivenNames x; clear_value (hv : x = _); refine (fun (hx : Device.Sound x) => ?_) ?_; rotate_left; refine sound_of_eq hv ?_; clear hv x; rotate_left; clear hv)
    | (extract_lets -underBinder +onlyGivenNames x; clear_value x) | with_reducible apply Device.commit_sound
    | with_reducible apply Device.control_sound | with_reducible apply Device.modAct_sound
    | with_reducible apply Device.wr_sound | with_reducible apply State.run_keeps | intro _
    | with_reducible apply ite_sound | split | (with_reducible dsimp only)

theorem execCommittedDeadline_keeps (s : State) :
    Keeps s (execCommittedDeadline s) := by
  unfold execCommittedDeadline
  refine State.run_keeps fun d hd => ?_
  repeat' first
    | with_reducible assumption | with_reducible apply Device.modAct_sound | with_reducible apply State.run_keeps
    | intro _ | with_reducible apply ite_sound | split | (with_reducible dsimp only)

theorem execConfigAdoption_keeps (s : State) :
    Keeps s (execConfigAdoption s) := by
  unfold execConfigAdoption
  refine State.run_keeps fun d hd => ?_
  repeat' first
    | with_reducible assumption
    | (extract_lets -underBinder +onlyGivenNames x; clear_value (hv : x = _); refine (fun (hx : Device.Sound x) => ?_) ?_; rotate_left; refine sound_of_eq hv ?_; clear hv x; rotate_left; clear hv)
    | (extract_lets -underBinder +onlyGivenNames x; clear_value x) | with_reducible apply Device.modAct_sound
    | with_reducible apply Device.wr_sound | with_reducible apply State.run_keeps | intro _
    | with_reducible apply ite_sound | split | (with_reducible dsimp only)

theorem execErase_keeps (s : State) :
    Keeps s (execErase s) := by
  unfold execErase
  refine State.run_keeps fun d hd => ?_
  repeat' first
    | with_reducible assumption | (extract_lets -underBinder +onlyGivenNames x; clear_value x)
    | with_reducible apply Device.putSlot_sound | with_reducible apply Device.storeCommand_sound
    | with_reducible apply Device.storeRefuse_sound | with_reducible apply Device.wr_sound
    | with_reducible apply State.run_keeps | intro _ | with_reducible apply ite_sound | split
    | (with_reducible dsimp only)

theorem execFlashRefresh_keeps (failed : Nat) (s : State) :
    Keeps s (execFlashRefresh failed s) := by
  unfold execFlashRefresh
  refine State.run_keeps fun d hd => ?_
  repeat' first
    | with_reducible assumption | with_reducible apply Device.modBoot_sound | with_reducible apply Device.stEvent_sound
    | with_reducible apply State.run_keeps | with_reducible apply foldl_sound | intro _ | with_reducible apply ite_sound
    | split | (with_reducible dsimp only)

theorem execFoeConfigComplete_keeps (slot : Nat) (im : List Nat) (s : State) :
    Keeps s (execFoeConfigComplete slot im s) := by
  unfold execFoeConfigComplete
  refine State.run_keeps fun d hd => ?_
  repeat' first
    | with_reducible assumption
    | (extract_lets -underBinder +onlyGivenNames x; clear_value (hv : x = _); refine (fun (hx : Device.Sound x) => ?_) ?_; rotate_left; refine sound_of_eq hv ?_; clear hv x; rotate_left; clear hv)
    | (extract_lets -underBinder +onlyGivenNames x; clear_value x) | with_reducible apply Device.foeError_sound
    | with_reducible apply Device.modBoot_sound | with_reducible apply Device.putSlot_sound
    | with_reducible apply State.run_keeps | intro _ | with_reducible apply ite_sound | split
    | (with_reducible dsimp only)

theorem execFoeFirmwareComplete_keeps (version : Nat) (crc : Nat) (meter : Nat) (sigOk : Bool) (productOk : Bool) (s : State) :
    Keeps s (execFoeFirmwareComplete version crc meter sigOk productOk s) := by
  unfold execFoeFirmwareComplete
  refine State.run_keeps fun d hd => ?_
  repeat' first
    | with_reducible assumption
    | (extract_lets -underBinder +onlyGivenNames x; clear_value (hv : x = _); refine (fun (hx : Device.Sound x) => ?_) ?_; rotate_left; refine sound_of_eq hv ?_; clear hv x; rotate_left; clear hv)
    | (extract_lets -underBinder +onlyGivenNames x; clear_value x) | with_reducible apply Device.modBoot_sound
    | with_reducible apply Device.putImage_sound | with_reducible apply Device.stEvent_sound
    | with_reducible apply State.run_keeps | intro _ | with_reducible apply ite_sound | split
    | (with_reducible dsimp only)

theorem execFoeWriteSegment_keeps (file : Nat) (password : Nat) (s : State) :
    Keeps s (execFoeWriteSegment file password s) := by
  unfold execFoeWriteSegment
  refine State.run_keeps fun d hd => ?_
  repeat' first
    | with_reducible assumption | (extract_lets -underBinder +onlyGivenNames x; clear_value x)
    | with_reducible apply Device.foeError_sound | with_reducible apply Device.foeFile_sound
    | with_reducible apply Device.modBoot_sound | with_reducible apply Device.putImage_sound
    | with_reducible apply Device.putSlot_sound | with_reducible apply State.run_keeps | intro _
    | with_reducible apply ite_sound | split | (with_reducible dsimp only)

theorem execRollback_keeps (s : State) :
    Keeps s (execRollback s) := by
  unfold execRollback
  refine State.run_keeps fun d hd => ?_
  repeat' first
    | with_reducible assumption | (extract_lets -underBinder +onlyGivenNames x; clear_value x)
    | with_reducible apply Device.activate_sound | with_reducible apply Device.storeCommand_sound
    | with_reducible apply State.run_keeps | intro _

theorem execShadowLoad_keeps (s : State) :
    Keeps s (execShadowLoad s) := by
  unfold execShadowLoad
  refine State.run_keeps fun d hd => ?_
  repeat' first
    | with_reducible assumption | (extract_lets -underBinder +onlyGivenNames x; clear_value x)
    | with_reducible apply Device.modAct_sound | with_reducible apply Device.wr_sound
    | with_reducible apply State.run_keeps | intro _ | with_reducible apply ite_sound | split
    | (with_reducible dsimp only)

theorem execValidate_keeps (s : State) :
    Keeps s (execValidate s) := by
  unfold execValidate
  refine State.run_keeps fun d hd => ?_
  repeat' first
    | with_reducible assumption | (extract_lets -underBinder +onlyGivenNames x; clear_value x)
    | with_reducible apply Device.modBoot_sound | with_reducible apply Device.storeCommand_sound
    | with_reducible apply Device.storeRefuse_sound | with_reducible apply Device.wr_sound
    | with_reducible apply State.run_keeps | intro _ | with_reducible apply ite_sound | split
    | (with_reducible dsimp only)

theorem execValidationComplete_keeps (s : State) :
    Keeps s (execValidationComplete s) := by
  unfold execValidationComplete
  refine State.run_keeps fun d hd => ?_
  repeat' first
    | with_reducible assumption
    | (extract_lets -underBinder +onlyGivenNames x; clear_value (hv : x = _); refine (fun (hx : Device.Sound x) => ?_) ?_; rotate_left; refine sound_of_eq hv ?_; clear hv x; rotate_left; clear hv)
    | (extract_lets -underBinder +onlyGivenNames x; clear_value x) | with_reducible apply Device.modBoot_sound
    | with_reducible apply Device.setSlot_sound | with_reducible apply Device.wr_sound
    | with_reducible apply State.run_keeps | intro _ | with_reducible apply ite_sound | split
    | (with_reducible dsimp only)

end Sys2Proof.Machine
end

