-- ==== Sys2Proof/Laws/SoundEngine.lean ====
section
/-! SUPPORT. Every operation of Machine/Engine.lean keeps a sound device sound; every command of it completes and
leaves the queue alone. -/
namespace Sys2Proof.Machine

set_option linter.all false
set_option Elab.async false

theorem Device.armFault_sound (d : Device) (x1 : Nat) (cause : Nat) (debt : Int) (nav : Nat) (hd : Device.Sound d) :
    Device.Sound (Device.armFault d x1 cause debt nav) := by
  unfold Device.armFault
  repeat' first
    | with_reducible assumption
    | (extract_lets -underBinder +onlyGivenNames x; clear_value (hv : x = _); refine (fun (hx : Device.Sound x) => ?_) ?_; rotate_left; refine sound_of_eq hv ?_; clear hv x; rotate_left; clear hv)
    | (extract_lets -underBinder +onlyGivenNames x; clear_value x) | with_reducible apply Device.event_sound
    | with_reducible apply Device.modArm_sound | with_reducible apply Device.noteTrigger_sound
    | with_reducible apply Device.tripPole_sound | with_reducible apply Device.wr_sound | with_reducible apply ite_sound
    | split | (with_reducible dsimp only)

theorem engineStore_sound (d : Device) (x1 : Nat) (hd : Device.Sound d) :
    Device.Sound (engineStore d x1) := by
  unfold engineStore
  repeat' first
    | with_reducible assumption
    | (extract_lets -underBinder +onlyGivenNames x; clear_value (hv : x = _); refine (fun (hx : Device.Sound x) => ?_) ?_; rotate_left; refine sound_of_eq hv ?_; clear hv x; rotate_left; clear hv)
    | (extract_lets -underBinder +onlyGivenNames x; clear_value (hv : x = _); refine (fun (hf : ∀ y : Device, Device.Sound y → Device.Sound (x y)) => ?_) ?_; rotate_left; refine sound_of_eq_fun hv ?_; clear hv x; rotate_left; clear hv)
    | (extract_lets -underBinder +onlyGivenNames x; clear_value (hv : x = _); refine (fun (hf : ∀ (y : Device) (z : _), Device.Sound y → Device.Sound (x y z)) => ?_) ?_; rotate_left; refine sound_of_eq_fun₂ hv ?_; clear hv x; rotate_left; clear hv)
    | (extract_lets -underBinder +onlyGivenNames x; clear_value (hv : x = _); refine (fun (hf : ∀ (y : Device) (z : _) (w : _), Device.Sound y → Device.Sound (x y z w)) => ?_) ?_; rotate_left; refine sound_of_eq_fun₃ hv ?_; clear hv x; rotate_left; clear hv)
    | (extract_lets -underBinder +onlyGivenNames x; clear_value x) | with_reducible apply Device.armFault_sound
    | with_reducible apply Device.modArm_sound | with_reducible apply hf | intro _ | with_reducible apply ite_sound
    | split | (with_reducible dsimp only)

theorem Device.controlEngine_sound (d : Device) (hd : Device.Sound d) :
    Device.Sound (Device.controlEngine d) := by
  unfold Device.controlEngine
  repeat' first
    | with_reducible assumption | with_reducible apply engineStore_sound | with_reducible apply foldl_sound
    | with_reducible apply odWf_odPut | with_reducible apply odWf_puts | with_reducible apply odWf_filter
    | with_reducible exact Device.reset_sound | intro _ | (with_reducible dsimp only)
    | (refine Device.Sound.mk ?_ ?_ ?_ ?_ ?_ ?_ ?_ <;> with_reducible dsimp only) | with_reducible apply Device.Sound.wf
    | with_reducible apply Device.Sound.poles | with_reducible apply Device.Sound.arms
    | with_reducible apply Device.Sound.lanes | with_reducible apply Device.Sound.tasks
    | with_reducible apply Device.Sound.chans | with_reducible apply Device.Sound.convs | rw [List.length_set]
    | rw [List.length_map] | rw [numbered_length] | simp only [List.length_cons, List.length_nil]
    | simp only [Barrier.downWith]

theorem Device.learn_sound (d : Device) (x1 : Nat) (o : EngOut) (t : Nat) (hd : Device.Sound d) :
    Device.Sound (Device.learn d x1 o t) := by
  unfold Device.learn
  repeat' first
    | with_reducible assumption | (extract_lets -underBinder +onlyGivenNames x; clear_value x)
    | with_reducible apply Device.bump_sound | with_reducible apply Device.deriveEntry_sound
    | with_reducible apply Device.wr_sound | with_reducible apply ite_sound | split | (with_reducible dsimp only)

theorem Device.engineCommit_sound (d : Device) (x1 : Nat) (o : EngOut) (hd : Device.Sound d) :
    Device.Sound (Device.engineCommit d x1 o) := by
  unfold Device.engineCommit
  repeat' first
    | with_reducible assumption
    | (extract_lets -underBinder +onlyGivenNames x; clear_value (hv : x = _); refine (fun (hx : Device.Sound x) => ?_) ?_; rotate_left; refine sound_of_eq hv ?_; clear hv x; rotate_left; clear hv)
    | (extract_lets -underBinder +onlyGivenNames x; clear_value (hv : x = _); refine (fun (hf : ∀ y : Device, Device.Sound y → Device.Sound (x y)) => ?_) ?_; rotate_left; refine sound_of_eq_fun hv ?_; clear hv x; rotate_left; clear hv)
    | (extract_lets -underBinder +onlyGivenNames x; clear_value (hv : x = _); refine (fun (hf : ∀ (y : Device) (z : _), Device.Sound y → Device.Sound (x y z)) => ?_) ?_; rotate_left; refine sound_of_eq_fun₂ hv ?_; clear hv x; rotate_left; clear hv)
    | (extract_lets -underBinder +onlyGivenNames x; clear_value (hv : x = _); refine (fun (hf : ∀ (y : Device) (z : _) (w : _), Device.Sound y → Device.Sound (x y z w)) => ?_) ?_; rotate_left; refine sound_of_eq_fun₃ hv ?_; clear hv x; rotate_left; clear hv)
    | (extract_lets -underBinder +onlyGivenNames x; clear_value x) | with_reducible apply Device.bump_sound
    | with_reducible apply Device.learn_sound | with_reducible apply Device.modArm_sound
    | with_reducible apply Device.wr_sound | with_reducible apply Device.wrF_sound
    | with_reducible apply Device.wrI_sound | with_reducible apply hf | with_reducible apply foldl_sound | intro _
    | with_reducible apply ite_sound | split | (with_reducible dsimp only)

theorem Device.legCommit_sound (d : Device) (x1 : Nat) (o : EngOut) (hd : Device.Sound d) :
    Device.Sound (Device.legCommit d x1 o) := by
  unfold Device.legCommit
  repeat' first
    | with_reducible assumption
    | (extract_lets -underBinder +onlyGivenNames x; clear_value (hv : x = _); refine (fun (hx : Device.Sound x) => ?_) ?_; rotate_left; refine sound_of_eq hv ?_; clear hv x; rotate_left; clear hv)
    | (extract_lets -underBinder +onlyGivenNames x; clear_value (hv : x = _); refine (fun (hf : ∀ y : Device, Device.Sound y → Device.Sound (x y)) => ?_) ?_; rotate_left; refine sound_of_eq_fun hv ?_; clear hv x; rotate_left; clear hv)
    | (extract_lets -underBinder +onlyGivenNames x; clear_value (hv : x = _); refine (fun (hf : ∀ (y : Device) (z : _), Device.Sound y → Device.Sound (x y z)) => ?_) ?_; rotate_left; refine sound_of_eq_fun₂ hv ?_; clear hv x; rotate_left; clear hv)
    | (extract_lets -underBinder +onlyGivenNames x; clear_value (hv : x = _); refine (fun (hf : ∀ (y : Device) (z : _) (w : _), Device.Sound y → Device.Sound (x y z w)) => ?_) ?_; rotate_left; refine sound_of_eq_fun₃ hv ?_; clear hv x; rotate_left; clear hv)
    | (extract_lets -underBinder +onlyGivenNames x; clear_value x) | with_reducible apply Device.modArm_sound
    | with_reducible apply Device.wrF_sound | with_reducible apply hf | intro _ | (with_reducible dsimp only)

theorem Device.modLane_sound (d : Device) (l : Nat) (f : Lane → Lane) (hd : Device.Sound d) :
    Device.Sound (Device.modLane d l f) := by
  unfold Device.modLane
  repeat' first
    | with_reducible assumption | (with_reducible dsimp only)
    | (refine Device.Sound.mk ?_ ?_ ?_ ?_ ?_ ?_ ?_ <;> with_reducible dsimp only) | with_reducible apply Device.Sound.wf
    | with_reducible apply Device.Sound.poles | with_reducible apply Device.Sound.arms
    | with_reducible apply Device.Sound.lanes | with_reducible apply Device.Sound.tasks
    | with_reducible apply Device.Sound.chans | with_reducible apply Device.Sound.convs | rw [List.length_set]
    | rw [List.length_map] | rw [numbered_length] | simp only [List.length_cons, List.length_nil]
    | simp only [Barrier.downWith]

end Sys2Proof.Machine
end

