-- ==== Sys2Proof/Laws/SoundTwin.lean ====
section
/-! SUPPORT. Every operation of Machine/Twin.lean keeps a sound device sound; every command of it completes and
leaves the queue alone. -/
namespace Sys2Proof.Machine

set_option linter.all false
set_option Elab.async false

theorem Device.modTwin_sound (d : Device) (f : Twin → Twin) (hd : Device.Sound d) :
    Device.Sound (Device.modTwin d f) := by
  unfold Device.modTwin
  repeat' first
    | with_reducible assumption | (with_reducible dsimp only)
    | (refine Device.Sound.mk ?_ ?_ ?_ ?_ ?_ ?_ ?_ <;> with_reducible dsimp only) | with_reducible apply Device.Sound.wf
    | with_reducible apply Device.Sound.poles | with_reducible apply Device.Sound.arms
    | with_reducible apply Device.Sound.lanes | with_reducible apply Device.Sound.tasks
    | with_reducible apply Device.Sound.chans | with_reducible apply Device.Sound.convs | rw [List.length_set]
    | rw [List.length_map] | rw [numbered_length] | simp only [List.length_cons, List.length_nil]
    | simp only [Barrier.downWith]

theorem Device.dropCastling_sound (d : Device) (hd : Device.Sound d) :
    Device.Sound (Device.dropCastling d) := by
  unfold Device.dropCastling
  repeat' first
    | with_reducible assumption | with_reducible apply Device.modTwin_sound | with_reducible apply Device.wr_sound
    | with_reducible apply Device.wrBit_sound

theorem Device.abandonCastling_sound (d : Device) (tell : Bool) (hd : Device.Sound d) :
    Device.Sound (Device.abandonCastling d tell) := by
  unfold Device.abandonCastling
  repeat' first
    | with_reducible assumption
    | (extract_lets -underBinder +onlyGivenNames x; clear_value (hv : x = _); refine (fun (hx : Device.Sound x) => ?_) ?_; rotate_left; refine sound_of_eq hv ?_; clear hv x; rotate_left; clear hv)
    | (extract_lets -underBinder +onlyGivenNames x; clear_value x) | with_reducible apply Device.control_sound
    | with_reducible apply Device.dropCastling_sound | with_reducible apply Device.event_sound
    | with_reducible apply ite_sound | split | (with_reducible dsimp only)

theorem Device.arbiterBad_sound (d : Device) (hd : Device.Sound d) :
    Device.Sound (Device.arbiterBad d) := by
  unfold Device.arbiterBad
  repeat' first
    | with_reducible assumption | with_reducible apply Device.bump_sound

theorem Device.modLease_sound (d : Device) (f : Lease → Lease) (hd : Device.Sound d) :
    Device.Sound (Device.modLease d f) := by
  unfold Device.modLease
  repeat' first
    | with_reducible assumption | (with_reducible dsimp only)
    | (refine Device.Sound.mk ?_ ?_ ?_ ?_ ?_ ?_ ?_ <;> with_reducible dsimp only) | with_reducible apply Device.Sound.wf
    | with_reducible apply Device.Sound.poles | with_reducible apply Device.Sound.arms
    | with_reducible apply Device.Sound.lanes | with_reducible apply Device.Sound.tasks
    | with_reducible apply Device.Sound.chans | with_reducible apply Device.Sound.convs | rw [List.length_set]
    | rw [List.length_map] | rw [numbered_length] | simp only [List.length_cons, List.length_nil]
    | simp only [Barrier.downWith]

theorem Device.arbiterUp_sound (d : Device) (hd : Device.Sound d) :
    Device.Sound (Device.arbiterUp d) := by
  unfold Device.arbiterUp
  repeat' first
    | with_reducible assumption | with_reducible apply Device.modLease_sound | with_reducible apply Device.wr_sound

theorem Device.askResync_sound (d : Device) (hd : Device.Sound d) :
    Device.Sound (Device.askResync d) := by
  unfold Device.askResync
  repeat' first
    | with_reducible assumption | with_reducible apply Device.control_sound | with_reducible apply Device.modTwin_sound
    | with_reducible apply ite_sound | split | (with_reducible dsimp only)

theorem Device.castleRecheck_sound (d : Device) (hd : Device.Sound d) :
    Device.Sound (Device.castleRecheck d) := by
  unfold Device.castleRecheck
  repeat' first
    | with_reducible assumption | (extract_lets -underBinder +onlyGivenNames x; clear_value x)
    | with_reducible apply Device.abandonCastling_sound | with_reducible apply ite_sound | split
    | (with_reducible dsimp only)

theorem Device.disputeStep_sound (d : Device) (b : Nat) (seen : Bool) (confirm : Nat) (hd : Device.Sound d) :
    Device.Sound (Device.disputeStep d b seen confirm) := by
  unfold Device.disputeStep
  repeat' first
    | with_reducible assumption
    | (extract_lets -underBinder +onlyGivenNames x; clear_value (hv : x = _); refine (fun (hx : Device.Sound x) => ?_) ?_; rotate_left; refine sound_of_eq hv ?_; clear hv x; rotate_left; clear hv)
    | (extract_lets -underBinder +onlyGivenNames x; clear_value x) | with_reducible apply Device.bumpEvent_sound
    | with_reducible apply Device.modTwin_sound | with_reducible apply Device.wrBit_sound
    | with_reducible apply ite_sound | split | (with_reducible dsimp only)

theorem Device.dropRequest_sound (d : Device) (hd : Device.Sound d) :
    Device.Sound (Device.dropRequest d) := by
  unfold Device.dropRequest
  repeat' first
    | with_reducible assumption | with_reducible apply Device.modTwin_sound | with_reducible apply ite_sound | split
    | (with_reducible dsimp only)

theorem Device.flagFall_sound (d : Device) (hd : Device.Sound d) :
    Device.Sound (Device.flagFall d) := by
  unfold Device.flagFall
  repeat' first
    | with_reducible assumption
    | (extract_lets -underBinder +onlyGivenNames x; clear_value (hv : x = _); refine (fun (hx : Device.Sound x) => ?_) ?_; rotate_left; refine sound_of_eq hv ?_; clear hv x; rotate_left; clear hv)
    | (extract_lets -underBinder +onlyGivenNames x; clear_value x) | with_reducible apply Device.bump_sound
    | with_reducible apply Device.control_sound | with_reducible apply Device.leaseFell_sound
    | with_reducible apply Device.modLease_sound | with_reducible apply Device.modTwin_sound
    | with_reducible apply Device.showBreakers_sound | with_reducible apply Device.showRole_sound
    | with_reducible apply Device.wr_sound | with_reducible apply ite_sound | split | (with_reducible dsimp only)

theorem Device.forgetResync_sound (d : Device) (hd : Device.Sound d) :
    Device.Sound (Device.forgetResync d) := by
  unfold Device.forgetResync
  repeat' first
    | with_reducible assumption | with_reducible apply Device.modTwin_sound

theorem Device.resyncFail_sound (d : Device) (hd : Device.Sound d) :
    Device.Sound (Device.resyncFail d) := by
  unfold Device.resyncFail
  repeat' first
    | with_reducible assumption
    | (extract_lets -underBinder +onlyGivenNames x; clear_value (hv : x = _); refine (fun (hx : Device.Sound x) => ?_) ?_; rotate_left; refine sound_of_eq hv ?_; clear hv x; rotate_left; clear hv)
    | (extract_lets -underBinder +onlyGivenNames x; clear_value x) | with_reducible apply Device.bump_sound
    | with_reducible apply Device.modTwin_sound | with_reducible apply Device.wr_sound | with_reducible apply ite_sound
    | split | (with_reducible dsimp only)

theorem Device.loseSync_sound (d : Device) (hd : Device.Sound d) :
    Device.Sound (Device.loseSync d) := by
  unfold Device.loseSync
  repeat' first
    | with_reducible assumption | with_reducible apply Device.modTwin_sound
    | with_reducible apply Device.resyncFail_sound | with_reducible apply ite_sound | split | (with_reducible dsimp only)

theorem Device.hashMismatch_sound (d : Device) (hd : Device.Sound d) :
    Device.Sound (Device.hashMismatch d) := by
  unfold Device.hashMismatch
  repeat' first
    | with_reducible assumption | with_reducible apply Device.bump_sound | with_reducible apply Device.loseSync_sound
    | with_reducible apply Device.modTwin_sound

theorem Device.holderSeen_sound (d : Device) (holder : Nat) (age : Nat) (sinceT0 : Nat) (hd : Device.Sound d) :
    Device.Sound (Device.holderSeen d holder age sinceT0) := by
  unfold Device.holderSeen
  repeat' first
    | with_reducible assumption | (extract_lets -underBinder +onlyGivenNames x; clear_value x)
    | with_reducible apply Device.loseSync_sound | with_reducible apply ite_sound | split | (with_reducible dsimp only)

theorem Device.leaveRole_sound (d : Device) (hd : Device.Sound d) :
    Device.Sound (Device.leaveRole d) := by
  unfold Device.leaveRole
  repeat' first
    | with_reducible assumption | with_reducible apply Device.modTwin_sound | with_reducible apply ite_sound | split
    | (with_reducible dsimp only)

theorem Device.recordSeq_sound (d : Device) (rseq : Nat) (single : Bool) (hd : Device.Sound d) :
    Device.Sound (Device.recordSeq d rseq single) := by
  unfold Device.recordSeq
  repeat' first
    | with_reducible assumption
    | (extract_lets -underBinder +onlyGivenNames x; clear_value (hv : x = _); refine (fun (hx : Device.Sound x) => ?_) ?_; rotate_left; refine sound_of_eq hv ?_; clear hv x; rotate_left; clear hv)
    | (extract_lets -underBinder +onlyGivenNames x; clear_value x) | with_reducible apply Device.bump_sound
    | with_reducible apply Device.loseSync_sound | with_reducible apply Device.modTwin_sound
    | with_reducible apply ite_sound | split | (with_reducible dsimp only)

theorem Device.request_sound (d : Device) (prio : Nat) (renew : Bool) (castle : Bool) (hd : Device.Sound d) :
    Device.Sound (Device.request d prio renew castle) := by
  unfold Device.request
  repeat' first
    | with_reducible assumption
    | (extract_lets -underBinder +onlyGivenNames x; clear_value (hv : x = _); refine (fun (hx : Device.Sound x) => ?_) ?_; rotate_left; refine sound_of_eq hv ?_; clear hv x; rotate_left; clear hv)
    | (extract_lets -underBinder +onlyGivenNames x; clear_value x) | with_reducible apply Device.arbSend_sound
    | with_reducible apply Device.modLease_sound

theorem Device.sendTickRecord_sound (d : Device) (snap : List Nat) (lmap : Nat) (ldig : Nat) (hd : Device.Sound d) :
    Device.Sound (Device.sendTickRecord d snap lmap ldig) := by
  unfold Device.sendTickRecord
  repeat' first
    | with_reducible assumption | with_reducible apply Device.modTwin_sound | with_reducible apply ite_sound | split
    | (with_reducible dsimp only)

theorem Device.twinRefuse_sound (d : Device) (result : Nat) (reason : Nat) (hd : Device.Sound d) :
    Device.Sound (Device.twinRefuse d result reason) := by
  unfold Device.twinRefuse
  repeat' first
    | with_reducible assumption | with_reducible apply Device.abort_sound | with_reducible apply Device.wr_sound
    | with_reducible apply ite_sound | split | (with_reducible dsimp only)

theorem Device.twinCommand_sound (d : Device) (code : Nat) (f : Device → Device) (hd : Device.Sound d) (hf : ∀ y0, Device.Sound y0 → Device.Sound (f y0)) :
    Device.Sound (Device.twinCommand d code f) := by
  unfold Device.twinCommand
  repeat' first
    | with_reducible assumption | with_reducible apply Device.sdo_sound | with_reducible apply Device.twinRefuse_sound
    | with_reducible apply hf | intro _ | with_reducible apply ite_sound | split | (with_reducible dsimp only)

theorem Device.unitBoundary_sound (d : Device) (hd : Device.Sound d) :
    Device.Sound (Device.unitBoundary d) := by
  unfold Device.unitBoundary
  repeat' first
    | with_reducible assumption
    | (extract_lets -underBinder +onlyGivenNames x; clear_value (hv : x = _); refine (fun (hx : Device.Sound x) => ?_) ?_; rotate_left; refine sound_of_eq hv ?_; clear hv x; rotate_left; clear hv)
    | (extract_lets -underBinder +onlyGivenNames x; clear_value x) | with_reducible apply Device.bump_sound
    | with_reducible apply Device.dropCastling_sound | with_reducible apply Device.forgetResync_sound
    | with_reducible apply Device.modTwin_sound | with_reducible apply Device.releaseLease_sound
    | with_reducible apply Device.resyncFail_sound | with_reducible apply Device.setUnit_sound
    | with_reducible apply Device.showBreakers_sound | with_reducible apply Device.wr_sound
    | with_reducible apply ite_sound | split | (with_reducible dsimp only)

theorem Device.withdrawIfUnfit_sound (d : Device) (hd : Device.Sound d) :
    Device.Sound (Device.withdrawIfUnfit d) := by
  unfold Device.withdrawIfUnfit
  repeat' first
    | with_reducible assumption | (extract_lets -underBinder +onlyGivenNames x; clear_value x)
    | with_reducible apply Device.leaveRole_sound | with_reducible apply Device.loseSync_sound
    | with_reducible apply ite_sound | split | (with_reducible dsimp only)

theorem execAbandonCastling_keeps (s : State) :
    Keeps s (execAbandonCastling s) := by
  unfold execAbandonCastling
  refine State.run_keeps fun d hd => ?_
  repeat' first
    | with_reducible assumption | with_reducible apply Device.abandonCastling_sound
    | with_reducible apply Device.twinCommand_sound | with_reducible apply Device.twinRefuse_sound
    | with_reducible apply Device.wr_sound | with_reducible apply State.run_keeps | intro _
    | with_reducible apply ite_sound | split | (with_reducible dsimp only)

theorem execAbdicate_keeps (c : Nat) (s : State) :
    Keeps s (execAbdicate c s) := by
  unfold execAbdicate
  refine State.run_keeps fun d hd => ?_
  repeat' first
    | with_reducible assumption | with_reducible apply Device.modTwin_sound | with_reducible apply Device.wr_sound
    | with_reducible apply State.run_keeps | intro _ | with_reducible apply ite_sound | split
    | (with_reducible dsimp only)

theorem execArbiterLinkDown_keeps (s : State) :
    Keeps s (execArbiterLinkDown s) := by
  unfold execArbiterLinkDown
  refine State.run_keeps fun d hd => ?_
  repeat' first
    | with_reducible assumption | with_reducible apply Device.wr_sound | with_reducible apply State.run_keeps | intro _
    | with_reducible apply ite_sound | split | (with_reducible dsimp only)

theorem execBridgingTimeout_keeps (s : State) :
    Keeps s (execBridgingTimeout s) := by
  unfold execBridgingTimeout
  refine State.run_keeps fun d hd => ?_
  repeat' first
    | with_reducible assumption | with_reducible apply Device.loseSync_sound | with_reducible apply State.run_keeps
    | intro _ | with_reducible apply ite_sound | split | (with_reducible dsimp only)

theorem execCastle_keeps (s : State) :
    Keeps s (execCastle s) := by
  unfold execCastle
  refine State.run_keeps fun d hd => ?_
  repeat' first
    | with_reducible assumption
    | (extract_lets -underBinder +onlyGivenNames x; clear_value (hv : x = _); refine (fun (hx : Device.Sound x) => ?_) ?_; rotate_left; refine sound_of_eq hv ?_; clear hv x; rotate_left; clear hv)
    | (extract_lets -underBinder +onlyGivenNames x; clear_value x) | with_reducible apply Device.control_sound
    | with_reducible apply Device.modTwin_sound | with_reducible apply Device.twinCommand_sound
    | with_reducible apply Device.twinRefuse_sound | with_reducible apply Device.wr_sound
    | with_reducible apply Device.wrBit_sound | with_reducible apply State.run_keeps | intro _
    | with_reducible apply ite_sound | split | (with_reducible dsimp only)

theorem execCastleAbandon_keeps (s : State) :
    Keeps s (execCastleAbandon s) := by
  unfold execCastleAbandon
  refine State.run_keeps fun d hd => ?_
  repeat' first
    | with_reducible assumption | with_reducible apply Device.abandonCastling_sound
    | with_reducible apply State.run_keeps | intro _

theorem execCastleAck_keeps (c : Nat) (s : State) :
    Keeps s (execCastleAck c s) := by
  unfold execCastleAck
  refine State.run_keeps fun d hd => ?_
  repeat' first
    | with_reducible assumption | with_reducible apply Device.modTwin_sound | with_reducible apply State.run_keeps
    | intro _ | with_reducible apply ite_sound | split | (with_reducible dsimp only)

theorem execCastlePropose_keeps (c : Nat) (s : State) :
    Keeps s (execCastlePropose c s) := by
  unfold execCastlePropose
  refine State.run_keeps fun d hd => ?_
  repeat' first
    | with_reducible assumption | with_reducible apply Device.control_sound | with_reducible apply Device.modTwin_sound
    | with_reducible apply Device.wr_sound | with_reducible apply Device.wrBit_sound
    | with_reducible apply State.run_keeps | intro _ | with_reducible apply ite_sound | split
    | (with_reducible dsimp only)

theorem execCastlingGrantTimeout_keeps (s : State) :
    Keeps s (execCastlingGrantTimeout s) := by
  unfold execCastlingGrantTimeout
  refine State.run_keeps fun d hd => ?_
  repeat' first
    | with_reducible assumption | with_reducible apply Device.event_sound | with_reducible apply Device.modTwin_sound
    | with_reducible apply Device.wr_sound | with_reducible apply State.run_keeps | intro _
    | with_reducible apply ite_sound | split | (with_reducible dsimp only)

theorem execCastlingTick_keeps (s : State) :
    Keeps s (execCastlingTick s) := by
  unfold execCastlingTick
  refine State.run_keeps fun d hd => ?_
  repeat' first
    | with_reducible assumption
    | (extract_lets -underBinder +onlyGivenNames x; clear_value (hv : x = _); refine (fun (hx : Device.Sound x) => ?_) ?_; rotate_left; refine sound_of_eq hv ?_; clear hv x; rotate_left; clear hv)
    | (extract_lets -underBinder +onlyGivenNames x; clear_value x) | with_reducible apply Device.abandonCastling_sound
    | with_reducible apply Device.dropCastling_sound | with_reducible apply Device.modTwin_sound
    | with_reducible apply Device.releaseLease_sound | with_reducible apply Device.request_sound
    | with_reducible apply Device.setUnit_sound | with_reducible apply State.run_keeps | intro _
    | with_reducible apply ite_sound | split | (with_reducible dsimp only)

theorem execColdStartRequest_keeps (s : State) :
    Keeps s (execColdStartRequest s) := by
  unfold execColdStartRequest
  refine State.run_keeps fun d hd => ?_
  repeat' first
    | with_reducible assumption | with_reducible apply Device.request_sound | with_reducible apply Device.wr_sound
    | with_reducible apply State.run_keeps | intro _ | with_reducible apply ite_sound | split
    | (with_reducible dsimp only)

theorem execDenyReceived_keeps (epoch : Nat) (holder : Nat) (age : Nat) (sinceT0 : Nat) (crcOk : Bool) (s : State) :
    Keeps s (execDenyReceived epoch holder age sinceT0 crcOk s) := by
  unfold execDenyReceived
  refine State.run_keeps fun d hd => ?_
  repeat' first
    | with_reducible assumption | with_reducible apply Device.arbiterBad_sound
    | with_reducible apply Device.arbiterUp_sound | with_reducible apply Device.bump_sound
    | with_reducible apply Device.holderSeen_sound | with_reducible apply Device.learnEpoch_sound
    | with_reducible apply State.run_keeps | intro _ | with_reducible apply ite_sound | split
    | (with_reducible dsimp only)

theorem execDisputeEnd_keeps (s : State) :
    Keeps s (execDisputeEnd s) := by
  unfold execDisputeEnd
  refine State.run_keeps fun d hd => ?_
  repeat' first
    | with_reducible assumption | with_reducible apply Device.event_sound | with_reducible apply Device.wr_sound
    | with_reducible apply Device.wrBit_sound | with_reducible apply State.run_keeps | intro _
    | with_reducible apply ite_sound | split | (with_reducible dsimp only)

theorem execFlagFall_keeps (s : State) :
    Keeps s (execFlagFall s) := by
  unfold execFlagFall
  refine State.run_keeps fun d hd => ?_
  repeat' first
    | with_reducible assumption | with_reducible apply Device.flagFall_sound | with_reducible apply State.run_keeps
    | intro _ | with_reducible apply ite_sound | split | (with_reducible dsimp only)

theorem execGrantReceived_keeps (seq : Nat) (epoch : Nat) (isNew : Bool) (duration : Nat) (since : Nat) (crcOk : Bool) (s : State) :
    Keeps s (execGrantReceived seq epoch isNew duration since crcOk s) := by
  unfold execGrantReceived
  refine State.run_keeps fun d hd => ?_
  repeat' first
    | with_reducible assumption
    | (extract_lets -underBinder +onlyGivenNames x; clear_value (hv : x = _); refine (fun (hx : Device.Sound x) => ?_) ?_; rotate_left; refine sound_of_eq hv ?_; clear hv x; rotate_left; clear hv)
    | (extract_lets -underBinder +onlyGivenNames x; clear_value x) | with_reducible apply Device.arbiterBad_sound
    | with_reducible apply Device.arbiterUp_sound | with_reducible apply Device.bump_sound
    | with_reducible apply Device.learnEpoch_sound | with_reducible apply Device.modLease_sound
    | with_reducible apply Device.modTwin_sound | with_reducible apply Device.showBreakers_sound
    | with_reducible apply Device.showRole_sound | with_reducible apply Device.wr_sound
    | with_reducible apply State.run_keeps | intro _ | with_reducible apply ite_sound | split
    | (with_reducible dsimp only)

theorem execHealthRecord_keeps (rseq : Nat) (body : Nat) (single : Bool) (crcOk : Bool) (s : State) :
    Keeps s (execHealthRecord rseq body single crcOk s) := by
  unfold execHealthRecord
  refine State.run_keeps fun d hd => ?_
  repeat' first
    | with_reducible assumption
    | (extract_lets -underBinder +onlyGivenNames x; clear_value (hv : x = _); refine (fun (hx : Device.Sound x) => ?_) ?_; rotate_left; refine sound_of_eq hv ?_; clear hv x; rotate_left; clear hv)
    | (extract_lets -underBinder +onlyGivenNames x; clear_value (hv : x = _); refine (fun (hb : (Barrier.chans x).length = 16) => ?_) ?_; rotate_left; rw [hv]; clear hv x; rotate_left; clear hv)
    | (extract_lets -underBinder +onlyGivenNames x; clear_value (hv : x = _); refine (fun (hb : (Front.chans x).length = 32) => ?_) ?_; rotate_left; rw [hv]; clear hv x; rotate_left; clear hv)
    | (extract_lets -underBinder +onlyGivenNames x; clear_value (hv : x = _); refine (fun (hb : List.length (α := Chan) x = 16) => ?_) ?_; rotate_left; rw [hv]; clear hv x; rotate_left; clear hv)
    | (extract_lets -underBinder +onlyGivenNames x; clear_value x) | with_reducible apply Device.askResync_sound
    | with_reducible apply Device.disputeStep_sound | with_reducible apply Device.dropRequest_sound
    | with_reducible apply Device.event_sound | with_reducible apply Device.leaveRole_sound
    | with_reducible apply Device.loseSync_sound | with_reducible apply Device.modTwin_sound
    | with_reducible apply Device.recordSeq_sound | with_reducible apply Device.resyncFail_sound
    | with_reducible apply Device.withdrawIfUnfit_sound | with_reducible apply Device.wr_sound
    | with_reducible apply State.run_keeps | intro _ | with_reducible apply ite_sound | split
    | (with_reducible dsimp only) | (refine Device.Sound.mk ?_ ?_ ?_ ?_ ?_ ?_ ?_ <;> with_reducible dsimp only)
    | with_reducible apply Device.Sound.wf | with_reducible apply Device.Sound.poles
    | with_reducible apply Device.Sound.arms | with_reducible apply Device.Sound.lanes
    | with_reducible apply Device.Sound.tasks | with_reducible apply Device.Sound.chans
    | with_reducible apply Device.Sound.convs | rw [List.length_set] | rw [List.length_map] | rw [numbered_length]
    | simp only [List.length_cons, List.length_nil] | simp only [Barrier.downWith]

theorem execHealthRecordSend_keeps (s : State) :
    Keeps s (execHealthRecordSend s) := by
  unfold execHealthRecordSend
  refine State.run_keeps fun d hd => ?_
  repeat' first
    | with_reducible assumption | (extract_lets -underBinder +onlyGivenNames x; clear_value x)
    | with_reducible apply Device.modTwin_sound | with_reducible apply Device.wr_sound
    | with_reducible apply State.run_keeps | intro _ | with_reducible apply ite_sound | split
    | (with_reducible dsimp only)

theorem execLeaseRenewal_keeps (s : State) :
    Keeps s (execLeaseRenewal s) := by
  unfold execLeaseRenewal
  refine State.run_keeps fun d hd => ?_
  repeat' first
    | with_reducible assumption
    | (extract_lets -underBinder +onlyGivenNames x; clear_value (hv : x = _); refine (fun (hx : Device.Sound x) => ?_) ?_; rotate_left; refine sound_of_eq hv ?_; clear hv x; rotate_left; clear hv)
    | (extract_lets -underBinder +onlyGivenNames x; clear_value x) | with_reducible apply Device.arbSend_sound
    | with_reducible apply Device.request_sound | with_reducible apply Device.wr_sound
    | with_reducible apply State.run_keeps | intro _ | with_reducible apply ite_sound | split
    | (with_reducible dsimp only)

theorem execNoticeReceived_keeps (epoch : Nat) (holder : Nat) (age : Nat) (sinceT0 : Nat) (crcOk : Bool) (s : State) :
    Keeps s (execNoticeReceived epoch holder age sinceT0 crcOk s) := by
  unfold execNoticeReceived
  refine State.run_keeps fun d hd => ?_
  repeat' first
    | with_reducible assumption
    | (extract_lets -underBinder +onlyGivenNames x; clear_value (hv : x = _); refine (fun (hx : Device.Sound x) => ?_) ?_; rotate_left; refine sound_of_eq hv ?_; clear hv x; rotate_left; clear hv)
    | (extract_lets -underBinder +onlyGivenNames x; clear_value x) | with_reducible apply Device.arbiterBad_sound
    | with_reducible apply Device.arbiterUp_sound | with_reducible apply Device.disputeStep_sound
    | with_reducible apply Device.holderSeen_sound | with_reducible apply Device.learnEpoch_sound
    | with_reducible apply Device.modLease_sound | with_reducible apply Device.wr_sound
    | with_reducible apply State.run_keeps | intro _ | with_reducible apply ite_sound | split
    | (with_reducible dsimp only)

theorem execOutOfService_keeps (s : State) :
    Keeps s (execOutOfService s) := by
  unfold execOutOfService
  refine State.run_keeps fun d hd => ?_
  repeat' first
    | with_reducible assumption | with_reducible apply Device.modTwin_sound
    | with_reducible apply Device.twinCommand_sound | with_reducible apply Device.twinRefuse_sound
    | with_reducible apply Device.wr_sound | with_reducible apply State.run_keeps | intro _
    | with_reducible apply ite_sound | split | (with_reducible dsimp only)

theorem execPeerHealthStale_keeps (s : State) :
    Keeps s (execPeerHealthStale s) := by
  unfold execPeerHealthStale
  refine State.run_keeps fun d hd => ?_
  repeat' first
    | with_reducible assumption
    | (extract_lets -underBinder +onlyGivenNames x; clear_value (hv : x = _); refine (fun (hx : Device.Sound x) => ?_) ?_; rotate_left; refine sound_of_eq hv ?_; clear hv x; rotate_left; clear hv)
    | (extract_lets -underBinder +onlyGivenNames x; clear_value (hv : x = _); refine (fun (hb : (Barrier.chans x).length = 16) => ?_) ?_; rotate_left; rw [hv]; clear hv x; rotate_left; clear hv)
    | (extract_lets -underBinder +onlyGivenNames x; clear_value (hv : x = _); refine (fun (hb : (Front.chans x).length = 32) => ?_) ?_; rotate_left; rw [hv]; clear hv x; rotate_left; clear hv)
    | (extract_lets -underBinder +onlyGivenNames x; clear_value (hv : x = _); refine (fun (hb : List.length (α := Chan) x = 16) => ?_) ?_; rotate_left; rw [hv]; clear hv x; rotate_left; clear hv)
    | (extract_lets -underBinder +onlyGivenNames x; clear_value x) | with_reducible apply Device.dropRequest_sound
    | with_reducible apply Device.modTwin_sound | with_reducible apply Device.wr_sound
    | with_reducible apply State.run_keeps | intro _ | with_reducible apply ite_sound | split
    | (with_reducible dsimp only) | (refine Device.Sound.mk ?_ ?_ ?_ ?_ ?_ ?_ ?_ <;> with_reducible dsimp only)
    | with_reducible apply Device.Sound.wf | with_reducible apply Device.Sound.poles
    | with_reducible apply Device.Sound.arms | with_reducible apply Device.Sound.lanes
    | with_reducible apply Device.Sound.tasks | with_reducible apply Device.Sound.chans
    | with_reducible apply Device.Sound.convs | rw [List.length_set] | rw [List.length_map] | rw [numbered_length]
    | simp only [List.length_cons, List.length_nil] | simp only [Barrier.downWith]

theorem execRefblkRecord_keeps (rseq : Nat) (n : Nat) (blocks : List RefBlock) (single : Bool) (s : State) :
    Keeps s (execRefblkRecord rseq n blocks single s) := by
  unfold execRefblkRecord
  refine State.run_keeps fun d hd => ?_
  repeat' first
    | with_reducible assumption
    | (extract_lets -underBinder +onlyGivenNames x; clear_value (hv : x = _); refine (fun (hx : Device.Sound x) => ?_) ?_; rotate_left; refine sound_of_eq hv ?_; clear hv x; rotate_left; clear hv)
    | (extract_lets -underBinder +onlyGivenNames x; clear_value x) | with_reducible apply Device.modTwin_sound
    | with_reducible apply Device.recordSeq_sound | with_reducible apply State.run_keeps | intro _
    | with_reducible apply ite_sound | split | (with_reducible dsimp only)

theorem execResync_keeps (s : State) :
    Keeps s (execResync s) := by
  unfold execResync
  refine State.run_keeps fun d hd => ?_
  repeat' first
    | with_reducible assumption | with_reducible apply Device.askResync_sound | with_reducible apply Device.modTwin_sound
    | with_reducible apply Device.twinCommand_sound | with_reducible apply Device.twinRefuse_sound
    | with_reducible apply Device.wr_sound | with_reducible apply State.run_keeps | intro _
    | with_reducible apply ite_sound | split | (with_reducible dsimp only)

theorem execResyncAck_keeps (c : Nat) (s : State) :
    Keeps s (execResyncAck c s) := by
  unfold execResyncAck
  refine State.run_keeps fun d hd => ?_
  repeat' first
    | with_reducible assumption | with_reducible apply Device.modTwin_sound | with_reducible apply State.run_keeps
    | intro _ | with_reducible apply ite_sound | split | (with_reducible dsimp only)

theorem execResyncRequest_keeps (s : State) :
    Keeps s (execResyncRequest s) := by
  unfold execResyncRequest
  refine State.run_keeps fun d hd => ?_
  repeat' first
    | with_reducible assumption | (extract_lets -underBinder +onlyGivenNames x; clear_value x)
    | with_reducible apply Device.control_sound | with_reducible apply Device.modTwin_sound
    | with_reducible apply State.run_keeps | intro _ | with_reducible apply ite_sound | split
    | (with_reducible dsimp only)

theorem execResyncTimeout_keeps (s : State) :
    Keeps s (execResyncTimeout s) := by
  unfold execResyncTimeout
  refine State.run_keeps fun d hd => ?_
  repeat' first
    | with_reducible assumption | with_reducible apply Device.resyncFail_sound | with_reducible apply State.run_keeps
    | intro _ | with_reducible apply ite_sound | split | (with_reducible dsimp only)

theorem execResyncVerified_keeps (s : State) :
    Keeps s (execResyncVerified s) := by
  unfold execResyncVerified
  refine State.run_keeps fun d hd => ?_
  repeat' first
    | with_reducible assumption | with_reducible apply Device.modTwin_sound | with_reducible apply State.run_keeps
    | intro _ | with_reducible apply ite_sound | split | (with_reducible dsimp only)

theorem execReturn_keeps (s : State) :
    Keeps s (execReturn s) := by
  unfold execReturn
  refine State.run_keeps fun d hd => ?_
  repeat' first
    | with_reducible assumption | with_reducible apply Device.modTwin_sound
    | with_reducible apply Device.twinCommand_sound | with_reducible apply Device.twinRefuse_sound
    | with_reducible apply Device.wr_sound | with_reducible apply State.run_keeps | intro _
    | with_reducible apply ite_sound | split | (with_reducible dsimp only)

theorem execRolporLinkDown_keeps (s : State) :
    Keeps s (execRolporLinkDown s) := by
  unfold execRolporLinkDown
  refine State.run_keeps fun d hd => ?_
  repeat' first
    | with_reducible assumption | with_reducible apply Device.dropRequest_sound
    | with_reducible apply Device.resyncFail_sound | with_reducible apply Device.wr_sound
    | with_reducible apply State.run_keeps | intro _ | with_reducible apply ite_sound | split
    | (with_reducible dsimp only)

theorem execRolporLinkUp_keeps (straps : Nat) (lanes : Nat) (delay : Nat) (s : State) :
    Keeps s (execRolporLinkUp straps lanes delay s) := by
  unfold execRolporLinkUp
  refine State.run_keeps fun d hd => ?_
  repeat' first
    | with_reducible assumption | (extract_lets -underBinder +onlyGivenNames x; clear_value x)
    | with_reducible apply Device.event_sound | with_reducible apply Device.wr_sound
    | with_reducible apply State.run_keeps | intro _ | with_reducible apply ite_sound | split
    | (with_reducible dsimp only)

theorem execRolporTickRecord_keeps (r : TickRec) (rseq : Nat) (single : Bool) (crcOk : Bool) (margin : Int) (s : State) :
    Keeps s (execRolporTickRecord r rseq single crcOk margin s) := by
  unfold execRolporTickRecord
  refine State.run_keeps fun d hd => ?_
  repeat' first
    | with_reducible assumption
    | (extract_lets -underBinder +onlyGivenNames x; clear_value (hv : x = _); refine (fun (hx : Device.Sound x) => ?_) ?_; rotate_left; refine sound_of_eq hv ?_; clear hv x; rotate_left; clear hv)
    | (extract_lets -underBinder +onlyGivenNames x; clear_value x) | with_reducible apply Device.askResync_sound
    | with_reducible apply Device.hashMismatch_sound | with_reducible apply Device.learnEpoch_sound
    | with_reducible apply Device.loseSync_sound | with_reducible apply Device.modLease_sound
    | with_reducible apply Device.modTwin_sound | with_reducible apply Device.recordSeq_sound
    | with_reducible apply Device.resyncFail_sound | with_reducible apply Device.wrI_sound
    | with_reducible apply State.run_keeps | with_reducible apply foldl_sound | intro _ | with_reducible apply ite_sound
    | split | (with_reducible dsimp only)

theorem execSnapshotTick_keeps (s : State) :
    Keeps s (execSnapshotTick s) := by
  unfold execSnapshotTick
  refine State.run_keeps fun d hd => ?_
  repeat' first
    | with_reducible assumption | with_reducible apply Device.modTwin_sound | with_reducible apply Device.setUnit_sound
    | with_reducible apply State.run_keeps | intro _ | with_reducible apply ite_sound | split
    | (with_reducible dsimp only)

theorem execStalemate_keeps (s : State) :
    Keeps s (execStalemate s) := by
  unfold execStalemate
  refine State.run_keeps fun d hd => ?_
  repeat' first
    | with_reducible assumption
    | (extract_lets -underBinder +onlyGivenNames x; clear_value (hv : x = _); refine (fun (hx : Device.Sound x) => ?_) ?_; rotate_left; refine sound_of_eq hv ?_; clear hv x; rotate_left; clear hv)
    | (extract_lets -underBinder +onlyGivenNames x; clear_value x) | with_reducible apply Device.bump_sound
    | with_reducible apply Device.modLease_sound | with_reducible apply Device.showBreakers_sound
    | with_reducible apply Device.showRole_sound | with_reducible apply Device.tripAll_sound
    | with_reducible apply State.run_keeps | intro _ | with_reducible apply ite_sound | split
    | (with_reducible dsimp only)

theorem execTickRecordDeadline_keeps (s : State) :
    Keeps s (execTickRecordDeadline s) := by
  unfold execTickRecordDeadline
  refine State.run_keeps fun d hd => ?_
  repeat' first
    | with_reducible assumption
    | (extract_lets -underBinder +onlyGivenNames x; clear_value (hv : x = _); refine (fun (hx : Device.Sound x) => ?_) ?_; rotate_left; refine sound_of_eq hv ?_; clear hv x; rotate_left; clear hv)
    | (extract_lets -underBinder +onlyGivenNames x; clear_value x) | with_reducible apply Device.bump_sound
    | with_reducible apply Device.modTwin_sound | with_reducible apply Device.request_sound
    | with_reducible apply Device.wr_sound | with_reducible apply Device.wrBit_sound
    | with_reducible apply State.run_keeps | intro _ | with_reducible apply ite_sound | split
    | (with_reducible dsimp only)

theorem execWriteRecord_keeps (rseq : Nat) (idx : Nat) (sub : Nat) (eff : Nat) (v : Nat) (single : Bool) (s : State) :
    Keeps s (execWriteRecord rseq idx sub eff v single s) := by
  unfold execWriteRecord
  refine State.run_keeps fun d hd => ?_
  repeat' first
    | with_reducible assumption
    | (extract_lets -underBinder +onlyGivenNames x; clear_value (hv : x = _); refine (fun (hx : Device.Sound x) => ?_) ?_; rotate_left; refine sound_of_eq hv ?_; clear hv x; rotate_left; clear hv)
    | (extract_lets -underBinder +onlyGivenNames x; clear_value x) | with_reducible apply Device.loseSync_sound
    | with_reducible apply Device.modTwin_sound | with_reducible apply Device.recordSeq_sound
    | with_reducible apply State.run_keeps | intro _ | with_reducible apply ite_sound | split
    | (with_reducible dsimp only)

end Sys2Proof.Machine
end

