-- ==== Sys2Proof/Laws/SoundLanes.lean ====
section
/-! SUPPORT. Every operation of Machine/Lanes.lean keeps a sound device sound; every command of it completes and
leaves the queue alone. -/
namespace Sys2Proof.Machine

set_option linter.all false
set_option Elab.async false

theorem Device.alignLatch_sound (d : Device) (hd : Device.Sound d) :
    Device.Sound (Device.alignLatch d) := by
  unfold Device.alignLatch
  repeat' first
    | with_reducible assumption
    | (extract_lets -underBinder +onlyGivenNames x; clear_value (hv : x = _); refine (fun (hx : Device.Sound x) => ?_) ?_; rotate_left; refine sound_of_eq hv ?_; clear hv x; rotate_left; clear hv)
    | (extract_lets -underBinder +onlyGivenNames x; clear_value x) | with_reducible apply Device.loseSync_sound
    | with_reducible apply Device.modLane_sound | with_reducible apply Device.modTwin_sound
    | with_reducible apply foldl_sound | intro _ | with_reducible apply ite_sound | split | (with_reducible dsimp only)

theorem Device.countMiss_sound (d : Device) (l : Nat) (hd : Device.Sound d) :
    Device.Sound (Device.countMiss d l) := by
  unfold Device.countMiss
  repeat' first
    | with_reducible assumption | (extract_lets -underBinder +onlyGivenNames x; clear_value x)
    | with_reducible apply Device.wr_sound | with_reducible apply Device.wrBit_sound | with_reducible apply ite_sound
    | split | (with_reducible dsimp only)

theorem Device.laneReaction_sound (d : Device) (l : Nat) (hd : Device.Sound d) :
    Device.Sound (Device.laneReaction d l) := by
  unfold Device.laneReaction
  repeat' first
    | with_reducible assumption | with_reducible apply Device.leaveRole_sound
    | with_reducible apply Device.loseSync_sound | with_reducible apply Device.tripPole_sound
    | with_reducible apply foldl_sound | intro _ | with_reducible apply ite_sound | split | (with_reducible dsimp only)

theorem Device.setLaneState_sound (d : Device) (l : Nat) (st : Nat) (hd : Device.Sound d) :
    Device.Sound (Device.setLaneState d l st) := by
  unfold Device.setLaneState
  repeat' first
    | with_reducible assumption
    | (extract_lets -underBinder +onlyGivenNames x; clear_value (hv : x = _); refine (fun (hx : Device.Sound x) => ?_) ?_; rotate_left; refine sound_of_eq hv ?_; clear hv x; rotate_left; clear hv)
    | (extract_lets -underBinder +onlyGivenNames x; clear_value x) | with_reducible apply Device.modLane_sound
    | with_reducible apply Device.wr_sound | with_reducible apply Device.wrBit_sound

theorem Device.laneFault_sound (d : Device) (l : Nat) (cause : Nat) (hd : Device.Sound d) :
    Device.Sound (Device.laneFault d l cause) := by
  unfold Device.laneFault
  repeat' first
    | with_reducible assumption
    | (extract_lets -underBinder +onlyGivenNames x; clear_value (hv : x = _); refine (fun (hx : Device.Sound x) => ?_) ?_; rotate_left; refine sound_of_eq hv ?_; clear hv x; rotate_left; clear hv)
    | (extract_lets -underBinder +onlyGivenNames x; clear_value x) | with_reducible apply Device.bump_sound
    | with_reducible apply Device.event_sound | with_reducible apply Device.laneReaction_sound
    | with_reducible apply Device.modLane_sound | with_reducible apply Device.noteTrigger_sound
    | with_reducible apply Device.setLaneState_sound | with_reducible apply Device.wr_sound
    | with_reducible apply ite_sound | split | (with_reducible dsimp only)

theorem Device.sendMessage_sound (d : Device) (l : Nat) (typ : Nat) (body : Nat) (hd : Device.Sound d) :
    Device.Sound (Device.sendMessage d l typ body) := by
  unfold Device.sendMessage
  repeat' first
    | with_reducible assumption
    | (extract_lets -underBinder +onlyGivenNames x; clear_value (hv : x = _); refine (fun (hx : Device.Sound x) => ?_) ?_; rotate_left; refine sound_of_eq hv ?_; clear hv x; rotate_left; clear hv)
    | (extract_lets -underBinder +onlyGivenNames x; clear_value (hv : x = _); refine (fun (hb : (Barrier.chans x).length = 16) => ?_) ?_; rotate_left; rw [hv]; clear hv x; rotate_left; clear hv)
    | (extract_lets -underBinder +onlyGivenNames x; clear_value (hv : x = _); refine (fun (hb : (Front.chans x).length = 32) => ?_) ?_; rotate_left; rw [hv]; clear hv x; rotate_left; clear hv)
    | (extract_lets -underBinder +onlyGivenNames x; clear_value (hv : x = _); refine (fun (hb : List.length (α := Chan) x = 16) => ?_) ?_; rotate_left; rw [hv]; clear hv x; rotate_left; clear hv)
    | (extract_lets -underBinder +onlyGivenNames x; clear_value x) | with_reducible apply Device.modLane_sound
    | (with_reducible dsimp only) | (refine Device.Sound.mk ?_ ?_ ?_ ?_ ?_ ?_ ?_ <;> with_reducible dsimp only)
    | with_reducible apply Device.Sound.wf | with_reducible apply Device.Sound.poles
    | with_reducible apply Device.Sound.arms | with_reducible apply Device.Sound.lanes
    | with_reducible apply Device.Sound.tasks | with_reducible apply Device.Sound.chans
    | with_reducible apply Device.Sound.convs | rw [List.length_set] | rw [List.length_map] | rw [numbered_length]
    | simp only [List.length_cons, List.length_nil] | simp only [Barrier.downWith]

theorem Device.handshake_sound (d : Device) (l : Nat) (hd : Device.Sound d) :
    Device.Sound (Device.handshake d l) := by
  unfold Device.handshake
  repeat' first
    | with_reducible assumption | (extract_lets -underBinder +onlyGivenNames x; clear_value x)
    | with_reducible apply Device.laneFault_sound | with_reducible apply Device.modLane_sound
    | with_reducible apply Device.sendMessage_sound | with_reducible apply Device.wr_sound
    | with_reducible apply ite_sound | split | (with_reducible dsimp only)

theorem Device.heard_sound (d : Device) (l : Nat) (w : Nat) (f : Device → Device) (hd : Device.Sound d) (hf : ∀ y0, Device.Sound y0 → Device.Sound (f y0)) :
    Device.Sound (Device.heard d l w f) := by
  unfold Device.heard
  repeat' first
    | with_reducible assumption
    | (extract_lets -underBinder +onlyGivenNames x; clear_value (hv : x = _); refine (fun (hx : Device.Sound x) => ?_) ?_; rotate_left; refine sound_of_eq hv ?_; clear hv x; rotate_left; clear hv)
    | (extract_lets -underBinder +onlyGivenNames x; clear_value x) | with_reducible apply Device.modLane_sound
    | with_reducible apply hf | intro _ | with_reducible apply ite_sound | split | (with_reducible dsimp only)

theorem Device.holdLaneWrite_sound (d : Device) (l : Nat) (sub : Nat) (v : Nat) (hd : Device.Sound d) :
    Device.Sound (Device.holdLaneWrite d l sub v) := by
  unfold Device.holdLaneWrite
  repeat' first
    | with_reducible assumption | with_reducible apply Device.modLane_sound | with_reducible apply odWf_odPut
    | with_reducible apply odWf_puts | with_reducible apply odWf_filter | with_reducible exact Device.reset_sound
    | (with_reducible dsimp only) | (refine Device.Sound.mk ?_ ?_ ?_ ?_ ?_ ?_ ?_ <;> with_reducible dsimp only)
    | with_reducible apply Device.Sound.wf | with_reducible apply Device.Sound.poles
    | with_reducible apply Device.Sound.arms | with_reducible apply Device.Sound.lanes
    | with_reducible apply Device.Sound.tasks | with_reducible apply Device.Sound.chans
    | with_reducible apply Device.Sound.convs | rw [List.length_set] | rw [List.length_map] | rw [numbered_length]
    | simp only [List.length_cons, List.length_nil] | simp only [Barrier.downWith]

theorem Device.inHandshake_sound (d : Device) (l : Nat) (lf : Nat) (f : Device → Device) (hd : Device.Sound d) (hf : ∀ y0, Device.Sound y0 → Device.Sound (f y0)) :
    Device.Sound (Device.inHandshake d l lf f) := by
  unfold Device.inHandshake
  repeat' first
    | with_reducible assumption | with_reducible apply Device.laneFault_sound | with_reducible apply hf | intro _
    | with_reducible apply ite_sound | split | (with_reducible dsimp only)

theorem Device.judgeFrame_sound (d : Device) (l : Nat) (f : UpFrame) (hd : Device.Sound d) :
    Device.Sound (Device.judgeFrame d l f) := by
  unfold Device.judgeFrame
  repeat' first
    | with_reducible assumption
    | (extract_lets -underBinder +onlyGivenNames x; clear_value (hv : x = _); refine (fun (hx : Device.Sound x) => ?_) ?_; rotate_left; refine sound_of_eq hv ?_; clear hv x; rotate_left; clear hv)
    | (extract_lets -underBinder +onlyGivenNames x; clear_value (hv : x = _); refine (fun (hf : ∀ y : Device, Device.Sound y → Device.Sound (x y)) => ?_) ?_; rotate_left; refine sound_of_eq_fun hv ?_; clear hv x; rotate_left; clear hv)
    | (extract_lets -underBinder +onlyGivenNames x; clear_value (hv : x = _); refine (fun (hf : ∀ (y : Device) (z : _), Device.Sound y → Device.Sound (x y z)) => ?_) ?_; rotate_left; refine sound_of_eq_fun₂ hv ?_; clear hv x; rotate_left; clear hv)
    | (extract_lets -underBinder +onlyGivenNames x; clear_value (hv : x = _); refine (fun (hf : ∀ (y : Device) (z : _) (w : _), Device.Sound y → Device.Sound (x y z w)) => ?_) ?_; rotate_left; refine sound_of_eq_fun₃ hv ?_; clear hv x; rotate_left; clear hv)
    | (extract_lets -underBinder +onlyGivenNames x; clear_value x) | with_reducible apply Device.bump_sound
    | with_reducible apply Device.bumpBy_sound | with_reducible apply Device.disputeStep_sound
    | with_reducible apply Device.flagFall_sound | with_reducible apply Device.laneFault_sound
    | with_reducible apply Device.learnEpoch_sound | with_reducible apply Device.leaveRole_sound
    | with_reducible apply Device.modLane_sound | with_reducible apply Device.wr_sound | with_reducible apply hf
    | with_reducible apply odWf_odPut | with_reducible apply odWf_puts | with_reducible apply odWf_filter
    | with_reducible exact Device.reset_sound | intro _ | with_reducible apply ite_sound | split
    | (with_reducible dsimp only) | (refine Device.Sound.mk ?_ ?_ ?_ ?_ ?_ ?_ ?_ <;> with_reducible dsimp only)
    | with_reducible apply Device.Sound.wf | with_reducible apply Device.Sound.poles
    | with_reducible apply Device.Sound.arms | with_reducible apply Device.Sound.lanes
    | with_reducible apply Device.Sound.tasks | with_reducible apply Device.Sound.chans
    | with_reducible apply Device.Sound.convs | rw [List.length_set] | rw [List.length_map] | rw [numbered_length]
    | simp only [List.length_cons, List.length_nil] | simp only [Barrier.downWith]

theorem Device.laneLimited_sound (d : Device) (l : Nat) (hd : Device.Sound d) :
    Device.Sound (Device.laneLimited d l) := by
  unfold Device.laneLimited
  repeat' first
    | with_reducible assumption | with_reducible apply Device.modLane_sound
    | with_reducible apply Device.setLaneState_sound

theorem Device.resetCommands_sound (d : Device) (l : Nat) (hd : Device.Sound d) :
    Device.Sound (Device.resetCommands d l) := by
  unfold Device.resetCommands
  repeat' first
    | with_reducible assumption | (extract_lets -underBinder +onlyGivenNames x; clear_value x)
    | with_reducible apply Device.modArm_sound | with_reducible apply foldl_sound | intro _
    | with_reducible apply ite_sound | split | (with_reducible dsimp only)

theorem Device.showSlack_sound (d : Device) (l : Nat) (hd : Device.Sound d) :
    Device.Sound (Device.showSlack d l) := by
  unfold Device.showSlack
  repeat' first
    | with_reducible assumption | (extract_lets -underBinder +onlyGivenNames x; clear_value x)
    | with_reducible apply Device.wr_sound | with_reducible apply Device.wrI_sound | with_reducible apply ite_sound
    | split | (with_reducible dsimp only)

theorem Device.judgeLane_sound (d : Device) (l : Nat) (hd : Device.Sound d) :
    Device.Sound (Device.judgeLane d l) := by
  unfold Device.judgeLane
  repeat' first
    | with_reducible assumption
    | (extract_lets -underBinder +onlyGivenNames x; clear_value (hv : x = _); refine (fun (hx : Device.Sound x) => ?_) ?_; rotate_left; refine sound_of_eq hv ?_; clear hv x; rotate_left; clear hv)
    | (extract_lets -underBinder +onlyGivenNames x; clear_value x) | with_reducible apply Device.askResync_sound
    | with_reducible apply Device.laneLimited_sound | with_reducible apply Device.modLane_sound
    | with_reducible apply Device.resetCommands_sound | with_reducible apply Device.sendMessage_sound
    | with_reducible apply Device.setLaneState_sound | with_reducible apply Device.showSlack_sound
    | with_reducible apply ite_sound | split | (with_reducible dsimp only)

theorem Device.laneActivate_sound (d : Device) (l : Nat) (changed : Bool) (hd : Device.Sound d) :
    Device.Sound (Device.laneActivate d l changed) := by
  unfold Device.laneActivate
  repeat' first
    | with_reducible assumption
    | (extract_lets -underBinder +onlyGivenNames x; clear_value (hv : x = _); refine (fun (hx : Device.Sound x) => ?_) ?_; rotate_left; refine sound_of_eq hv ?_; clear hv x; rotate_left; clear hv)
    | (extract_lets -underBinder +onlyGivenNames x; clear_value x) | with_reducible apply Device.judgeLane_sound
    | with_reducible apply Device.laneFault_sound | with_reducible apply Device.modLane_sound
    | with_reducible apply Device.setLaneState_sound | with_reducible apply Device.showSlack_sound
    | with_reducible apply Device.wr_sound | with_reducible apply ite_sound | split | (with_reducible dsimp only)

theorem Device.laneRetrain_sound (d : Device) (l : Nat) (cause : Nat) (hd : Device.Sound d) :
    Device.Sound (Device.laneRetrain d l cause) := by
  unfold Device.laneRetrain
  repeat' first
    | with_reducible assumption | with_reducible apply Device.laneFault_sound | with_reducible apply ite_sound | split
    | (with_reducible dsimp only)

theorem Device.lanesPeriod_sound (d : Device) (hd : Device.Sound d) :
    Device.Sound (Device.lanesPeriod d) := by
  unfold Device.lanesPeriod
  repeat' first
    | with_reducible assumption | with_reducible apply Device.judgeLane_sound
    | with_reducible apply Device.showSlack_sound | with_reducible apply foldl_sound | intro _
    | with_reducible apply ite_sound | split | (with_reducible dsimp only)

theorem latchLane_sound (d : Device) (l : Nat) (hd : Device.Sound d) :
    Device.Sound (latchLane d l) := by
  unfold latchLane
  repeat' first
    | with_reducible assumption
    | (extract_lets -underBinder +onlyGivenNames x; clear_value (hv : x = _); refine (fun (hx : Device.Sound x) => ?_) ?_; rotate_left; refine sound_of_eq hv ?_; clear hv x; rotate_left; clear hv)
    | (extract_lets -underBinder +onlyGivenNames x; clear_value x) | with_reducible apply Device.countMiss_sound
    | with_reducible apply Device.judgeFrame_sound | with_reducible apply Device.laneFault_sound
    | with_reducible apply Device.modLane_sound | with_reducible apply ite_sound | split | (with_reducible dsimp only)

theorem Device.reportLatch_sound (d : Device) (hd : Device.Sound d) :
    Device.Sound (Device.reportLatch d) := by
  unfold Device.reportLatch
  repeat' first
    | with_reducible assumption
    | (extract_lets -underBinder +onlyGivenNames x; clear_value (hv : x = _); refine (fun (hx : Device.Sound x) => ?_) ?_; rotate_left; refine sound_of_eq hv ?_; clear hv x; rotate_left; clear hv)
    | (extract_lets -underBinder +onlyGivenNames x; clear_value x) | with_reducible apply Device.disputeStep_sound
    | with_reducible apply latchLane_sound | with_reducible apply foldl_sound | with_reducible apply odWf_odPut
    | with_reducible apply odWf_puts | with_reducible apply odWf_filter | with_reducible exact Device.reset_sound
    | intro _ | with_reducible apply ite_sound | split | (with_reducible dsimp only)
    | (refine Device.Sound.mk ?_ ?_ ?_ ?_ ?_ ?_ ?_ <;> with_reducible dsimp only) | with_reducible apply Device.Sound.wf
    | with_reducible apply Device.Sound.poles | with_reducible apply Device.Sound.arms
    | with_reducible apply Device.Sound.lanes | with_reducible apply Device.Sound.tasks
    | with_reducible apply Device.Sound.chans | with_reducible apply Device.Sound.convs | rw [List.length_set]
    | rw [List.length_map] | rw [numbered_length] | simp only [List.length_cons, List.length_nil]
    | simp only [Barrier.downWith]

theorem Device.sendRangeReq_sound (d : Device) (l : Nat) (hd : Device.Sound d) :
    Device.Sound (Device.sendRangeReq d l) := by
  unfold Device.sendRangeReq
  repeat' first
    | with_reducible assumption | with_reducible apply Device.sendMessage_sound

theorem Device.sendRate_sound (d : Device) (l : Nat) (r : Nat) (hd : Device.Sound d) :
    Device.Sound (Device.sendRate d l r) := by
  unfold Device.sendRate
  repeat' first
    | with_reducible assumption | with_reducible apply Device.modLane_sound
    | with_reducible apply Device.sendMessage_sound

theorem Device.sendTrain_sound (d : Device) (l : Nat) (hd : Device.Sound d) :
    Device.Sound (Device.sendTrain d l) := by
  unfold Device.sendTrain
  repeat' first
    | with_reducible assumption | with_reducible apply Device.sendMessage_sound

theorem Device.stepUp_sound (d : Device) (l : Nat) (hd : Device.Sound d) :
    Device.Sound (Device.stepUp d l) := by
  unfold Device.stepUp
  repeat' first
    | with_reducible assumption | with_reducible apply Device.laneLimited_sound
    | with_reducible apply Device.sendRate_sound | with_reducible apply Device.setLaneState_sound
    | with_reducible apply ite_sound | split | (with_reducible dsimp only)

theorem execAlignmentAchieved_keeps (l : Nat) (pos : Nat) (words : Nat) (s : State) :
    Keeps s (execAlignmentAchieved l pos words s) := by
  unfold execAlignmentAchieved
  refine State.run_keeps fun d hd => ?_
  repeat' first
    | with_reducible assumption
    | (extract_lets -underBinder +onlyGivenNames x; clear_value (hv : x = _); refine (fun (hx : Device.Sound x) => ?_) ?_; rotate_left; refine sound_of_eq hv ?_; clear hv x; rotate_left; clear hv)
    | (extract_lets -underBinder +onlyGivenNames x; clear_value x) | with_reducible apply Device.modLane_sound
    | with_reducible apply Device.sendTrain_sound | with_reducible apply Device.setLaneState_sound
    | with_reducible apply Device.wr_sound | with_reducible apply State.run_keeps | intro _
    | with_reducible apply ite_sound | split | (with_reducible dsimp only)

theorem execAlignmentLost_keeps (l : Nat) (s : State) :
    Keeps s (execAlignmentLost l s) := by
  unfold execAlignmentLost
  refine State.run_keeps fun d hd => ?_
  repeat' first
    | with_reducible assumption
    | (extract_lets -underBinder +onlyGivenNames x; clear_value (hv : x = _); refine (fun (hx : Device.Sound x) => ?_) ?_; rotate_left; refine sound_of_eq hv ?_; clear hv x; rotate_left; clear hv)
    | (extract_lets -underBinder +onlyGivenNames x; clear_value x) | with_reducible apply Device.bump_sound
    | with_reducible apply Device.laneFault_sound | with_reducible apply Device.modLane_sound
    | with_reducible apply Device.wr_sound | with_reducible apply State.run_keeps | intro _
    | with_reducible apply ite_sound | split | (with_reducible dsimp only)

theorem execAlignmentSearchFail_keeps (l : Nat) (s : State) :
    Keeps s (execAlignmentSearchFail l s) := by
  unfold execAlignmentSearchFail
  refine State.run_keeps fun d hd => ?_
  repeat' first
    | with_reducible assumption | with_reducible apply Device.setLaneState_sound | with_reducible apply State.run_keeps
    | intro _ | with_reducible apply ite_sound | split | (with_reducible dsimp only)

theorem execBitSlip_keeps (l : Nat) (s : State) :
    Keeps s (execBitSlip l s) := by
  unfold execBitSlip
  refine State.run_keeps fun d hd => ?_
  repeat' first
    | with_reducible assumption | (extract_lets -underBinder +onlyGivenNames x; clear_value x)
    | with_reducible apply Device.abort_sound | with_reducible apply Device.sdo_sound
    | with_reducible apply Device.wr_sound | with_reducible apply State.run_keeps | intro _
    | with_reducible apply ite_sound | split | (with_reducible dsimp only)

theorem execCapabilityReceived_keeps (l : Nat) (lf : Nat) (mask : Nat) (largest : Nat) (s : State) :
    Keeps s (execCapabilityReceived l lf mask largest s) := by
  unfold execCapabilityReceived
  refine State.run_keeps fun d hd => ?_
  repeat' first
    | with_reducible assumption | with_reducible apply Device.handshake_sound | with_reducible apply Device.heard_sound
    | with_reducible apply Device.inHandshake_sound | with_reducible apply Device.modLane_sound
    | with_reducible apply Device.wr_sound | with_reducible apply State.run_keeps | intro _

theorem execConfigAckReceived_keeps (l : Nat) (lf : Nat) (body : Nat) (s : State) :
    Keeps s (execConfigAckReceived l lf body s) := by
  unfold execConfigAckReceived
  refine State.run_keeps fun d hd => ?_
  repeat' first
    | with_reducible assumption | with_reducible apply Device.heard_sound | with_reducible apply Device.inHandshake_sound
    | with_reducible apply Device.laneFault_sound | with_reducible apply Device.modLane_sound
    | with_reducible apply Device.sendRangeReq_sound | with_reducible apply Device.setLaneState_sound
    | with_reducible apply State.run_keeps | intro _ | with_reducible apply ite_sound | split
    | (with_reducible dsimp only)

theorem execHandshakeTimeout_keeps (l : Nat) (s : State) :
    Keeps s (execHandshakeTimeout l s) := by
  unfold execHandshakeTimeout
  refine State.run_keeps fun d hd => ?_
  repeat' first
    | with_reducible assumption | with_reducible apply Device.laneFault_sound | with_reducible apply State.run_keeps
    | intro _ | with_reducible apply ite_sound | split | (with_reducible dsimp only)

theorem execIdentityReceived_keeps (l : Nat) (lf : Nat) (version : Nat) (identity : Nat) (s : State) :
    Keeps s (execIdentityReceived l lf version identity s) := by
  unfold execIdentityReceived
  refine State.run_keeps fun d hd => ?_
  repeat' first
    | with_reducible assumption | with_reducible apply Device.handshake_sound | with_reducible apply Device.heard_sound
    | with_reducible apply Device.inHandshake_sound | with_reducible apply Device.modLane_sound
    | with_reducible apply Device.wr_sound | with_reducible apply State.run_keeps | intro _

theorem execLaneChangeEffect_keeps (l : Nat) (s : State) :
    Keeps s (execLaneChangeEffect l s) := by
  unfold execLaneChangeEffect
  refine State.run_keeps fun d hd => ?_
  repeat' first
    | with_reducible assumption
    | (extract_lets -underBinder +onlyGivenNames x; clear_value (hv : x = _); refine (fun (hx : Device.Sound x) => ?_) ?_; rotate_left; refine sound_of_eq hv ?_; clear hv x; rotate_left; clear hv)
    | (extract_lets -underBinder +onlyGivenNames x; clear_value x) | with_reducible apply Device.laneRetrain_sound
    | with_reducible apply Device.modLane_sound | with_reducible apply Device.wr_sound
    | with_reducible apply State.run_keeps | with_reducible apply foldl_sound | intro _ | with_reducible apply ite_sound
    | split | (with_reducible dsimp only)

theorem execLaneQuietExpiry_keeps (l : Nat) (s : State) :
    Keeps s (execLaneQuietExpiry l s) := by
  unfold execLaneQuietExpiry
  refine State.run_keeps fun d hd => ?_
  repeat' first
    | with_reducible assumption | with_reducible apply Device.setLaneState_sound | with_reducible apply Device.wr_sound
    | with_reducible apply State.run_keeps | intro _ | with_reducible apply ite_sound | split
    | (with_reducible dsimp only)

theorem execLaneRetrain_keeps (l : Nat) (s : State) :
    Keeps s (execLaneRetrain l s) := by
  unfold execLaneRetrain
  refine State.run_keeps fun d hd => ?_
  repeat' first
    | with_reducible assumption | (extract_lets -underBinder +onlyGivenNames x; clear_value x)
    | with_reducible apply Device.abort_sound | with_reducible apply Device.forward_sound
    | with_reducible apply Device.laneRetrain_sound | with_reducible apply Device.sdo_sound
    | with_reducible apply State.run_keeps | intro _ | with_reducible apply ite_sound | split
    | (with_reducible dsimp only)

theorem execLolAssert_keeps (l : Nat) (s : State) :
    Keeps s (execLolAssert l s) := by
  unfold execLolAssert
  refine State.run_keeps fun d hd => ?_
  repeat' first
    | with_reducible assumption
    | (extract_lets -underBinder +onlyGivenNames x; clear_value (hv : x = _); refine (fun (hx : Device.Sound x) => ?_) ?_; rotate_left; refine sound_of_eq hv ?_; clear hv x; rotate_left; clear hv)
    | (extract_lets -underBinder +onlyGivenNames x; clear_value x) | with_reducible apply Device.bump_sound
    | with_reducible apply Device.laneFault_sound | with_reducible apply Device.modLane_sound
    | with_reducible apply State.run_keeps | intro _ | with_reducible apply ite_sound | split
    | (with_reducible dsimp only)

theorem execLolClear_keeps (l : Nat) (s : State) :
    Keeps s (execLolClear l s) := by
  unfold execLolClear
  refine State.run_keeps fun d hd => ?_
  repeat' first
    | with_reducible assumption | with_reducible apply Device.modLane_sound | with_reducible apply State.run_keeps
    | intro _

theorem execLosAssert_keeps (l : Nat) (s : State) :
    Keeps s (execLosAssert l s) := by
  unfold execLosAssert
  refine State.run_keeps fun d hd => ?_
  repeat' first
    | with_reducible assumption
    | (extract_lets -underBinder +onlyGivenNames x; clear_value (hv : x = _); refine (fun (hx : Device.Sound x) => ?_) ?_; rotate_left; refine sound_of_eq hv ?_; clear hv x; rotate_left; clear hv)
    | (extract_lets -underBinder +onlyGivenNames x; clear_value x) | with_reducible apply Device.bump_sound
    | with_reducible apply Device.laneFault_sound | with_reducible apply Device.modLane_sound
    | with_reducible apply State.run_keeps | intro _ | with_reducible apply ite_sound | split
    | (with_reducible dsimp only)

theorem execLosClear_keeps (l : Nat) (s : State) :
    Keeps s (execLosClear l s) := by
  unfold execLosClear
  refine State.run_keeps fun d hd => ?_
  repeat' first
    | with_reducible assumption | with_reducible apply Device.modLane_sound | with_reducible apply State.run_keeps
    | intro _

theorem execNackReceived_keeps (l : Nat) (lf : Nat) (reason : Nat) (s : State) :
    Keeps s (execNackReceived l lf reason s) := by
  unfold execNackReceived
  refine State.run_keeps fun d hd => ?_
  repeat' first
    | with_reducible assumption | with_reducible apply Device.heard_sound | with_reducible apply Device.inHandshake_sound
    | with_reducible apply Device.laneFault_sound | with_reducible apply State.run_keeps | intro _
    | with_reducible apply ite_sound | split | (with_reducible dsimp only)

theorem execRangeEchoReceived_keeps (l : Nat) (cycles : Nat) (dc : Nat) (s : State) :
    Keeps s (execRangeEchoReceived l cycles dc s) := by
  unfold execRangeEchoReceived
  refine State.run_keeps fun d hd => ?_
  repeat' first
    | with_reducible assumption
    | (extract_lets -underBinder +onlyGivenNames x; clear_value (hv : x = _); refine (fun (hx : Device.Sound x) => ?_) ?_; rotate_left; refine sound_of_eq hv ?_; clear hv x; rotate_left; clear hv)
    | (extract_lets -underBinder +onlyGivenNames x; clear_value x) | with_reducible apply Device.heard_sound
    | with_reducible apply Device.laneLimited_sound | with_reducible apply Device.modLane_sound
    | with_reducible apply Device.sendRangeReq_sound | with_reducible apply Device.showSlack_sound
    | with_reducible apply Device.stepUp_sound | with_reducible apply Device.wr_sound
    | with_reducible apply State.run_keeps | intro _ | with_reducible apply ite_sound | split
    | (with_reducible dsimp only)

theorem execRangingTimeout_keeps (l : Nat) (s : State) :
    Keeps s (execRangingTimeout l s) := by
  unfold execRangingTimeout
  refine State.run_keeps fun d hd => ?_
  repeat' first
    | with_reducible assumption | with_reducible apply Device.laneFault_sound | with_reducible apply State.run_keeps
    | intro _ | with_reducible apply ite_sound | split | (with_reducible dsimp only)

theorem execRateAckReceived_keeps (l : Nat) (rate : Nat) (s : State) :
    Keeps s (execRateAckReceived l rate s) := by
  unfold execRateAckReceived
  refine State.run_keeps fun d hd => ?_
  repeat' first
    | with_reducible assumption | with_reducible apply Device.heard_sound | with_reducible apply Device.modLane_sound
    | with_reducible apply Device.sendTrain_sound | with_reducible apply Device.setLaneState_sound
    | with_reducible apply Device.wr_sound | with_reducible apply State.run_keeps | intro _
    | with_reducible apply ite_sound | split | (with_reducible dsimp only)

theorem execReadyReceived_keeps (l : Nat) (rate : Nat) (s : State) :
    Keeps s (execReadyReceived l rate s) := by
  unfold execReadyReceived
  refine State.run_keeps fun d hd => ?_
  repeat' first
    | with_reducible assumption | (extract_lets -underBinder +onlyGivenNames x; clear_value x)
    | with_reducible apply Device.heard_sound | with_reducible apply Device.judgeLane_sound
    | with_reducible apply Device.stepUp_sound | with_reducible apply State.run_keeps | intro _
    | with_reducible apply ite_sound | split | (with_reducible dsimp only)

theorem execSignalSettled_keeps (l : Nat) (s : State) :
    Keeps s (execSignalSettled l s) := by
  unfold execSignalSettled
  refine State.run_keeps fun d hd => ?_
  repeat' first
    | with_reducible assumption | with_reducible apply Device.setLaneState_sound | with_reducible apply Device.wr_sound
    | with_reducible apply State.run_keeps | intro _ | with_reducible apply ite_sound | split
    | (with_reducible dsimp only)

theorem execStepTimeout_keeps (l : Nat) (s : State) :
    Keeps s (execStepTimeout l s) := by
  unfold execStepTimeout
  refine State.run_keeps fun d hd => ?_
  repeat' first
    | with_reducible assumption | with_reducible apply Device.laneFault_sound | with_reducible apply State.run_keeps
    | intro _ | with_reducible apply ite_sound | split | (with_reducible dsimp only)

theorem execTrainReceived_keeps (l : Nat) (lf : Nat) (cleanUs : Nat) (s : State) :
    Keeps s (execTrainReceived l lf cleanUs s) := by
  unfold execTrainReceived
  refine State.run_keeps fun d hd => ?_
  repeat' first
    | with_reducible assumption
    | (extract_lets -underBinder +onlyGivenNames x; clear_value (hv : x = _); refine (fun (hx : Device.Sound x) => ?_) ?_; rotate_left; refine sound_of_eq hv ?_; clear hv x; rotate_left; clear hv)
    | (extract_lets -underBinder +onlyGivenNames x; clear_value x) | with_reducible apply Device.handshake_sound
    | with_reducible apply Device.inHandshake_sound | with_reducible apply Device.modLane_sound
    | with_reducible apply Device.sendMessage_sound | with_reducible apply State.run_keeps | intro _
    | with_reducible apply ite_sound | split | (with_reducible dsimp only)

theorem execTrainingTimeout_keeps (l : Nat) (s : State) :
    Keeps s (execTrainingTimeout l s) := by
  unfold execTrainingTimeout
  refine State.run_keeps fun d hd => ?_
  repeat' first
    | with_reducible assumption
    | (extract_lets -underBinder +onlyGivenNames x; clear_value (hv : x = _); refine (fun (hx : Device.Sound x) => ?_) ?_; rotate_left; refine sound_of_eq hv ?_; clear hv x; rotate_left; clear hv)
    | (extract_lets -underBinder +onlyGivenNames x; clear_value x) | with_reducible apply Device.bump_sound
    | with_reducible apply Device.modLane_sound | with_reducible apply Device.sendRate_sound
    | with_reducible apply Device.sendTrain_sound | with_reducible apply Device.setLaneState_sound
    | with_reducible apply Device.wr_sound | with_reducible apply State.run_keeps | intro _
    | with_reducible apply ite_sound | split | (with_reducible dsimp only)

theorem execUpstreamFrame_keeps (l : Nat) (head : Nat) (stream : List Nat) (s : State) :
    Keeps s (execUpstreamFrame l head stream s) := by
  unfold execUpstreamFrame
  refine State.run_keeps fun d hd => ?_
  repeat' first
    | with_reducible assumption | (extract_lets -underBinder +onlyGivenNames x; clear_value x)
    | with_reducible apply Device.bump_sound | with_reducible apply Device.modLane_sound
    | with_reducible apply State.run_keeps | intro _ | with_reducible apply ite_sound | split
    | (with_reducible dsimp only)

end Sys2Proof.Machine
end

