-- ==== Sys2Proof/Laws/SoundProtect.lean ====
section
/-! SUPPORT. Every operation of Machine/Protect.lean keeps a sound device sound; every command of it completes and
leaves the queue alone. -/
namespace Sys2Proof.Machine

set_option linter.all false
set_option Elab.async false

theorem Device.showBlockOut_sound (d : Device) (hd : Device.Sound d) :
    Device.Sound (Device.showBlockOut d) := by
  unfold Device.showBlockOut
  repeat' first
    | with_reducible assumption | (extract_lets -underBinder +onlyGivenNames x; clear_value x)
    | with_reducible apply Device.wr_sound | with_reducible apply ite_sound | split | (with_reducible dsimp only)

theorem Device.showPairs_sound (d : Device) (hd : Device.Sound d) :
    Device.Sound (Device.showPairs d) := by
  unfold Device.showPairs
  repeat' first
    | with_reducible assumption | with_reducible apply Device.wr_sound | with_reducible apply foldl_sound | intro _
    | with_reducible apply ite_sound | split | (with_reducible dsimp only)

theorem Device.showMask_sound (d : Device) (hd : Device.Sound d) :
    Device.Sound (Device.showMask d) := by
  unfold Device.showMask
  repeat' first
    | with_reducible assumption
    | (extract_lets -underBinder +onlyGivenNames x; clear_value (hv : x = _); refine (fun (hx : Device.Sound x) => ?_) ?_; rotate_left; refine sound_of_eq hv ?_; clear hv x; rotate_left; clear hv)
    | (extract_lets -underBinder +onlyGivenNames x; clear_value x) | with_reducible apply Device.bumpBy_sound
    | with_reducible apply Device.showBlockOut_sound | with_reducible apply Device.showPairs_sound
    | with_reducible apply Device.wr_sound | with_reducible apply foldl_sound | with_reducible apply odWf_odPut
    | with_reducible apply odWf_puts | with_reducible apply odWf_filter | with_reducible exact Device.reset_sound
    | intro _ | with_reducible apply ite_sound | split | (with_reducible dsimp only)
    | (refine Device.Sound.mk ?_ ?_ ?_ ?_ ?_ ?_ ?_ <;> with_reducible dsimp only) | with_reducible apply Device.Sound.wf
    | with_reducible apply Device.Sound.poles | with_reducible apply Device.Sound.arms
    | with_reducible apply Device.Sound.lanes | with_reducible apply Device.Sound.tasks
    | with_reducible apply Device.Sound.chans | with_reducible apply Device.Sound.convs | rw [List.length_set]
    | rw [List.length_map] | rw [numbered_length] | simp only [List.length_cons, List.length_nil]
    | simp only [Barrier.downWith]

theorem Device.clearLatches_sound (d : Device) (hd : Device.Sound d) :
    Device.Sound (Device.clearLatches d) := by
  unfold Device.clearLatches
  repeat' first
    | with_reducible assumption | (extract_lets -underBinder +onlyGivenNames x; clear_value x)
    | with_reducible apply Device.showMask_sound | with_reducible apply Device.wr_sound
    | with_reducible apply foldl_sound | intro _ | with_reducible apply ite_sound | split | (with_reducible dsimp only)

theorem Device.driveOutputs_sound (d : Device) (hd : Device.Sound d) :
    Device.Sound (Device.driveOutputs d) := by
  unfold Device.driveOutputs
  repeat' first
    | with_reducible assumption | (extract_lets -underBinder +onlyGivenNames x; clear_value x)
    | with_reducible apply Device.wr_sound | with_reducible apply foldl_sound | intro _ | with_reducible apply ite_sound
    | split | (with_reducible dsimp only)

theorem Device.modGuard_sound (d : Device) (f : Guard → Guard) (hd : Device.Sound d) :
    Device.Sound (Device.modGuard d f) := by
  unfold Device.modGuard
  repeat' first
    | with_reducible assumption | (with_reducible dsimp only)
    | (refine Device.Sound.mk ?_ ?_ ?_ ?_ ?_ ?_ ?_ <;> with_reducible dsimp only) | with_reducible apply Device.Sound.wf
    | with_reducible apply Device.Sound.poles | with_reducible apply Device.Sound.arms
    | with_reducible apply Device.Sound.lanes | with_reducible apply Device.Sound.tasks
    | with_reducible apply Device.Sound.chans | with_reducible apply Device.Sound.convs | rw [List.length_set]
    | rw [List.length_map] | rw [numbered_length] | simp only [List.length_cons, List.length_nil]
    | simp only [Barrier.downWith]

theorem Device.hblkNow_sound (d : Device) (sent : List Nat) (hd : Device.Sound d) :
    Device.Sound (Device.hblkNow d sent) := by
  unfold Device.hblkNow
  repeat' first
    | with_reducible assumption
    | (extract_lets -underBinder +onlyGivenNames x; clear_value (hv : x = _); refine (fun (hb : (Barrier.chans x).length = 16) => ?_) ?_; rotate_left; rw [hv]; clear hv x; rotate_left; clear hv)
    | (extract_lets -underBinder +onlyGivenNames x; clear_value (hv : x = _); refine (fun (hb : (Front.chans x).length = 32) => ?_) ?_; rotate_left; rw [hv]; clear hv x; rotate_left; clear hv)
    | (extract_lets -underBinder +onlyGivenNames x; clear_value (hv : x = _); refine (fun (hb : List.length (α := Chan) x = 16) => ?_) ?_; rotate_left; rw [hv]; clear hv x; rotate_left; clear hv)
    | (extract_lets -underBinder +onlyGivenNames x; clear_value x) | with_reducible apply ite_sound | split
    | (with_reducible dsimp only) | (refine Device.Sound.mk ?_ ?_ ?_ ?_ ?_ ?_ ?_ <;> with_reducible dsimp only)
    | with_reducible apply Device.Sound.wf | with_reducible apply Device.Sound.poles
    | with_reducible apply Device.Sound.arms | with_reducible apply Device.Sound.lanes
    | with_reducible apply Device.Sound.tasks | with_reducible apply Device.Sound.chans
    | with_reducible apply Device.Sound.convs | rw [List.length_set] | rw [List.length_map] | rw [numbered_length]
    | simp only [List.length_cons, List.length_nil] | simp only [Barrier.downWith]

theorem Device.setChannels_sound (d : Device) (x1 : Nat) (b : Nat) (sent : List Nat) (hd : Device.Sound d) :
    Device.Sound (Device.setChannels d x1 b sent) := by
  unfold Device.setChannels
  repeat' first
    | with_reducible assumption
    | (extract_lets -underBinder +onlyGivenNames x; clear_value (hv : x = _); refine (fun (hx : Device.Sound x) => ?_) ?_; rotate_left; refine sound_of_eq hv ?_; clear hv x; rotate_left; clear hv)
    | (extract_lets -underBinder +onlyGivenNames x; clear_value x) | with_reducible apply Device.bumpEvent_sound
    | with_reducible apply Device.hblkNow_sound | with_reducible apply Device.modGuard_sound
    | with_reducible apply Device.noteTrigger_sound | with_reducible apply Device.showBlockOut_sound
    | with_reducible apply Device.wr_sound | with_reducible apply ite_sound | split | (with_reducible dsimp only)

theorem Device.judgeSafe_sound (d : Device) (sent : List Nat) (hd : Device.Sound d) :
    Device.Sound (Device.judgeSafe d sent) := by
  unfold Device.judgeSafe
  repeat' first
    | with_reducible assumption | (extract_lets -underBinder +onlyGivenNames x; clear_value x)
    | with_reducible apply Device.modGuard_sound | with_reducible apply Device.setChannels_sound
    | with_reducible apply Device.wr_sound | with_reducible apply ite_sound | split | (with_reducible dsimp only)

theorem Device.validReset_sound (d : Device) (hd : Device.Sound d) :
    Device.Sound (Device.validReset d) := by
  unfold Device.validReset
  repeat' first
    | with_reducible assumption
    | (extract_lets -underBinder +onlyGivenNames x; clear_value (hv : x = _); refine (fun (hx : Device.Sound x) => ?_) ?_; rotate_left; refine sound_of_eq hv ?_; clear hv x; rotate_left; clear hv)
    | (extract_lets -underBinder +onlyGivenNames x; clear_value x) | with_reducible apply Device.bump_sound
    | with_reducible apply Device.bumpEvent_sound | with_reducible apply Device.judgeSafe_sound
    | with_reducible apply Device.setChannels_sound | with_reducible apply Device.wrBit_sound
    | with_reducible apply foldl_sound | intro _ | with_reducible apply ite_sound | split | (with_reducible dsimp only)

theorem Device.fsoeData_sound (d : Device) (v : Nat) (hd : Device.Sound d) :
    Device.Sound (Device.fsoeData d v) := by
  unfold Device.fsoeData
  repeat' first
    | with_reducible assumption
    | (extract_lets -underBinder +onlyGivenNames x; clear_value (hv : x = _); refine (fun (hx : Device.Sound x) => ?_) ?_; rotate_left; refine sound_of_eq hv ?_; clear hv x; rotate_left; clear hv)
    | (extract_lets -underBinder +onlyGivenNames x; clear_value x) | with_reducible apply Device.judgeSafe_sound
    | with_reducible apply Device.modGuard_sound | with_reducible apply Device.validReset_sound
    | with_reducible apply Device.wr_sound | with_reducible apply ite_sound | split | (with_reducible dsimp only)

theorem Device.guardT0_sound (d : Device) (outside : Nat) (hd : Device.Sound d) :
    Device.Sound (Device.guardT0 d outside) := by
  unfold Device.guardT0
  repeat' first
    | with_reducible assumption
    | (extract_lets -underBinder +onlyGivenNames x; clear_value (hv : x = _); refine (fun (hx : Device.Sound x) => ?_) ?_; rotate_left; refine sound_of_eq hv ?_; clear hv x; rotate_left; clear hv)
    | (extract_lets -underBinder +onlyGivenNames x; clear_value x) | with_reducible apply Device.modGuard_sound
    | with_reducible apply Device.tripPole_sound | with_reducible apply foldl_sound | intro _
    | with_reducible apply ite_sound | split | (with_reducible dsimp only)

theorem Device.pairTrip_sound (d : Device) (j : Nat) (sent : List Nat) (hd : Device.Sound d) :
    Device.Sound (Device.pairTrip d j sent) := by
  unfold Device.pairTrip
  repeat' first
    | with_reducible assumption
    | (extract_lets -underBinder +onlyGivenNames x; clear_value (hv : x = _); refine (fun (hx : Device.Sound x) => ?_) ?_; rotate_left; refine sound_of_eq hv ?_; clear hv x; rotate_left; clear hv)
    | (extract_lets -underBinder +onlyGivenNames x; clear_value x) | with_reducible apply Device.bumpEvent_sound
    | with_reducible apply Device.hblkNow_sound | with_reducible apply Device.modGuard_sound
    | with_reducible apply Device.noteTrigger_sound | with_reducible apply Device.showMask_sound
    | with_reducible apply Device.wr_sound | with_reducible apply Device.wrBit_sound | with_reducible apply ite_sound
    | split | (with_reducible dsimp only)

theorem Device.markFailed_sound (d : Device) (k : Nat) (step : Nat) (sent : List Nat) (hd : Device.Sound d) :
    Device.Sound (Device.markFailed d k step sent) := by
  unfold Device.markFailed
  repeat' first
    | with_reducible assumption
    | (extract_lets -underBinder +onlyGivenNames x; clear_value (hv : x = _); refine (fun (hx : Device.Sound x) => ?_) ?_; rotate_left; refine sound_of_eq hv ?_; clear hv x; rotate_left; clear hv)
    | (extract_lets -underBinder +onlyGivenNames x; clear_value x) | with_reducible apply Device.event_sound
    | with_reducible apply Device.pairTrip_sound | with_reducible apply Device.showPairs_sound
    | with_reducible apply Device.wrBit_sound | with_reducible apply ite_sound | split | (with_reducible dsimp only)

theorem Device.outputFault_sound (d : Device) (o : Nat) (hd : Device.Sound d) :
    Device.Sound (Device.outputFault d o) := by
  unfold Device.outputFault
  repeat' first
    | with_reducible assumption | with_reducible apply Device.bumpEvent_sound | with_reducible apply Device.wr_sound
    | with_reducible apply ite_sound | split | (with_reducible dsimp only)

theorem Device.outputsT0_sound (d : Device) (differ : Nat) (hd : Device.Sound d) :
    Device.Sound (Device.outputsT0 d differ) := by
  unfold Device.outputsT0
  repeat' first
    | with_reducible assumption
    | (extract_lets -underBinder +onlyGivenNames x; clear_value (hv : x = _); refine (fun (hx : Device.Sound x) => ?_) ?_; rotate_left; refine sound_of_eq hv ?_; clear hv x; rotate_left; clear hv)
    | (extract_lets -underBinder +onlyGivenNames x; clear_value x) | with_reducible apply Device.driveOutputs_sound
    | with_reducible apply Device.modGuard_sound | with_reducible apply Device.outputFault_sound
    | with_reducible apply Device.wr_sound | with_reducible apply foldl_sound | intro _ | with_reducible apply ite_sound
    | split | (with_reducible dsimp only)

theorem Device.safeStart_sound (d : Device) (hd : Device.Sound d) :
    Device.Sound (Device.safeStart d) := by
  unfold Device.safeStart
  repeat' first
    | with_reducible assumption
    | (extract_lets -underBinder +onlyGivenNames x; clear_value (hv : x = _); refine (fun (hx : Device.Sound x) => ?_) ?_; rotate_left; refine sound_of_eq hv ?_; clear hv x; rotate_left; clear hv)
    | (extract_lets -underBinder +onlyGivenNames x; clear_value x) | with_reducible apply Device.modGuard_sound
    | with_reducible apply Device.setChannels_sound | with_reducible apply Device.wr_sound
    | with_reducible apply ite_sound | split | (with_reducible dsimp only)

theorem Device.testBegin_sound (d : Device) (k : Nat) (swapped : Bool) (hd : Device.Sound d) :
    Device.Sound (Device.testBegin d k swapped) := by
  unfold Device.testBegin
  repeat' first
    | with_reducible assumption | (extract_lets -underBinder +onlyGivenNames x; clear_value x)
    | with_reducible apply Device.modGuard_sound | with_reducible apply Device.wr_sound | with_reducible apply ite_sound
    | split | (with_reducible dsimp only)

theorem Device.testEnd_sound (d : Device) (hd : Device.Sound d) :
    Device.Sound (Device.testEnd d) := by
  unfold Device.testEnd
  repeat' first
    | with_reducible assumption | with_reducible apply Device.modGuard_sound | with_reducible apply Device.wr_sound

theorem Device.zeroEnergyT0_sound (d : Device) (hd : Device.Sound d) :
    Device.Sound (Device.zeroEnergyT0 d) := by
  unfold Device.zeroEnergyT0
  repeat' first
    | with_reducible assumption
    | (extract_lets -underBinder +onlyGivenNames x; clear_value (hv : x = _); refine (fun (hx : Device.Sound x) => ?_) ?_; rotate_left; refine sound_of_eq hv ?_; clear hv x; rotate_left; clear hv)
    | (extract_lets -underBinder +onlyGivenNames x; clear_value x) | with_reducible apply Device.modGuard_sound
    | with_reducible apply Device.wr_sound | with_reducible apply Device.wrF_sound | with_reducible apply ite_sound
    | split | (with_reducible dsimp only)

theorem execBlankingWindowEnd_keeps (j : Nat) (w : Nat) (s : State) :
    Keeps s (execBlankingWindowEnd j w s) := by
  unfold execBlankingWindowEnd
  refine State.run_keeps fun d hd => ?_
  repeat' first
    | with_reducible assumption | (extract_lets -underBinder +onlyGivenNames x; clear_value x)
    | with_reducible apply Device.modGuard_sound | with_reducible apply State.run_keeps | intro _
    | with_reducible apply ite_sound | split | (with_reducible dsimp only)

theorem execBlockOutReadbackMismatch_keeps (s : State) :
    Keeps s (execBlockOutReadbackMismatch s) := by
  unfold execBlockOutReadbackMismatch
  refine State.run_keeps fun d hd => ?_
  repeat' first
    | with_reducible assumption | with_reducible apply Device.bumpEvent_sound | with_reducible apply State.run_keeps
    | intro _ | with_reducible apply ite_sound | split | (with_reducible dsimp only)

theorem execComparatorSelfTest_keeps (s : State) :
    Keeps s (execComparatorSelfTest s) := by
  unfold execComparatorSelfTest
  refine State.run_keeps fun d hd => ?_
  repeat' first
    | with_reducible assumption | (extract_lets -underBinder +onlyGivenNames x; clear_value x)
    | with_reducible apply Device.accum_sound | with_reducible apply Device.modGuard_sound
    | with_reducible apply Device.testBegin_sound | with_reducible apply State.run_keeps | intro _
    | with_reducible apply ite_sound | split | (with_reducible dsimp only)

theorem execComparatorTestStep_keeps (pass : Bool) (s : State) :
    Keeps s (execComparatorTestStep pass s) := by
  unfold execComparatorTestStep
  refine State.run_keeps fun d hd => ?_
  repeat' first
    | with_reducible assumption
    | (extract_lets -underBinder +onlyGivenNames x; clear_value (hv : x = _); refine (fun (hx : Device.Sound x) => ?_) ?_; rotate_left; refine sound_of_eq hv ?_; clear hv x; rotate_left; clear hv)
    | (extract_lets -underBinder +onlyGivenNames x; clear_value x) | with_reducible apply Device.bump_sound
    | with_reducible apply Device.drawn_sound | with_reducible apply Device.markFailed_sound
    | with_reducible apply Device.modGuard_sound | with_reducible apply Device.testBegin_sound
    | with_reducible apply Device.testEnd_sound | with_reducible apply State.run_keeps | intro _
    | with_reducible apply ite_sound | split | (with_reducible dsimp only)

theorem execComparatorTrip_keeps (k : Nat) (cycle : Nat) (sent : List Nat) (s : State) :
    Keeps s (execComparatorTrip k cycle sent s) := by
  unfold execComparatorTrip
  refine State.run_keeps fun d hd => ?_
  repeat' first
    | with_reducible assumption | (extract_lets -underBinder +onlyGivenNames x; clear_value x)
    | with_reducible apply Device.modGuard_sound | with_reducible apply Device.pairTrip_sound
    | with_reducible apply State.run_keeps | intro _ | with_reducible apply ite_sound | split
    | (with_reducible dsimp only)

theorem execDiscrepancyFault_keeps (i : Nat) (s : State) :
    Keeps s (execDiscrepancyFault i s) := by
  unfold execDiscrepancyFault
  refine State.run_keeps fun d hd => ?_
  repeat' first
    | with_reducible assumption | (extract_lets -underBinder +onlyGivenNames x; clear_value x)
    | with_reducible apply Device.bumpEvent_sound | with_reducible apply Device.judgeSafe_sound
    | with_reducible apply Device.wrBit_sound | with_reducible apply State.run_keeps | intro _
    | with_reducible apply ite_sound | split | (with_reducible dsimp only)

theorem execFsoeFrame_keeps (conn : Nat) (data : Nat) (s : State) :
    Keeps s (execFsoeFrame conn data s) := by
  unfold execFsoeFrame
  refine State.run_keeps fun d hd => ?_
  repeat' first
    | with_reducible assumption
    | (extract_lets -underBinder +onlyGivenNames x; clear_value (hv : x = _); refine (fun (hx : Device.Sound x) => ?_) ?_; rotate_left; refine sound_of_eq hv ?_; clear hv x; rotate_left; clear hv)
    | (extract_lets -underBinder +onlyGivenNames x; clear_value x) | with_reducible apply Device.bump_sound
    | with_reducible apply Device.fsoeData_sound | with_reducible apply Device.modGuard_sound
    | with_reducible apply Device.wr_sound | with_reducible apply State.run_keeps | intro _
    | with_reducible apply ite_sound | split | (with_reducible dsimp only)

theorem execFsoeWatchdogExpiry_keeps (s : State) :
    Keeps s (execFsoeWatchdogExpiry s) := by
  unfold execFsoeWatchdogExpiry
  refine State.run_keeps fun d hd => ?_
  repeat' first
    | with_reducible assumption | with_reducible apply Device.bump_sound | with_reducible apply Device.driveOutputs_sound
    | with_reducible apply Device.fsoeData_sound | with_reducible apply Device.wr_sound
    | with_reducible apply State.run_keeps | intro _ | with_reducible apply ite_sound | split
    | (with_reducible dsimp only)

theorem execOutputTestPulse_keeps (o : Nat) (b : Bool) (released : Bool) (s : State) :
    Keeps s (execOutputTestPulse o b released s) := by
  unfold execOutputTestPulse
  refine State.run_keeps fun d hd => ?_
  repeat' first
    | with_reducible assumption | (extract_lets -underBinder +onlyGivenNames x; clear_value x)
    | with_reducible apply Device.outputFault_sound | with_reducible apply State.run_keeps | intro _
    | with_reducible apply ite_sound | split | (with_reducible dsimp only)

theorem execSafeBlockDisagreement_keeps (s : State) :
    Keeps s (execSafeBlockDisagreement s) := by
  unfold execSafeBlockDisagreement
  refine State.run_keeps fun d hd => ?_
  repeat' first
    | with_reducible assumption | with_reducible apply Device.event_sound | with_reducible apply Device.modGuard_sound
    | with_reducible apply State.run_keeps | intro _ | with_reducible apply ite_sound | split
    | (with_reducible dsimp only)

theorem execSafeInputFiltered_keeps (i : Nat) (b : Bool) (level : Bool) (sent : List Nat) (s : State) :
    Keeps s (execSafeInputFiltered i b level sent s) := by
  unfold execSafeInputFiltered
  refine State.run_keeps fun d hd => ?_
  repeat' first
    | with_reducible assumption
    | (extract_lets -underBinder +onlyGivenNames x; clear_value (hv : x = _); refine (fun (hx : Device.Sound x) => ?_) ?_; rotate_left; refine sound_of_eq hv ?_; clear hv x; rotate_left; clear hv)
    | (extract_lets -underBinder +onlyGivenNames x; clear_value x) | with_reducible apply Device.judgeSafe_sound
    | with_reducible apply Device.modGuard_sound | with_reducible apply Device.wrBit_sound
    | with_reducible apply State.run_keeps | intro _ | with_reducible apply ite_sound | split
    | (with_reducible dsimp only)

theorem execSafeResetEdge_keeps (highMs : Nat) (lowMs : Nat) (s : State) :
    Keeps s (execSafeResetEdge highMs lowMs s) := by
  unfold execSafeResetEdge
  refine State.run_keeps fun d hd => ?_
  repeat' first
    | with_reducible assumption
    | (extract_lets -underBinder +onlyGivenNames x; clear_value (hv : x = _); refine (fun (hx : Device.Sound x) => ?_) ?_; rotate_left; refine sound_of_eq hv ?_; clear hv x; rotate_left; clear hv)
    | (extract_lets -underBinder +onlyGivenNames x; clear_value x) | with_reducible apply Device.modGuard_sound
    | with_reducible apply Device.validReset_sound | with_reducible apply Device.wr_sound
    | with_reducible apply State.run_keeps | intro _ | with_reducible apply ite_sound | split
    | (with_reducible dsimp only)

theorem execSafeResetStuck_keeps (s : State) :
    Keeps s (execSafeResetStuck s) := by
  unfold execSafeResetStuck
  refine State.run_keeps fun d hd => ?_
  repeat' first
    | with_reducible assumption | with_reducible apply Device.bumpEvent_sound | with_reducible apply Device.wr_sound
    | with_reducible apply State.run_keeps | intro _ | with_reducible apply ite_sound | split
    | (with_reducible dsimp only)

theorem execZeroEnergyHoldExpiry_keeps (s : State) :
    Keeps s (execZeroEnergyHoldExpiry s) := by
  unfold execZeroEnergyHoldExpiry
  refine State.run_keeps fun d hd => ?_
  repeat' first
    | with_reducible assumption | with_reducible apply Device.bumpEvent_sound
    | with_reducible apply Device.driveOutputs_sound | with_reducible apply Device.wr_sound
    | with_reducible apply State.run_keeps | intro _ | with_reducible apply ite_sound | split
    | (with_reducible dsimp only)

end Sys2Proof.Machine
end

