-- ==== Sys2Proof/Laws/SoundSession.lean ====
section
/-! SUPPORT. Every operation of Machine/Session.lean keeps a sound device sound; every command of it completes and
leaves the queue alone. -/
namespace Sys2Proof.Machine

set_option linter.all false
set_option Elab.async false

theorem Device.modSession_sound (d : Device) (f : Session → Session) (hd : Device.Sound d) :
    Device.Sound (Device.modSession d f) := by
  unfold Device.modSession
  repeat' first
    | with_reducible assumption | (with_reducible dsimp only)
    | (refine Device.Sound.mk ?_ ?_ ?_ ?_ ?_ ?_ ?_ <;> with_reducible dsimp only) | with_reducible apply Device.Sound.wf
    | with_reducible apply Device.Sound.poles | with_reducible apply Device.Sound.arms
    | with_reducible apply Device.Sound.lanes | with_reducible apply Device.Sound.tasks
    | with_reducible apply Device.Sound.chans | with_reducible apply Device.Sound.convs | rw [List.length_set]
    | rw [List.length_map] | rw [numbered_length] | simp only [List.length_cons, List.length_nil]
    | simp only [Barrier.downWith]

theorem Device.showLog_sound (d : Device) (hd : Device.Sound d) :
    Device.Sound (Device.showLog d) := by
  unfold Device.showLog
  repeat' first
    | with_reducible assumption | (extract_lets -underBinder +onlyGivenNames x; clear_value x)
    | with_reducible apply Device.wr_sound | with_reducible apply ite_sound | split | (with_reducible dsimp only)

theorem Device.logChange_sound (d : Device) (kind : Nat) (object : Nat) (old : Nat) (new : Nat) (hd : Device.Sound d) :
    Device.Sound (Device.logChange d kind object old new) := by
  unfold Device.logChange
  repeat' first
    | with_reducible assumption | (extract_lets -underBinder +onlyGivenNames x; clear_value x)
    | with_reducible apply Device.modSession_sound | with_reducible apply Device.showLog_sound

theorem Device.logFullEvent_sound (d : Device) (hd : Device.Sound d) :
    Device.Sound (Device.logFullEvent d) := by
  unfold Device.logFullEvent
  repeat' first
    | with_reducible assumption | with_reducible apply Device.event_sound | with_reducible apply ite_sound | split
    | (with_reducible dsimp only)

theorem Device.logRws_sound (d : Device) (idx : Nat) (sub : Nat) (old : Nat) (new : Nat) (hd : Device.Sound d) :
    Device.Sound (Device.logRws d idx sub old new) := by
  unfold Device.logRws
  repeat' first
    | with_reducible assumption | (extract_lets -underBinder +onlyGivenNames x; clear_value x)
    | with_reducible apply Device.logChange_sound

theorem Device.newSecret_sound (d : Device) (bs : List Nat) (hd : Device.Sound d) :
    Device.Sound (Device.newSecret d bs).2 := by
  unfold Device.newSecret
  repeat' first
    | with_reducible assumption
    | (extract_lets -underBinder +onlyGivenNames x; clear_value (hv : x = _); refine (fun (hb : (Barrier.chans x).length = 16) => ?_) ?_; rotate_left; rw [hv]; clear hv x; rotate_left; clear hv)
    | (extract_lets -underBinder +onlyGivenNames x; clear_value (hv : x = _); refine (fun (hb : (Front.chans x).length = 32) => ?_) ?_; rotate_left; rw [hv]; clear hv x; rotate_left; clear hv)
    | (extract_lets -underBinder +onlyGivenNames x; clear_value (hv : x = _); refine (fun (hb : List.length (α := Chan) x = 16) => ?_) ?_; rotate_left; rw [hv]; clear hv x; rotate_left; clear hv)
    | (extract_lets -underBinder +onlyGivenNames x; clear_value x) | (with_reducible dsimp only)
    | (refine Device.Sound.mk ?_ ?_ ?_ ?_ ?_ ?_ ?_ <;> with_reducible dsimp only) | with_reducible apply Device.Sound.wf
    | with_reducible apply Device.Sound.poles | with_reducible apply Device.Sound.arms
    | with_reducible apply Device.Sound.lanes | with_reducible apply Device.Sound.tasks
    | with_reducible apply Device.Sound.chans | with_reducible apply Device.Sound.convs | rw [List.length_set]
    | rw [List.length_map] | rw [numbered_length] | simp only [List.length_cons, List.length_nil]
    | simp only [Barrier.downWith]

/-- The same for the parts of the pair. -/
theorem Device.newSecret_sound_eq {d : Device} {bs : List Nat} {z : Device} {e : _} (he : Device.newSecret d bs = (e, z)) (hd : Device.Sound d) : Device.Sound z := by
  have h := Device.newSecret_sound d bs hd
  rwa [he] at h

theorem Device.rwsUsed_sound (d : Device) (hd : Device.Sound d) :
    Device.Sound (Device.rwsUsed d) := by
  unfold Device.rwsUsed
  repeat' first
    | with_reducible assumption | with_reducible apply Device.modSession_sound

theorem Device.pendSafety_sound (d : Device) (key : Nat) (v : Nat) (hd : Device.Sound d) :
    Device.Sound (Device.pendSafety d key v) := by
  unfold Device.pendSafety
  repeat' first
    | with_reducible assumption
    | (extract_lets -underBinder +onlyGivenNames x; clear_value (hv : x = _); refine (fun (hx : Device.Sound x) => ?_) ?_; rotate_left; refine sound_of_eq hv ?_; clear hv x; rotate_left; clear hv)
    | (extract_lets -underBinder +onlyGivenNames x; clear_value x) | with_reducible apply Device.modSession_sound
    | with_reducible apply Device.rwsUsed_sound | with_reducible apply Device.wr_sound
    | with_reducible apply Device.wrAll_sound

theorem Device.safetyLoad_sound (d : Device) (hd : Device.Sound d) :
    Device.Sound (Device.safetyLoad d) := by
  unfold Device.safetyLoad
  repeat' first
    | with_reducible assumption
    | (extract_lets -underBinder +onlyGivenNames x; clear_value (hv : x = _); refine (fun (hx : Device.Sound x) => ?_) ?_; rotate_left; refine sound_of_eq hv ?_; clear hv x; rotate_left; clear hv)
    | (extract_lets -underBinder +onlyGivenNames x; clear_value x) | with_reducible apply Device.showMask_sound
    | with_reducible apply Device.wr_sound | with_reducible apply Device.wrAll_sound | with_reducible apply ite_sound
    | split | (with_reducible dsimp only)

theorem Device.safetyEffect_sound (d : Device) (hd : Device.Sound d) :
    Device.Sound (Device.safetyEffect d) := by
  unfold Device.safetyEffect
  repeat' first
    | with_reducible assumption
    | (extract_lets -underBinder +onlyGivenNames x; clear_value (hv : x = _); refine (fun (hx : Device.Sound x) => ?_) ?_; rotate_left; refine sound_of_eq hv ?_; clear hv x; rotate_left; clear hv)
    | (extract_lets -underBinder +onlyGivenNames x; clear_value x) | with_reducible apply Device.judgeSafe_sound
    | with_reducible apply Device.modSession_sound | with_reducible apply Device.safetyLoad_sound
    | with_reducible apply Device.setChannels_sound | with_reducible apply ite_sound | split
    | (with_reducible dsimp only)

theorem Device.sdoRws_sound (d : Device) (idx : Nat) (sub : Nat) (len : Nat) (v : Nat) (f : Device → Device) (hd : Device.Sound d) (hf : ∀ y0, Device.Sound y0 → Device.Sound (f y0)) :
    Device.Sound (Device.sdoRws d idx sub len v f) := by
  unfold Device.sdoRws
  repeat' first
    | with_reducible assumption | with_reducible apply Device.abort_sound | with_reducible apply Device.done_sound
    | with_reducible apply Device.logFullEvent_sound | with_reducible apply Device.rwsUsed_sound
    | with_reducible apply hf | intro _ | with_reducible apply ite_sound | split | (with_reducible dsimp only)

theorem Device.showLockout_sound (d : Device) (hd : Device.Sound d) :
    Device.Sound (Device.showLockout d) := by
  unfold Device.showLockout
  repeat' first
    | with_reducible assumption | with_reducible apply Device.wr_sound | with_reducible apply ite_sound | split
    | (with_reducible dsimp only)

theorem Device.showSession_sound (d : Device) (hd : Device.Sound d) :
    Device.Sound (Device.showSession d) := by
  unfold Device.showSession
  repeat' first
    | with_reducible assumption | with_reducible apply Device.showLog_sound | with_reducible apply Device.wrB_sound

theorem execLogAcknowledge_keeps (seq : Nat) (wasRead : Bool) (s : State) :
    Keeps s (execLogAcknowledge seq wasRead s) := by
  unfold execLogAcknowledge
  refine State.run_keeps fun d hd => ?_
  repeat' first
    | with_reducible assumption
    | (extract_lets -underBinder +onlyGivenNames x; clear_value (hv : x = _); refine (fun (hx : Device.Sound x) => ?_) ?_; rotate_left; refine sound_of_eq hv ?_; clear hv x; rotate_left; clear hv)
    | (extract_lets -underBinder +onlyGivenNames x; clear_value x) | with_reducible apply Device.abort_sound
    | with_reducible apply Device.logChange_sound | with_reducible apply Device.modSession_sound
    | with_reducible apply Device.sdoRws_sound | with_reducible apply State.run_keeps | with_reducible apply odWf_odPut
    | with_reducible apply odWf_puts | with_reducible apply odWf_filter | with_reducible exact Device.reset_sound
    | intro _ | with_reducible apply ite_sound | split | (with_reducible dsimp only)
    | (refine Device.Sound.mk ?_ ?_ ?_ ?_ ?_ ?_ ?_ <;> with_reducible dsimp only) | with_reducible apply Device.Sound.wf
    | with_reducible apply Device.Sound.poles | with_reducible apply Device.Sound.arms
    | with_reducible apply Device.Sound.lanes | with_reducible apply Device.Sound.tasks
    | with_reducible apply Device.Sound.chans | with_reducible apply Device.Sound.convs | rw [List.length_set]
    | rw [List.length_map] | rw [numbered_length] | simp only [List.length_cons, List.length_nil]
    | simp only [Barrier.downWith]

theorem execNewPassphrase_keeps (pass : List Nat) (s : State) :
    Keeps s (execNewPassphrase pass s) := by
  unfold execNewPassphrase
  refine State.run_keeps fun d hd => ?_
  repeat' first
    | with_reducible assumption | (extract_lets -underBinder +onlyGivenNames x; clear_value x)
    | with_reducible apply Device.abort_sound | with_reducible apply Device.logChange_sound
    | with_reducible apply Device.modSession_sound | with_reducible refine Device.newSecret_sound_eq (by assumption) ?_
    | with_reducible apply Device.newSecret_sound | with_reducible apply Device.sdoRws_sound
    | with_reducible apply Device.wr_sound | with_reducible apply State.run_keeps | intro _
    | with_reducible apply ite_sound | split | (with_reducible dsimp only)

theorem execSafetyCommit_keeps (s : State) :
    Keeps s (execSafetyCommit s) := by
  unfold execSafetyCommit
  refine State.run_keeps fun d hd => ?_
  repeat' first
    | with_reducible assumption
    | (extract_lets -underBinder +onlyGivenNames x; clear_value (hv : x = _); refine (fun (hx : Device.Sound x) => ?_) ?_; rotate_left; refine sound_of_eq hv ?_; clear hv x; rotate_left; clear hv)
    | (extract_lets -underBinder +onlyGivenNames x; clear_value x) | with_reducible apply Device.abort_sound
    | with_reducible apply Device.logChange_sound | with_reducible apply Device.logFullEvent_sound
    | with_reducible apply Device.modSession_sound | with_reducible apply Device.sdoRws_sound
    | with_reducible apply Device.wr_sound | with_reducible apply Device.wrAll_sound
    | with_reducible apply State.run_keeps | intro _ | with_reducible apply ite_sound | split
    | (with_reducible dsimp only)

theorem execSafetyDiscard_keeps (s : State) :
    Keeps s (execSafetyDiscard s) := by
  unfold execSafetyDiscard
  refine State.run_keeps fun d hd => ?_
  repeat' first
    | with_reducible assumption | with_reducible apply Device.modSession_sound | with_reducible apply Device.sdoRws_sound
    | with_reducible apply Device.wr_sound | with_reducible apply State.run_keeps | intro _

theorem execSessionClose_keeps (s : State) :
    Keeps s (execSessionClose s) := by
  unfold execSessionClose
  refine State.run_keeps fun d hd => ?_
  repeat' first
    | with_reducible assumption | with_reducible apply Device.closeSession_sound | with_reducible apply Device.sdo_sound
    | with_reducible apply State.run_keeps | intro _

theorem execSessionIdleExpiry_keeps (s : State) :
    Keeps s (execSessionIdleExpiry s) := by
  unfold execSessionIdleExpiry
  refine State.run_keeps fun d hd => ?_
  repeat' first
    | with_reducible assumption | with_reducible apply Device.closeSession_sound | with_reducible apply State.run_keeps
    | intro _ | with_reducible apply ite_sound | split | (with_reducible dsimp only)

theorem execSessionLockoutExpiry_keeps (s : State) :
    Keeps s (execSessionLockoutExpiry s) := by
  unfold execSessionLockoutExpiry
  refine State.run_keeps fun d hd => ?_
  repeat' first
    | with_reducible assumption | (extract_lets -underBinder +onlyGivenNames x; clear_value x)
    | with_reducible apply Device.modSession_sound | with_reducible apply Device.wr_sound
    | with_reducible apply State.run_keeps | intro _ | with_reducible apply ite_sound | split
    | (with_reducible dsimp only)

theorem execSessionOpen_keeps (pass : List Nat) (s : State) :
    Keeps s (execSessionOpen pass s) := by
  unfold execSessionOpen
  refine State.run_keeps fun d hd => ?_
  repeat' first
    | with_reducible assumption
    | (extract_lets -underBinder +onlyGivenNames x; clear_value (hv : x = _); refine (fun (hx : Device.Sound x) => ?_) ?_; rotate_left; refine sound_of_eq hv ?_; clear hv x; rotate_left; clear hv)
    | (extract_lets -underBinder +onlyGivenNames x; clear_value x) | with_reducible apply Device.abort_sound
    | with_reducible apply Device.bump_sound | with_reducible apply Device.modSession_sound
    | with_reducible apply Device.sdo_sound | with_reducible apply Device.wr_sound | with_reducible apply State.run_keeps
    | intro _ | with_reducible apply ite_sound | split | (with_reducible dsimp only)

end Sys2Proof.Machine
end

