-- ==== Sys2Proof/Laws/SoundAccess.lean ====
section
/-! SUPPORT. Every operation of Machine/Access.lean keeps a sound device sound; every command of it completes and
leaves the queue alone. -/
namespace Sys2Proof.Machine

set_option linter.all false
set_option Elab.async false

theorem Device.modStation_sound (d : Device) (f : Station → Station) (hd : Device.Sound d) :
    Device.Sound (Device.modStation d f) := by
  unfold Device.modStation
  repeat' first
    | with_reducible assumption | (with_reducible dsimp only)
    | (refine Device.Sound.mk ?_ ?_ ?_ ?_ ?_ ?_ ?_ <;> with_reducible dsimp only) | with_reducible apply Device.Sound.wf
    | with_reducible apply Device.Sound.poles | with_reducible apply Device.Sound.arms
    | with_reducible apply Device.Sound.lanes | with_reducible apply Device.Sound.tasks
    | with_reducible apply Device.Sound.chans | with_reducible apply Device.Sound.convs | rw [List.length_set]
    | rw [List.length_map] | rw [numbered_length] | simp only [List.length_cons, List.length_nil]
    | simp only [Barrier.downWith]

theorem Device.conductRegEn_sound (d : Device) (module : Bool) (hd : Device.Sound d) :
    Device.Sound (Device.conductRegEn d module) := by
  unfold Device.conductRegEn
  repeat' first
    | with_reducible assumption | with_reducible apply Device.modStation_sound | with_reducible apply Device.wr_sound

theorem Device.toObserver_sound (d : Device) (hd : Device.Sound d) :
    Device.Sound (Device.toObserver d) := by
  unfold Device.toObserver
  repeat' first
    | with_reducible assumption
    | (extract_lets -underBinder +onlyGivenNames x; clear_value (hv : x = _); refine (fun (hx : Device.Sound x) => ?_) ?_; rotate_left; refine sound_of_eq hv ?_; clear hv x; rotate_left; clear hv)
    | (extract_lets -underBinder +onlyGivenNames x; clear_value x) | with_reducible apply Device.modBoot_sound
    | with_reducible apply Device.modStation_sound | with_reducible apply Device.wr_sound
    | with_reducible apply ite_sound | split | (with_reducible dsimp only)

theorem Device.enterAl_sound (d : Device) (st : Nat) (code : Nat) (hd : Device.Sound d) :
    Device.Sound (Device.enterAl d st code) := by
  unfold Device.enterAl
  repeat' first
    | with_reducible assumption
    | (extract_lets -underBinder +onlyGivenNames x; clear_value (hv : x = _); refine (fun (hx : Device.Sound x) => ?_) ?_; rotate_left; refine sound_of_eq hv ?_; clear hv x; rotate_left; clear hv)
    | (extract_lets -underBinder +onlyGivenNames x; clear_value x) | with_reducible apply Device.modStation_sound
    | with_reducible apply Device.toObserver_sound | with_reducible apply ite_sound | split | (with_reducible dsimp only)

theorem Device.judgeEdge_sound (d : Device) (deviationNs : Int) (hd : Device.Sound d) :
    Device.Sound (Device.judgeEdge d deviationNs) := by
  unfold Device.judgeEdge
  repeat' first
    | with_reducible assumption
    | (extract_lets -underBinder +onlyGivenNames x; clear_value (hv : x = _); refine (fun (hx : Device.Sound x) => ?_) ?_; rotate_left; refine sound_of_eq hv ?_; clear hv x; rotate_left; clear hv)
    | (extract_lets -underBinder +onlyGivenNames x; clear_value x) | with_reducible apply Device.bump_sound
    | with_reducible apply Device.enterAl_sound | with_reducible apply Device.modStation_sound
    | with_reducible apply Device.stEvent_sound | with_reducible apply ite_sound | split | (with_reducible dsimp only)

theorem Device.showPdStatus_sound (d : Device) (hd : Device.Sound d) :
    Device.Sound (Device.showPdStatus d) := by
  unfold Device.showPdStatus
  repeat' first
    | with_reducible assumption | (extract_lets -underBinder +onlyGivenNames x; clear_value x)
    | with_reducible apply Device.wr_sound

theorem Device.placeSm3_sound (d : Device) (hd : Device.Sound d) :
    Device.Sound (Device.placeSm3 d) := by
  unfold Device.placeSm3
  repeat' first
    | with_reducible assumption
    | (extract_lets -underBinder +onlyGivenNames x; clear_value (hv : x = _); refine (fun (hx : Device.Sound x) => ?_) ?_; rotate_left; refine sound_of_eq hv ?_; clear hv x; rotate_left; clear hv)
    | (extract_lets -underBinder +onlyGivenNames x; clear_value x) | with_reducible apply Device.modStation_sound
    | with_reducible apply Device.showPdStatus_sound | with_reducible apply Device.wr_sound
    | with_reducible apply ite_sound | split | (with_reducible dsimp only)

theorem Device.recorderEcc_sound (d : Device) (slot : Nat) (t : Nat) (w : Nat) (pair : Option Nat) (hd : Device.Sound d) :
    Device.Sound (Device.recorderEcc d slot t w pair) := by
  unfold Device.recorderEcc
  repeat' first
    | with_reducible assumption
    | (extract_lets -underBinder +onlyGivenNames x; clear_value (hv : x = _); refine (fun (hb : (Barrier.chans x).length = 16) => ?_) ?_; rotate_left; rw [hv]; clear hv x; rotate_left; clear hv)
    | (extract_lets -underBinder +onlyGivenNames x; clear_value (hv : x = _); refine (fun (hb : (Front.chans x).length = 32) => ?_) ?_; rotate_left; rw [hv]; clear hv x; rotate_left; clear hv)
    | (extract_lets -underBinder +onlyGivenNames x; clear_value (hv : x = _); refine (fun (hb : List.length (α := Chan) x = 16) => ?_) ?_; rotate_left; rw [hv]; clear hv x; rotate_left; clear hv)
    | (extract_lets -underBinder +onlyGivenNames x; clear_value x) | with_reducible apply foldl_sound | intro _
    | with_reducible apply ite_sound | split | (with_reducible dsimp only)
    | (refine Device.Sound.mk ?_ ?_ ?_ ?_ ?_ ?_ ?_ <;> with_reducible dsimp only) | with_reducible apply Device.Sound.wf
    | with_reducible apply Device.Sound.poles | with_reducible apply Device.Sound.arms
    | with_reducible apply Device.Sound.lanes | with_reducible apply Device.Sound.tasks
    | with_reducible apply Device.Sound.chans | with_reducible apply Device.Sound.convs | rw [List.length_set]
    | rw [List.length_map] | rw [numbered_length] | simp only [List.length_cons, List.length_nil]
    | simp only [Barrier.downWith]

theorem Device.recorderWritten_sound (d : Device) (sub : Nat) (hd : Device.Sound d) :
    Device.Sound (Device.recorderWritten d sub) := by
  unfold Device.recorderWritten
  repeat' first
    | with_reducible assumption | with_reducible apply Device.armRecorder_sound
    | with_reducible apply Device.showSlots_sound | with_reducible apply ite_sound | split | (with_reducible dsimp only)
    | (refine Device.Sound.mk ?_ ?_ ?_ ?_ ?_ ?_ ?_ <;> with_reducible dsimp only) | with_reducible apply Device.Sound.wf
    | with_reducible apply Device.Sound.poles | with_reducible apply Device.Sound.arms
    | with_reducible apply Device.Sound.lanes | with_reducible apply Device.Sound.tasks
    | with_reducible apply Device.Sound.chans | with_reducible apply Device.Sound.convs | rw [List.length_set]
    | rw [List.length_map] | rw [numbered_length] | simp only [List.length_cons, List.length_nil]
    | simp only [Barrier.downWith]

theorem Device.refuseAl_sound (d : Device) (code : Nat) (hd : Device.Sound d) :
    Device.Sound (Device.refuseAl d code) := by
  unfold Device.refuseAl
  repeat' first
    | with_reducible assumption | with_reducible apply Device.modStation_sound

theorem Device.resetCommand_sound (d : Device) (code : Nat) (lost : Bool) (module : Bool) (hd : Device.Sound d) :
    Device.Sound (Device.resetCommand d code lost module) := by
  unfold Device.resetCommand
  repeat' first
    | with_reducible assumption | with_reducible apply Device.abort_sound
    | with_reducible apply Device.conductRegEn_sound | with_reducible apply Device.sdo_sound
    | with_reducible apply Device.wr_sound | intro _ | with_reducible apply ite_sound | split
    | (with_reducible dsimp only)

theorem Device.sdoEffect_sound (d : Device) (idx : Nat) (sub : Nat) (v : Nat) (hd : Device.Sound d) :
    Device.Sound (Device.sdoEffect d idx sub v) := by
  unfold Device.sdoEffect
  repeat' first
    | with_reducible assumption
    | (extract_lets -underBinder +onlyGivenNames x; clear_value (hv : x = _); refine (fun (hx : Device.Sound x) => ?_) ?_; rotate_left; refine sound_of_eq hv ?_; clear hv x; rotate_left; clear hv)
    | (extract_lets -underBinder +onlyGivenNames x; clear_value x) | with_reducible apply Device.abort_sound
    | with_reducible apply Device.accept_sound | with_reducible apply Device.holdLaneWrite_sound
    | with_reducible apply Device.logRws_sound | with_reducible apply Device.pendSafety_sound
    | with_reducible apply Device.recorderWritten_sound | with_reducible apply Device.rwsUsed_sound
    | with_reducible apply Device.stEvent_sound | with_reducible apply Device.wr_sound | with_reducible apply ite_sound
    | split | (with_reducible dsimp only)

theorem Device.sendImage_sound (d : Device) (hd : Device.Sound d) :
    Device.Sound (Device.sendImage d) := by
  unfold Device.sendImage
  repeat' first
    | with_reducible assumption | with_reducible apply Device.send_sound

theorem Device.sendSm2_sound (d : Device) (hd : Device.Sound d) :
    Device.Sound (Device.sendSm2 d) := by
  unfold Device.sendSm2
  repeat' first
    | with_reducible assumption
    | (extract_lets -underBinder +onlyGivenNames x; clear_value (hv : x = _); refine (fun (hx : Device.Sound x) => ?_) ?_; rotate_left; refine sound_of_eq hv ?_; clear hv x; rotate_left; clear hv)
    | (extract_lets -underBinder +onlyGivenNames x; clear_value (hv : x = _); refine (fun (hx : Device.Sound (SendResult.dev x)) => ?_) ?_; rotate_left; refine sound_of_eq_send hv ?_; clear hv x; rotate_left; clear hv)
    | (extract_lets -underBinder +onlyGivenNames x; clear_value x) | with_reducible apply Device.bump_sound
    | with_reducible apply Device.modStation_sound | with_reducible apply Device.send_sound
    | with_reducible apply Device.stEvent_sound | with_reducible apply ite_sound | split | (with_reducible dsimp only)

theorem Device.stationReboot_sound (d : Device) (hd : Device.Sound d) :
    Device.Sound (Device.stationReboot d) := by
  unfold Device.stationReboot
  repeat' first
    | with_reducible assumption
    | (extract_lets -underBinder +onlyGivenNames x; clear_value (hv : x = _); refine (fun (hx : Device.Sound x) => ?_) ?_; rotate_left; refine sound_of_eq hv ?_; clear hv x; rotate_left; clear hv)
    | (extract_lets -underBinder +onlyGivenNames x; clear_value (hv : x = _); refine (fun (hb : (Barrier.chans x).length = 16) => ?_) ?_; rotate_left; rw [hv]; clear hv x; rotate_left; clear hv)
    | (extract_lets -underBinder +onlyGivenNames x; clear_value (hv : x = _); refine (fun (hb : (Front.chans x).length = 32) => ?_) ?_; rotate_left; rw [hv]; clear hv x; rotate_left; clear hv)
    | (extract_lets -underBinder +onlyGivenNames x; clear_value (hv : x = _); refine (fun (hb : List.length (α := Chan) x = 16) => ?_) ?_; rotate_left; rw [hv]; clear hv x; rotate_left; clear hv)
    | (extract_lets -underBinder +onlyGivenNames x; clear_value x) | with_reducible apply Device.stationReset_sound
    | (with_reducible dsimp only) | (refine Device.Sound.mk ?_ ?_ ?_ ?_ ?_ ?_ ?_ <;> with_reducible dsimp only)
    | with_reducible apply Device.Sound.wf | with_reducible apply Device.Sound.poles
    | with_reducible apply Device.Sound.arms | with_reducible apply Device.Sound.lanes
    | with_reducible apply Device.Sound.tasks | with_reducible apply Device.Sound.chans
    | with_reducible apply Device.Sound.convs | rw [List.length_set] | rw [List.length_map] | rw [numbered_length]
    | simp only [List.length_cons, List.length_nil] | simp only [Barrier.downWith]

theorem execAccessIdleExpiry_keeps (s : State) :
    Keeps s (execAccessIdleExpiry s) := by
  unfold execAccessIdleExpiry
  refine State.run_keeps fun d hd => ?_
  repeat' first
    | with_reducible assumption | with_reducible apply Device.toObserver_sound | with_reducible apply State.run_keeps
    | intro _ | with_reducible apply ite_sound | split | (with_reducible dsimp only)

theorem execAccessLockoutExpiry_keeps (s : State) :
    Keeps s (execAccessLockoutExpiry s) := by
  unfold execAccessLockoutExpiry
  refine State.run_keeps fun d hd => ?_
  repeat' first
    | with_reducible assumption | (extract_lets -underBinder +onlyGivenNames x; clear_value x)
    | with_reducible apply Device.modStation_sound | with_reducible apply State.run_keeps | intro _
    | with_reducible apply ite_sound | split | (with_reducible dsimp only)

theorem execAcknowledge_keeps (s : State) :
    Keeps s (execAcknowledge s) := by
  unfold execAcknowledge
  refine State.run_keeps fun d hd => ?_
  repeat' first
    | with_reducible assumption | with_reducible apply Device.sdo_sound | with_reducible apply Device.wr_sound
    | with_reducible apply Device.wrBit_sound | with_reducible apply State.run_keeps | intro _

theorem execAlStateRequest_keeps (target : Nat) (dcEnabled : Bool) (sync0Ns : Nat) (s : State) :
    Keeps s (execAlStateRequest target dcEnabled sync0Ns s) := by
  unfold execAlStateRequest
  refine State.run_keeps fun d hd => ?_
  repeat' first
    | with_reducible assumption
    | (extract_lets -underBinder +onlyGivenNames x; clear_value (hv : x = _); refine (fun (hx : Device.Sound x) => ?_) ?_; rotate_left; refine sound_of_eq hv ?_; clear hv x; rotate_left; clear hv)
    | (extract_lets -underBinder +onlyGivenNames x; clear_value x) | with_reducible apply Device.enterAl_sound
    | with_reducible apply Device.modStation_sound | with_reducible apply Device.refuseAl_sound
    | with_reducible apply Device.wr_sound | with_reducible apply State.run_keeps | intro _
    | with_reducible apply ite_sound | split | (with_reducible dsimp only)

theorem execDramUncorrectableWord_keeps (recorder : Bool) (slot : Nat) (t : Nat) (w : Nat) (pair : Option Nat) (s : State) :
    Keeps s (execDramUncorrectableWord recorder slot t w pair s) := by
  unfold execDramUncorrectableWord
  refine State.run_keeps fun d hd => ?_
  repeat' first
    | with_reducible assumption | with_reducible apply Device.recorderEcc_sound
    | with_reducible apply Device.stationReboot_sound | with_reducible apply State.run_keeps | intro _
    | with_reducible apply ite_sound | split | (with_reducible dsimp only)

theorem execEcatPortLink_keeps (up : Bool) (s : State) :
    Keeps s (execEcatPortLink up s) := by
  unfold execEcatPortLink
  refine State.run_keeps fun d hd => ?_
  repeat' first
    | with_reducible assumption | with_reducible apply Device.modStation_sound | with_reducible apply State.run_keeps
    | intro _ | with_reducible apply ite_sound | split | (with_reducible dsimp only)

theorem execEmcySend_keeps (s : State) :
    Keeps s (execEmcySend s) := by
  unfold execEmcySend
  refine State.run_keeps fun d hd => ?_
  repeat' first
    | with_reducible assumption
    | (extract_lets -underBinder +onlyGivenNames x; clear_value (hv : x = _); refine (fun (hx : Device.Sound x) => ?_) ?_; rotate_left; refine sound_of_eq hv ?_; clear hv x; rotate_left; clear hv)
    | (extract_lets -underBinder +onlyGivenNames x; clear_value x) | with_reducible apply Device.modStation_sound
    | with_reducible apply Device.wr_sound | with_reducible apply State.run_keeps | intro _
    | with_reducible apply ite_sound | split | (with_reducible dsimp only)

theorem execFoeReadRun_keeps (password : Nat) (s : State) :
    Keeps s (execFoeReadRun password s) := by
  unfold execFoeReadRun
  refine State.run_keeps fun d hd => ?_
  repeat' first
    | with_reducible assumption
    | (extract_lets -underBinder +onlyGivenNames x; clear_value (hv : x = _); refine (fun (hx : Device.Sound x) => ?_) ?_; rotate_left; refine sound_of_eq hv ?_; clear hv x; rotate_left; clear hv)
    | (extract_lets -underBinder +onlyGivenNames x; clear_value (hv : x = _); refine (fun (hb : (Barrier.chans x).length = 16) => ?_) ?_; rotate_left; rw [hv]; clear hv x; rotate_left; clear hv)
    | (extract_lets -underBinder +onlyGivenNames x; clear_value (hv : x = _); refine (fun (hb : (Front.chans x).length = 32) => ?_) ?_; rotate_left; rw [hv]; clear hv x; rotate_left; clear hv)
    | (extract_lets -underBinder +onlyGivenNames x; clear_value (hv : x = _); refine (fun (hb : List.length (α := Chan) x = 16) => ?_) ?_; rotate_left; rw [hv]; clear hv x; rotate_left; clear hv)
    | (extract_lets -underBinder +onlyGivenNames x; clear_value x) | with_reducible apply Device.foeError_sound
    | with_reducible apply Device.foeFile_sound | with_reducible apply State.run_keeps | intro _
    | with_reducible apply ite_sound | split | (with_reducible dsimp only)
    | (refine Device.Sound.mk ?_ ?_ ?_ ?_ ?_ ?_ ?_ <;> with_reducible dsimp only) | with_reducible apply Device.Sound.wf
    | with_reducible apply Device.Sound.poles | with_reducible apply Device.Sound.arms
    | with_reducible apply Device.Sound.lanes | with_reducible apply Device.Sound.tasks
    | with_reducible apply Device.Sound.chans | with_reducible apply Device.Sound.convs | rw [List.length_set]
    | rw [List.length_map] | rw [numbered_length] | simp only [List.length_cons, List.length_nil]
    | simp only [Barrier.downWith]

theorem execLogin_keeps (bytes : List Nat) (s : State) :
    Keeps s (execLogin bytes s) := by
  unfold execLogin
  refine State.run_keeps fun d hd => ?_
  repeat' first
    | with_reducible assumption
    | (extract_lets -underBinder +onlyGivenNames x; clear_value (hv : x = _); refine (fun (hx : Device.Sound x) => ?_) ?_; rotate_left; refine sound_of_eq hv ?_; clear hv x; rotate_left; clear hv)
    | (extract_lets -underBinder +onlyGivenNames x; clear_value x) | with_reducible apply Device.abort_sound
    | with_reducible apply Device.bump_sound | with_reducible apply Device.modStation_sound
    | with_reducible apply Device.sdo_sound | with_reducible apply Device.stEvent_sound
    | with_reducible apply Device.wr_sound | with_reducible apply State.run_keeps | intro _
    | with_reducible apply ite_sound | split | (with_reducible dsimp only)

theorem execLogout_keeps (s : State) :
    Keeps s (execLogout s) := by
  unfold execLogout
  refine State.run_keeps fun d hd => ?_
  repeat' first
    | with_reducible assumption | with_reducible apply Device.sdo_sound | with_reducible apply Device.toObserver_sound
    | with_reducible apply State.run_keeps | intro _

theorem execManualTrigger_keeps (v : Nat) (s : State) :
    Keeps s (execManualTrigger v s) := by
  unfold execManualTrigger
  refine State.run_keeps fun d hd => ?_
  repeat' first
    | with_reducible assumption | with_reducible apply Device.noteTrigger_sound | with_reducible apply Device.sdo_sound
    | with_reducible apply State.run_keeps | intro _ | with_reducible apply ite_sound | split
    | (with_reducible dsimp only)

theorem execRegEnToggleEnd_keeps (s : State) :
    Keeps s (execRegEnToggleEnd s) := by
  unfold execRegEnToggleEnd
  refine State.run_keeps fun d hd => ?_
  repeat' first
    | with_reducible assumption
    | (extract_lets -underBinder +onlyGivenNames x; clear_value (hv : x = _); refine (fun (hx : Device.Sound x) => ?_) ?_; rotate_left; refine sound_of_eq hv ?_; clear hv x; rotate_left; clear hv)
    | (extract_lets -underBinder +onlyGivenNames x; clear_value x) | with_reducible apply Device.modStation_sound
    | with_reducible apply Device.stationReboot_sound | with_reducible apply State.run_keeps | intro _
    | with_reducible apply ite_sound | split | (with_reducible dsimp only)

theorem execResetModule_keeps (lost : Bool) (s : State) :
    Keeps s (execResetModule lost s) := by
  unfold execResetModule
  refine State.run_keeps fun d hd => ?_
  repeat' first
    | with_reducible assumption | with_reducible apply Device.resetCommand_sound | with_reducible apply State.run_keeps
    | intro _

theorem execResetPlant_keeps (lost : Bool) (s : State) :
    Keeps s (execResetPlant lost s) := by
  unfold execResetPlant
  refine State.run_keeps fun d hd => ?_
  repeat' first
    | with_reducible assumption | with_reducible apply Device.resetCommand_sound | with_reducible apply State.run_keeps
    | intro _

theorem execResetStation_keeps (s : State) :
    Keeps s (execResetStation s) := by
  unfold execResetStation
  refine State.run_keeps fun d hd => ?_
  repeat' first
    | with_reducible assumption | with_reducible apply Device.sdo_sound | with_reducible apply Device.stationReboot_sound
    | with_reducible apply State.run_keeps | intro _

theorem execSResetNLow_keeps (s : State) :
    Keeps s (execSResetNLow s) := by
  unfold execSResetNLow
  refine State.run_keeps fun d hd => ?_
  repeat' first
    | with_reducible assumption | with_reducible apply Device.modBoot_sound
    | with_reducible apply Device.stationReboot_sound | with_reducible apply State.run_keeps | intro _
    | with_reducible apply ite_sound | split | (with_reducible dsimp only)

theorem execSetCredential_keeps (bytes : List Nat) (s : State) :
    Keeps s (execSetCredential bytes s) := by
  unfold execSetCredential
  refine State.run_keeps fun d hd => ?_
  repeat' first
    | with_reducible assumption
    | (extract_lets -underBinder +onlyGivenNames x; clear_value (hv : x = _); refine (fun (hx : Device.Sound x) => ?_) ?_; rotate_left; refine sound_of_eq hv ?_; clear hv x; rotate_left; clear hv)
    | (extract_lets -underBinder +onlyGivenNames x; clear_value x) | with_reducible apply Device.abort_sound
    | with_reducible apply Device.modStation_sound | with_reducible refine Device.newSecret_sound_eq (by assumption) ?_
    | with_reducible apply Device.newSecret_sound | with_reducible apply Device.sdo_sound
    | with_reducible apply Device.stEvent_sound | with_reducible apply Device.wrBit_sound
    | with_reducible apply State.run_keeps | intro _ | with_reducible apply ite_sound | split
    | (with_reducible dsimp only)

theorem execSm2BufferComplete_keeps (bytes : List Nat) (s : State) :
    Keeps s (execSm2BufferComplete bytes s) := by
  unfold execSm2BufferComplete
  refine State.run_keeps fun d hd => ?_
  repeat' first
    | with_reducible assumption
    | (extract_lets -underBinder +onlyGivenNames x; clear_value (hv : x = _); refine (fun (hx : Device.Sound x) => ?_) ?_; rotate_left; refine sound_of_eq hv ?_; clear hv x; rotate_left; clear hv)
    | (extract_lets -underBinder +onlyGivenNames x; clear_value x) | with_reducible apply Device.modStation_sound
    | with_reducible apply Device.sendSm2_sound | with_reducible apply State.run_keeps | intro _
    | with_reducible apply ite_sound | split | (with_reducible dsimp only)

theorem execSm2WatchdogExpiry_keeps (s : State) :
    Keeps s (execSm2WatchdogExpiry s) := by
  unfold execSm2WatchdogExpiry
  refine State.run_keeps fun d hd => ?_
  repeat' first
    | with_reducible assumption | with_reducible apply Device.enterAl_sound | with_reducible apply State.run_keeps
    | intro _ | with_reducible apply ite_sound | split | (with_reducible dsimp only)

theorem execSm3BufferRead_keeps (s : State) :
    Keeps s (execSm3BufferRead s) := by
  unfold execSm3BufferRead
  refine State.run_keeps fun d hd => ?_
  repeat' first
    | with_reducible assumption | with_reducible apply Device.placeSm3_sound | with_reducible apply State.run_keeps
    | intro _ | with_reducible apply ite_sound | split | (with_reducible dsimp only)

theorem execStationSupplyLoss_keeps (s : State) :
    Keeps s (execStationSupplyLoss s) := by
  unfold execStationSupplyLoss
  refine State.run_keeps fun d hd => ?_
  repeat' first
    | with_reducible assumption | with_reducible apply Device.modBoot_sound
    | with_reducible apply Device.stationReboot_sound | with_reducible apply State.run_keeps | intro _
    | with_reducible apply ite_sound | split | (with_reducible dsimp only)

theorem execSync0Edge_keeps (deviationNs : Int) (s : State) :
    Keeps s (execSync0Edge deviationNs s) := by
  unfold execSync0Edge
  refine State.run_keeps fun d hd => ?_
  repeat' first
    | with_reducible assumption
    | (extract_lets -underBinder +onlyGivenNames x; clear_value (hv : x = _); refine (fun (hx : Device.Sound x) => ?_) ?_; rotate_left; refine sound_of_eq hv ?_; clear hv x; rotate_left; clear hv)
    | (extract_lets -underBinder +onlyGivenNames x; clear_value x) | with_reducible apply Device.judgeEdge_sound
    | with_reducible apply Device.modStation_sound | with_reducible apply Device.placeSm3_sound
    | with_reducible apply Device.sendSm2_sound | with_reducible apply Device.wrBit_sound
    | with_reducible apply State.run_keeps | intro _ | with_reducible apply ite_sound | split
    | (with_reducible dsimp only)

end Sys2Proof.Machine
end

