-- ==== Sys2Proof/Laws/SoundRank.lean ====
section
/-! SUPPORT. Every operation of Machine/Rank.lean keeps a sound device sound; every command of it completes and
leaves the queue alone. -/
namespace Sys2Proof.Machine

set_option linter.all false
set_option Elab.async false

theorem Device.forceRelease_sound (d : Device) (x1 : Nat) (st : Nat) (cause : Nat) (hd : Device.Sound d) :
    Device.Sound (Device.forceRelease d x1 st cause) := by
  unfold Device.forceRelease
  repeat' first
    | with_reducible assumption
    | (extract_lets -underBinder +onlyGivenNames x; clear_value (hv : x = _); refine (fun (hx : Device.Sound x) => ?_) ?_; rotate_left; refine sound_of_eq hv ?_; clear hv x; rotate_left; clear hv)
    | (extract_lets -underBinder +onlyGivenNames x; clear_value x) | with_reducible apply Device.event_sound
    | with_reducible apply Device.modArm_sound | with_reducible apply Device.wr_sound | with_reducible apply ite_sound
    | split | (with_reducible dsimp only)

theorem Device.setArmState_sound (d : Device) (x1 : Nat) (st : Nat) (hd : Device.Sound d) :
    Device.Sound (Device.setArmState d x1 st) := by
  unfold Device.setArmState
  repeat' first
    | with_reducible assumption | with_reducible apply Device.wr_sound | with_reducible apply ite_sound | split
    | (with_reducible dsimp only)

theorem Device.armActivate_sound (d : Device) (x1 : Nat) (hd : Device.Sound d) :
    Device.Sound (Device.armActivate d x1) := by
  unfold Device.armActivate
  repeat' first
    | with_reducible assumption
    | (extract_lets -underBinder +onlyGivenNames x; clear_value (hv : x = _); refine (fun (hx : Device.Sound x) => ?_) ?_; rotate_left; refine sound_of_eq hv ?_; clear hv x; rotate_left; clear hv)
    | (extract_lets -underBinder +onlyGivenNames x; clear_value x) | with_reducible apply Device.forceRelease_sound
    | with_reducible apply Device.modArm_sound | with_reducible apply Device.setArmState_sound
    | with_reducible apply Device.wr_sound | with_reducible apply ite_sound | split | (with_reducible dsimp only)

theorem Device.armBlock_sound (d : Device) (x1 : Nat) (hd : Device.Sound d) :
    Device.Sound (Device.armBlock d x1) := by
  unfold Device.armBlock
  repeat' first
    | with_reducible assumption
    | (extract_lets -underBinder +onlyGivenNames x; clear_value (hv : x = _); refine (fun (hx : Device.Sound x) => ?_) ?_; rotate_left; refine sound_of_eq hv ?_; clear hv x; rotate_left; clear hv)
    | (extract_lets -underBinder +onlyGivenNames x; clear_value x) | with_reducible apply Device.accum_sound
    | with_reducible apply Device.forceRelease_sound | with_reducible apply Device.modArm_sound
    | with_reducible apply Device.setArmState_sound | with_reducible apply Device.wr_sound
    | with_reducible apply odWf_odPut | with_reducible apply odWf_puts | with_reducible apply odWf_filter
    | with_reducible exact Device.reset_sound | with_reducible apply ite_sound | split | (with_reducible dsimp only)
    | (refine Device.Sound.mk ?_ ?_ ?_ ?_ ?_ ?_ ?_ <;> with_reducible dsimp only) | with_reducible apply Device.Sound.wf
    | with_reducible apply Device.Sound.poles | with_reducible apply Device.Sound.arms
    | with_reducible apply Device.Sound.lanes | with_reducible apply Device.Sound.tasks
    | with_reducible apply Device.Sound.chans | with_reducible apply Device.Sound.convs | rw [List.length_set]
    | rw [List.length_map] | rw [numbered_length] | simp only [List.length_cons, List.length_nil]
    | simp only [Barrier.downWith]

theorem Device.armResize_sound (d : Device) (x1 : Nat) (hd : Device.Sound d) :
    Device.Sound (Device.armResize d x1) := by
  unfold Device.armResize
  repeat' first
    | with_reducible assumption
    | (extract_lets -underBinder +onlyGivenNames x; clear_value (hv : x = _); refine (fun (hx : Device.Sound x) => ?_) ?_; rotate_left; refine sound_of_eq hv ?_; clear hv x; rotate_left; clear hv)
    | (extract_lets -underBinder +onlyGivenNames x; clear_value x) | with_reducible apply Device.armActivate_sound
    | with_reducible apply Device.modArm_sound

theorem Device.armStart_sound (d : Device) (x1 : Nat) (st : Nat) (hd : Device.Sound d) :
    Device.Sound (Device.armStart d x1 st) := by
  unfold Device.armStart
  repeat' first
    | with_reducible assumption
    | (extract_lets -underBinder +onlyGivenNames x; clear_value (hv : x = _); refine (fun (hx : Device.Sound x) => ?_) ?_; rotate_left; refine sound_of_eq hv ?_; clear hv x; rotate_left; clear hv)
    | (extract_lets -underBinder +onlyGivenNames x; clear_value x) | with_reducible apply Device.modArm_sound
    | with_reducible apply Device.setArmState_sound | with_reducible apply Device.wr_sound
    | with_reducible apply ite_sound | split | (with_reducible dsimp only)

theorem Device.armsBegin_sound (d : Device) (hd : Device.Sound d) :
    Device.Sound (Device.armsBegin d) := by
  unfold Device.armsBegin
  repeat' first
    | with_reducible assumption | (with_reducible dsimp only)
    | (refine Device.Sound.mk ?_ ?_ ?_ ?_ ?_ ?_ ?_ <;> with_reducible dsimp only) | with_reducible apply Device.Sound.wf
    | with_reducible apply Device.Sound.poles | with_reducible apply Device.Sound.arms
    | with_reducible apply Device.Sound.lanes | with_reducible apply Device.Sound.tasks
    | with_reducible apply Device.Sound.chans | with_reducible apply Device.Sound.convs | rw [List.length_set]
    | rw [List.length_map] | rw [numbered_length] | simp only [List.length_cons, List.length_nil]
    | simp only [Barrier.downWith]

theorem Device.armsFollow_sound (d : Device) (p : Nat) (live : Nat) (hd : Device.Sound d) :
    Device.Sound (Device.armsFollow d p live) := by
  unfold Device.armsFollow
  repeat' first
    | with_reducible assumption | with_reducible apply Device.armBlock_sound | with_reducible apply Device.armStart_sound
    | with_reducible apply foldl_sound | intro _ | with_reducible apply ite_sound | split | (with_reducible dsimp only)

theorem Device.bypassCell_sound (d : Device) (x1 : Nat) (c : Nat) (cause : Nat) (r : Nat) (hd : Device.Sound d) :
    Device.Sound (Device.bypassCell d x1 c cause r) := by
  unfold Device.bypassCell
  repeat' first
    | with_reducible assumption
    | (extract_lets -underBinder +onlyGivenNames x; clear_value (hv : x = _); refine (fun (hx : Device.Sound x) => ?_) ?_; rotate_left; refine sound_of_eq hv ?_; clear hv x; rotate_left; clear hv)
    | (extract_lets -underBinder +onlyGivenNames x; clear_value x) | with_reducible apply Device.event_sound
    | with_reducible apply Device.modArm_sound | with_reducible apply ite_sound | split | (with_reducible dsimp only)

theorem Device.latchCell_sound (d : Device) (x1 : Nat) (c : Nat) (hd : Device.Sound d) :
    Device.Sound (Device.latchCell d x1 c) := by
  unfold Device.latchCell
  repeat' first
    | with_reducible assumption
    | (extract_lets -underBinder +onlyGivenNames x; clear_value (hv : x = _); refine (fun (hx : Device.Sound x) => ?_) ?_; rotate_left; refine sound_of_eq hv ?_; clear hv x; rotate_left; clear hv)
    | (extract_lets -underBinder +onlyGivenNames x; clear_value (hv : x = _); refine (fun (hf : ∀ y : Device, Device.Sound y → Device.Sound (x y)) => ?_) ?_; rotate_left; refine sound_of_eq_fun hv ?_; clear hv x; rotate_left; clear hv)
    | (extract_lets -underBinder +onlyGivenNames x; clear_value (hv : x = _); refine (fun (hf : ∀ (y : Device) (z : _), Device.Sound y → Device.Sound (x y z)) => ?_) ?_; rotate_left; refine sound_of_eq_fun₂ hv ?_; clear hv x; rotate_left; clear hv)
    | (extract_lets -underBinder +onlyGivenNames x; clear_value (hv : x = _); refine (fun (hf : ∀ (y : Device) (z : _) (w : _), Device.Sound y → Device.Sound (x y z w)) => ?_) ?_; rotate_left; refine sound_of_eq_fun₃ hv ?_; clear hv x; rotate_left; clear hv)
    | (extract_lets -underBinder +onlyGivenNames x; clear_value x) | with_reducible apply Device.bumpEvent_sound
    | with_reducible apply Device.bypassCell_sound | with_reducible apply Device.modArm_sound | with_reducible apply hf
    | intro _ | with_reducible apply ite_sound | split | (with_reducible dsimp only)

theorem latchArm_sound (d : Device) (x1 : Nat) (hd : Device.Sound d) :
    Device.Sound (latchArm d x1) := by
  unfold latchArm
  repeat' first
    | with_reducible assumption
    | (extract_lets -underBinder +onlyGivenNames x; clear_value (hv : x = _); refine (fun (hx : Device.Sound x) => ?_) ?_; rotate_left; refine sound_of_eq hv ?_; clear hv x; rotate_left; clear hv)
    | (extract_lets -underBinder +onlyGivenNames x; clear_value x) | with_reducible apply Device.armFault_sound
    | with_reducible apply Device.latchCell_sound | with_reducible apply foldl_sound | intro _
    | with_reducible apply ite_sound | split | (with_reducible dsimp only)

theorem Device.automaticBypass_sound (d : Device) (hd : Device.Sound d) :
    Device.Sound (Device.automaticBypass d) := by
  unfold Device.automaticBypass
  repeat' first
    | with_reducible assumption | with_reducible apply latchArm_sound | with_reducible apply foldl_sound | intro _
    | (with_reducible dsimp only)

theorem Device.cellImages_sound (d : Device) (hd : Device.Sound d) :
    Device.Sound (Device.cellImages d) := by
  unfold Device.cellImages
  repeat' first
    | with_reducible assumption | with_reducible apply Device.wr_sound | with_reducible apply foldl_sound | intro _
    | (with_reducible dsimp only)

theorem Device.forceEffect_sound (d : Device) (hd : Device.Sound d) :
    Device.Sound (Device.forceEffect d) := by
  unfold Device.forceEffect
  repeat' first
    | with_reducible assumption | (extract_lets -underBinder +onlyGivenNames x; clear_value x)
    | with_reducible apply Device.modArm_sound | with_reducible apply Device.wr_sound | with_reducible apply foldl_sound
    | intro _ | with_reducible apply ite_sound | split | (with_reducible dsimp only)

theorem Device.forceWritten_sound (d : Device) (x1 : Nat) (hd : Device.Sound d) :
    Device.Sound (Device.forceWritten d x1) := by
  unfold Device.forceWritten
  repeat' first
    | with_reducible assumption | (extract_lets -underBinder +onlyGivenNames x; clear_value x)
    | with_reducible apply Device.modArm_sound

theorem Device.showArmEvents_sound (d : Device) (x1 : Nat) (hd : Device.Sound d) :
    Device.Sound (Device.showArmEvents d x1) := by
  unfold Device.showArmEvents
  repeat' first
    | with_reducible assumption
    | (extract_lets -underBinder +onlyGivenNames x; clear_value (hv : x = _); refine (fun (hx : Device.Sound x) => ?_) ?_; rotate_left; refine sound_of_eq hv ?_; clear hv x; rotate_left; clear hv)
    | (extract_lets -underBinder +onlyGivenNames x; clear_value x) | with_reducible apply Device.bumpBy_sound
    | with_reducible apply Device.modArm_sound | with_reducible apply ite_sound | split | (with_reducible dsimp only)

theorem Device.voltStats_sound (d : Device) (x1 : Nat) (hd : Device.Sound d) :
    Device.Sound (Device.voltStats d x1) := by
  unfold Device.voltStats
  repeat' first
    | with_reducible assumption | (extract_lets -underBinder +onlyGivenNames x; clear_value x)
    | with_reducible apply Device.wr_sound | with_reducible apply Device.wrF_sound | with_reducible apply foldl_sound
    | with_reducible apply odWf_odPut | with_reducible apply odWf_puts | with_reducible apply odWf_filter
    | with_reducible exact Device.reset_sound | intro _ | with_reducible apply ite_sound | split
    | (with_reducible dsimp only) | (refine Device.Sound.mk ?_ ?_ ?_ ?_ ?_ ?_ ?_ <;> with_reducible dsimp only)
    | with_reducible apply Device.Sound.wf | with_reducible apply Device.Sound.poles
    | with_reducible apply Device.Sound.arms | with_reducible apply Device.Sound.lanes
    | with_reducible apply Device.Sound.tasks | with_reducible apply Device.Sound.chans
    | with_reducible apply Device.Sound.convs | rw [List.length_set] | rw [List.length_map] | rw [numbered_length]
    | simp only [List.length_cons, List.length_nil] | simp only [Barrier.downWith]

theorem Device.rankCommit_sound (d : Device) (x1 : Nat) (o : RankOut) (hd : Device.Sound d) :
    Device.Sound (Device.rankCommit d x1 o) := by
  unfold Device.rankCommit
  repeat' first
    | with_reducible assumption
    | (extract_lets -underBinder +onlyGivenNames x; clear_value (hv : x = _); refine (fun (hx : Device.Sound x) => ?_) ?_; rotate_left; refine sound_of_eq hv ?_; clear hv x; rotate_left; clear hv)
    | (extract_lets -underBinder +onlyGivenNames x; clear_value x) | with_reducible apply Device.accum_sound
    | with_reducible apply Device.armFault_sound | with_reducible apply Device.bump_sound
    | with_reducible apply Device.bumpBy_sound | with_reducible apply Device.modArm_sound
    | with_reducible apply Device.showArmEvents_sound | with_reducible apply Device.voltStats_sound
    | with_reducible apply Device.wr_sound | with_reducible apply Device.wrI_sound | with_reducible apply odWf_odPut
    | with_reducible apply odWf_puts | with_reducible apply odWf_filter | with_reducible exact Device.reset_sound
    | with_reducible apply ite_sound | split | (with_reducible dsimp only)
    | (refine Device.Sound.mk ?_ ?_ ?_ ?_ ?_ ?_ ?_ <;> with_reducible dsimp only) | with_reducible apply Device.Sound.wf
    | with_reducible apply Device.Sound.poles | with_reducible apply Device.Sound.arms
    | with_reducible apply Device.Sound.lanes | with_reducible apply Device.Sound.tasks
    | with_reducible apply Device.Sound.chans | with_reducible apply Device.Sound.convs | rw [List.length_set]
    | rw [List.length_map] | rw [numbered_length] | simp only [List.length_cons, List.length_nil]
    | simp only [Barrier.downWith]

theorem Device.rankEngine_sound (d : Device) (hd : Device.Sound d) :
    Device.Sound (Device.rankEngine d) := by
  unfold Device.rankEngine
  repeat' first
    | with_reducible assumption | (extract_lets -underBinder +onlyGivenNames x; clear_value x)
    | with_reducible apply Device.modArm_sound | with_reducible apply foldl_sound | intro _
    | with_reducible apply ite_sound | split | (with_reducible dsimp only)

theorem Device.showBands_sound (d : Device) (hd : Device.Sound d) :
    Device.Sound (Device.showBands d) := by
  unfold Device.showBands
  repeat' first
    | with_reducible assumption | with_reducible apply Device.wrF_sound | with_reducible apply foldl_sound | intro _
    | (with_reducible dsimp only)

theorem execExclusionMapWrite_keeps (x0 : Nat) (map : Nat) (s : State) :
    Keeps s (execExclusionMapWrite x0 map s) := by
  unfold execExclusionMapWrite
  refine State.run_keeps fun d hd => ?_
  repeat' first
    | with_reducible assumption | (extract_lets -underBinder +onlyGivenNames x; clear_value x)
    | with_reducible apply Device.abort_sound | with_reducible apply Device.accept_sound
    | with_reducible apply Device.sdo_sound | with_reducible apply State.run_keeps | intro _
    | with_reducible apply ite_sound | split | (with_reducible dsimp only)

theorem execForceRequest_keeps (x0 : Nat) (scope : Nat) (pattern : Nat) (lanes : Nat) (level : Nat) (offset : Nat) (s : State) :
    Keeps s (execForceRequest x0 scope pattern lanes level offset s) := by
  unfold execForceRequest
  refine State.run_keeps fun d hd => ?_
  repeat' first
    | with_reducible assumption
    | (extract_lets -underBinder +onlyGivenNames x; clear_value (hv : x = _); refine (fun (hx : Device.Sound x) => ?_) ?_; rotate_left; refine sound_of_eq hv ?_; clear hv x; rotate_left; clear hv)
    | (extract_lets -underBinder +onlyGivenNames x; clear_value x) | with_reducible apply Device.abort_sound
    | with_reducible apply Device.accept_sound | with_reducible apply Device.done_sound
    | with_reducible apply Device.modArm_sound | with_reducible apply State.run_keeps | with_reducible apply foldl_sound
    | intro _ | with_reducible apply ite_sound | split | (with_reducible dsimp only)

end Sys2Proof.Machine
end

