-- ==== Sys2Proof/Laws/SoundPoleControl.lean ====
section
/-! SUPPORT. Every operation of Machine/PoleControl.lean keeps a sound device sound; every command of it completes and
leaves the queue alone. -/
namespace Sys2Proof.Machine

set_option linter.all false
set_option Elab.async false

theorem Device.enEnter_sound (d : Device) (p : Nat) (st : Nat) (hd : Device.Sound d) :
    Device.Sound (Device.enEnter d p st) := by
  unfold Device.enEnter
  repeat' first
    | with_reducible assumption | (extract_lets -underBinder +onlyGivenNames x; clear_value x)
    | with_reducible apply Device.modPole_sound | with_reducible apply Device.wr_sound

theorem Device.raiseRequest_sound (d : Device) (p : Nat) (b : Nat) (reason : Nat) (hd : Device.Sound d) :
    Device.Sound (Device.raiseRequest d p b reason) := by
  unfold Device.raiseRequest
  repeat' first
    | with_reducible assumption
    | (extract_lets -underBinder +onlyGivenNames x; clear_value (hv : x = _); refine (fun (hx : Device.Sound x) => ?_) ?_; rotate_left; refine sound_of_eq hv ?_; clear hv x; rotate_left; clear hv)
    | (extract_lets -underBinder +onlyGivenNames x; clear_value x) | with_reducible apply Device.bumpEvent_sound
    | with_reducible apply Device.showBreakers_sound | with_reducible apply Device.wr_sound
    | with_reducible apply ite_sound | split | (with_reducible dsimp only)

theorem Device.enReport_sound (d : Device) (p : Nat) (hd : Device.Sound d) :
    Device.Sound (Device.enReport d p) := by
  unfold Device.enReport
  repeat' first
    | with_reducible assumption
    | (extract_lets -underBinder +onlyGivenNames x; clear_value (hv : x = _); refine (fun (hx : Device.Sound x) => ?_) ?_; rotate_left; refine sound_of_eq hv ?_; clear hv x; rotate_left; clear hv)
    | (extract_lets -underBinder +onlyGivenNames x; clear_value x) | with_reducible apply Device.bumpEvent_sound
    | with_reducible apply Device.raiseRequest_sound | with_reducible apply Device.tripPole_sound

theorem Device.enAbort_sound (d : Device) (p : Nat) (reason : Nat) (hd : Device.Sound d) :
    Device.Sound (Device.enAbort d p reason) := by
  unfold Device.enAbort
  repeat' first
    | with_reducible assumption | with_reducible apply Device.enEnter_sound | with_reducible apply Device.enReport_sound
    | with_reducible apply Device.wr_sound

theorem Device.abortCharge_sound (d : Device) (p : Nat) (hd : Device.Sound d) :
    Device.Sound (Device.abortCharge d p) := by
  unfold Device.abortCharge
  repeat' first
    | with_reducible assumption | (extract_lets -underBinder +onlyGivenNames x; clear_value x)
    | with_reducible apply Device.enAbort_sound | with_reducible apply ite_sound | split | (with_reducible dsimp only)

theorem Device.setGoto_sound (d : Device) (p : Nat) (g : Nat) (hd : Device.Sound d) :
    Device.Sound (Device.setGoto d p g) := by
  unfold Device.setGoto
  repeat' first
    | with_reducible assumption | with_reducible apply Device.modPole_sound

theorem Device.blockPole_sound (d : Device) (p : Nat) (hd : Device.Sound d) :
    Device.Sound (Device.blockPole d p) := by
  unfold Device.blockPole
  repeat' first
    | with_reducible assumption | (extract_lets -underBinder +onlyGivenNames x; clear_value x)
    | with_reducible apply Device.abortCharge_sound | with_reducible apply Device.setGoto_sound
    | with_reducible apply ite_sound | split | (with_reducible dsimp only)

theorem Device.blockAll_sound (d : Device) (hd : Device.Sound d) :
    Device.Sound (Device.blockAll d) := by
  unfold Device.blockAll
  repeat' first
    | with_reducible assumption | with_reducible apply Device.blockPole_sound

theorem Device.setSub_sound (d : Device) (p : Nat) (b : Nat) (on : Bool) (hd : Device.Sound d) :
    Device.Sound (Device.setSub d p b on) := by
  unfold Device.setSub
  repeat' first
    | with_reducible assumption | with_reducible apply Device.wrBit_sound

theorem Device.dcNormal_sound (d : Device) (p : Nat) (hd : Device.Sound d) :
    Device.Sound (Device.dcNormal d p) := by
  unfold Device.dcNormal
  repeat' first
    | with_reducible assumption | (extract_lets -underBinder +onlyGivenNames x; clear_value x)
    | with_reducible apply Device.modPole_sound | with_reducible apply Device.setSub_sound
    | with_reducible apply Device.wr_sound

theorem Device.levelRequest_sound (d : Device) (p : Nat) (b : Nat) (on : Bool) (hd : Device.Sound d) :
    Device.Sound (Device.levelRequest d p b on) := by
  unfold Device.levelRequest
  repeat' first
    | with_reducible assumption | with_reducible apply Device.showBreakers_sound
    | with_reducible apply Device.wrBit_sound

theorem Device.enGo_sound (d : Device) (p : Nat) (dst : Nat) (reason : Nat) (hd : Device.Sound d) :
    Device.Sound (Device.enGo d p dst reason) := by
  unfold Device.enGo
  repeat' first
    | with_reducible assumption
    | (extract_lets -underBinder +onlyGivenNames x; clear_value (hv : x = _); refine (fun (hx : Device.Sound x) => ?_) ?_; rotate_left; refine sound_of_eq hv ?_; clear hv x; rotate_left; clear hv)
    | (extract_lets -underBinder +onlyGivenNames x; clear_value x) | with_reducible apply Device.armsFollow_sound
    | with_reducible apply Device.enAbort_sound | with_reducible apply Device.enEnter_sound
    | with_reducible apply Device.levelRequest_sound | with_reducible apply Device.modPole_sound
    | with_reducible apply ite_sound | split | (with_reducible dsimp only)

theorem Device.lossNeutral_sound (d : Device) (p : Nat) (hd : Device.Sound d) :
    Device.Sound (Device.lossNeutral d p) := by
  unfold Device.lossNeutral
  repeat' first
    | with_reducible assumption
    | (extract_lets -underBinder +onlyGivenNames x; clear_value (hv : x = _); refine (fun (hx : Device.Sound x) => ?_) ?_; rotate_left; refine sound_of_eq hv ?_; clear hv x; rotate_left; clear hv)
    | (extract_lets -underBinder +onlyGivenNames x; clear_value (hv : x = _); refine (fun (hb : (Barrier.chans x).length = 16) => ?_) ?_; rotate_left; rw [hv]; clear hv x; rotate_left; clear hv)
    | (extract_lets -underBinder +onlyGivenNames x; clear_value (hv : x = _); refine (fun (hb : (Front.chans x).length = 32) => ?_) ?_; rotate_left; rw [hv]; clear hv x; rotate_left; clear hv)
    | (extract_lets -underBinder +onlyGivenNames x; clear_value (hv : x = _); refine (fun (hb : List.length (α := Chan) x = 16) => ?_) ?_; rotate_left; rw [hv]; clear hv x; rotate_left; clear hv)
    | (extract_lets -underBinder +onlyGivenNames x; clear_value x) | with_reducible apply Device.modPole_sound
    | with_reducible apply Device.modTwin_sound | with_reducible apply Device.wr_sound
    | with_reducible apply Device.wrF_sound | with_reducible apply odWf_odPut | with_reducible apply odWf_puts
    | with_reducible apply odWf_filter | with_reducible exact Device.reset_sound | with_reducible apply ite_sound | split
    | (with_reducible dsimp only) | (refine Device.Sound.mk ?_ ?_ ?_ ?_ ?_ ?_ ?_ <;> with_reducible dsimp only)
    | with_reducible apply Device.Sound.wf | with_reducible apply Device.Sound.poles
    | with_reducible apply Device.Sound.arms | with_reducible apply Device.Sound.lanes
    | with_reducible apply Device.Sound.tasks | with_reducible apply Device.Sound.chans
    | with_reducible apply Device.Sound.convs | rw [List.length_set] | rw [List.length_map] | rw [numbered_length]
    | simp only [List.length_cons, List.length_nil] | simp only [Barrier.downWith]

theorem Device.raiseChosen_sound (d : Device) (p : Nat) (reason : Nat) (hd : Device.Sound d) :
    Device.Sound (Device.raiseChosen d p reason) := by
  unfold Device.raiseChosen
  repeat' first
    | with_reducible assumption
    | (extract_lets -underBinder +onlyGivenNames x; clear_value (hv : x = _); refine (fun (hx : Device.Sound x) => ?_) ?_; rotate_left; refine sound_of_eq hv ?_; clear hv x; rotate_left; clear hv)
    | (extract_lets -underBinder +onlyGivenNames x; clear_value x) | with_reducible apply Device.raiseRequest_sound
    | with_reducible apply ite_sound | split | (with_reducible dsimp only)

theorem Device.rideNormal_sound (d : Device) (p : Nat) (hd : Device.Sound d) :
    Device.Sound (Device.rideNormal d p) := by
  unfold Device.rideNormal
  repeat' first
    | with_reducible assumption
    | (extract_lets -underBinder +onlyGivenNames x; clear_value (hv : x = _); refine (fun (hx : Device.Sound x) => ?_) ?_; rotate_left; refine sound_of_eq hv ?_; clear hv x; rotate_left; clear hv)
    | (extract_lets -underBinder +onlyGivenNames x; clear_value x) | with_reducible apply Device.modPole_sound
    | with_reducible apply Device.setSub_sound | with_reducible apply Device.wr_sound

theorem Device.poleStops_sound (d : Device) (p : Nat) (hd : Device.Sound d) :
    Device.Sound (Device.poleStops d p) := by
  unfold Device.poleStops
  repeat' first
    | with_reducible assumption
    | (extract_lets -underBinder +onlyGivenNames x; clear_value (hv : x = _); refine (fun (hx : Device.Sound x) => ?_) ?_; rotate_left; refine sound_of_eq hv ?_; clear hv x; rotate_left; clear hv)
    | (extract_lets -underBinder +onlyGivenNames x; clear_value x) | with_reducible apply Device.dcNormal_sound
    | with_reducible apply Device.lossNeutral_sound | with_reducible apply Device.modPole_sound
    | with_reducible apply Device.raiseChosen_sound | with_reducible apply Device.rideNormal_sound
    | with_reducible apply Device.setSub_sound | with_reducible apply ite_sound | split | (with_reducible dsimp only)

theorem Device.enterPole_sound (d : Device) (p : Nat) (st : Nat) (hd : Device.Sound d) :
    Device.Sound (Device.enterPole d p st) := by
  unfold Device.enterPole
  repeat' first
    | with_reducible assumption
    | (extract_lets -underBinder +onlyGivenNames x; clear_value (hv : x = _); refine (fun (hx : Device.Sound x) => ?_) ?_; rotate_left; refine sound_of_eq hv ?_; clear hv x; rotate_left; clear hv)
    | (extract_lets -underBinder +onlyGivenNames x; clear_value (hv : x = _); refine (fun (hb : (Barrier.chans x).length = 16) => ?_) ?_; rotate_left; rw [hv]; clear hv x; rotate_left; clear hv)
    | (extract_lets -underBinder +onlyGivenNames x; clear_value (hv : x = _); refine (fun (hb : (Front.chans x).length = 32) => ?_) ?_; rotate_left; rw [hv]; clear hv x; rotate_left; clear hv)
    | (extract_lets -underBinder +onlyGivenNames x; clear_value (hv : x = _); refine (fun (hb : List.length (α := Chan) x = 16) => ?_) ?_; rotate_left; rw [hv]; clear hv x; rotate_left; clear hv)
    | (extract_lets -underBinder +onlyGivenNames x; clear_value x) | with_reducible apply Device.armsFollow_sound
    | with_reducible apply Device.enGo_sound | with_reducible apply Device.enReport_sound
    | with_reducible apply Device.noteTrigger_sound | with_reducible apply Device.poleStops_sound
    | with_reducible apply Device.wr_sound | with_reducible apply ite_sound | split | (with_reducible dsimp only)
    | (refine Device.Sound.mk ?_ ?_ ?_ ?_ ?_ ?_ ?_ <;> with_reducible dsimp only) | with_reducible apply Device.Sound.wf
    | with_reducible apply Device.Sound.poles | with_reducible apply Device.Sound.arms
    | with_reducible apply Device.Sound.lanes | with_reducible apply Device.Sound.tasks
    | with_reducible apply Device.Sound.chans | with_reducible apply Device.Sound.convs | rw [List.length_set]
    | rw [List.length_map] | rw [numbered_length] | simp only [List.length_cons, List.length_nil]
    | simp only [Barrier.downWith]

theorem Device.setDevState_sound (d : Device) (st : Nat) (hd : Device.Sound d) :
    Device.Sound (Device.setDevState d st) := by
  unfold Device.setDevState
  repeat' first
    | with_reducible assumption | with_reducible apply Device.modBoot_sound | with_reducible apply Device.showReach_sound
    | with_reducible apply Device.wr_sound | with_reducible apply ite_sound | split | (with_reducible dsimp only)

theorem Device.deblockOutcome_sound (d : Device) (p : Nat) (k : Nat) (hd : Device.Sound d) :
    Device.Sound (Device.deblockOutcome d p k) := by
  unfold Device.deblockOutcome
  repeat' first
    | with_reducible assumption
    | (extract_lets -underBinder +onlyGivenNames x; clear_value (hv : x = _); refine (fun (hx : Device.Sound x) => ?_) ?_; rotate_left; refine sound_of_eq hv ?_; clear hv x; rotate_left; clear hv)
    | (extract_lets -underBinder +onlyGivenNames x; clear_value x) | with_reducible apply Device.enterPole_sound
    | with_reducible apply Device.event_sound | with_reducible apply Device.modPole_sound
    | with_reducible apply Device.setDevState_sound | with_reducible apply Device.wr_sound
    | with_reducible apply ite_sound | split | (with_reducible dsimp only)

theorem Device.enChecked_sound (d : Device) (p : Nat) (hd : Device.Sound d) :
    Device.Sound (Device.enChecked d p) := by
  unfold Device.enChecked
  repeat' first
    | with_reducible assumption | (extract_lets -underBinder +onlyGivenNames x; clear_value x)
    | with_reducible apply Device.modPole_sound | with_reducible apply ite_sound | split | (with_reducible dsimp only)

theorem Device.enDecide_sound (d : Device) (p : Nat) (dst : Nat) (reason : Nat) (hd : Device.Sound d) :
    Device.Sound (Device.enDecide d p dst reason) := by
  unfold Device.enDecide
  repeat' first
    | with_reducible assumption | (extract_lets -underBinder +onlyGivenNames x; clear_value x)
    | with_reducible apply Device.modPole_sound

theorem Device.tripEvents_sound (d : Device) (p : Nat) (cs : List Nat) (hd : Device.Sound d) :
    Device.Sound (Device.tripEvents d p cs) := by
  unfold Device.tripEvents
  repeat' first
    | with_reducible assumption | with_reducible apply Device.event_sound | with_reducible apply foldl_sound | intro _
    | (with_reducible dsimp only)

theorem Device.poleBoundary_sound (d : Device) (p : Nat) (hd : Device.Sound d) :
    Device.Sound (Device.poleBoundary d p) := by
  unfold Device.poleBoundary
  repeat' first
    | with_reducible assumption
    | (extract_lets -underBinder +onlyGivenNames x; clear_value (hv : x = _); refine (fun (hx : Device.Sound x) => ?_) ?_; rotate_left; refine sound_of_eq hv ?_; clear hv x; rotate_left; clear hv)
    | (extract_lets -underBinder +onlyGivenNames x; clear_value x) | with_reducible apply Device.enterPole_sound
    | with_reducible apply Device.modPole_sound | with_reducible apply Device.tripEvents_sound
    | with_reducible apply Device.wr_sound | with_reducible apply foldl_sound | intro _ | with_reducible apply ite_sound
    | split | (with_reducible dsimp only)

theorem Device.poleEffect_sound (d : Device) (p : Nat) (code : Nat) (arg : Nat) (hd : Device.Sound d) :
    Device.Sound (Device.poleEffect d p code arg) := by
  unfold Device.poleEffect
  repeat' first
    | with_reducible assumption
    | (extract_lets -underBinder +onlyGivenNames x; clear_value (hv : x = _); refine (fun (hx : Device.Sound x) => ?_) ?_; rotate_left; refine sound_of_eq hv ?_; clear hv x; rotate_left; clear hv)
    | (extract_lets -underBinder +onlyGivenNames x; clear_value x) | with_reducible apply Device.blockPole_sound
    | with_reducible apply Device.enEnter_sound | with_reducible apply Device.levelRequest_sound
    | with_reducible apply Device.modPole_sound | with_reducible apply Device.raiseRequest_sound
    | with_reducible apply Device.setGoto_sound | with_reducible apply Device.setSub_sound
    | with_reducible apply Device.wr_sound | with_reducible apply ite_sound | split | (with_reducible dsimp only)

theorem Device.poleRefuse_sound (d : Device) (p : Nat) (sdo : Bool) (result : Nat) (reason : Nat) (code : Nat) (hd : Device.Sound d) :
    Device.Sound (Device.poleRefuse d p sdo result reason code) := by
  unfold Device.poleRefuse
  repeat' first
    | with_reducible assumption
    | (extract_lets -underBinder +onlyGivenNames x; clear_value (hv : x = _); refine (fun (hx : Device.Sound x) => ?_) ?_; rotate_left; refine sound_of_eq hv ?_; clear hv x; rotate_left; clear hv)
    | (extract_lets -underBinder +onlyGivenNames x; clear_value x) | with_reducible apply Device.abort_sound
    | with_reducible apply Device.wr_sound | with_reducible apply ite_sound | split | (with_reducible dsimp only)

theorem Device.setDeblock_sound (d : Device) (p : Nat) (t : Nat) (hd : Device.Sound d) :
    Device.Sound (Device.setDeblock d p t) := by
  unfold Device.setDeblock
  repeat' first
    | with_reducible assumption | with_reducible apply Device.modPole_sound | with_reducible apply Device.wr_sound

theorem Device.poleOrder_sound (d : Device) (sdo : Bool) (p : Nat) (code : Nat) (hd : Device.Sound d) :
    Device.Sound (Device.poleOrder d sdo p code) := by
  unfold Device.poleOrder
  repeat' first
    | with_reducible assumption
    | (extract_lets -underBinder +onlyGivenNames x; clear_value (hv : x = _); refine (fun (hx : Device.Sound x) => ?_) ?_; rotate_left; refine sound_of_eq hv ?_; clear hv x; rotate_left; clear hv)
    | (extract_lets -underBinder +onlyGivenNames x; clear_value x) | with_reducible apply Device.event_sound
    | with_reducible apply Device.forward_sound | with_reducible apply Device.poleEffect_sound
    | with_reducible apply Device.poleRefuse_sound | with_reducible apply Device.setDeblock_sound
    | with_reducible apply Device.wr_sound | with_reducible apply ite_sound | split | (with_reducible dsimp only)

theorem Device.poleCommand_sound (d : Device) (p : Nat) (code : Nat) (hd : Device.Sound d) :
    Device.Sound (Device.poleCommand d p code) := by
  unfold Device.poleCommand
  repeat' first
    | with_reducible assumption | (extract_lets -underBinder +onlyGivenNames x; clear_value x)
    | with_reducible apply Device.abort_sound | with_reducible apply Device.done_sound
    | with_reducible apply Device.poleOrder_sound | with_reducible apply ite_sound | split | (with_reducible dsimp only)

theorem execBlock_keeps (p : Nat) (s : State) :
    Keeps s (execBlock p s) := by
  unfold execBlock
  refine State.run_keeps fun d hd => ?_
  repeat' first
    | with_reducible assumption | with_reducible apply Device.poleCommand_sound | with_reducible apply State.run_keeps
    | intro _

theorem execBlockAll_keeps (s : State) :
    Keeps s (execBlockAll s) := by
  unfold execBlockAll
  refine State.run_keeps fun d hd => ?_
  repeat' first
    | with_reducible assumption | with_reducible apply Device.abort_sound | with_reducible apply Device.blockAll_sound
    | with_reducible apply Device.done_sound | with_reducible apply Device.forward_sound
    | with_reducible apply Device.wr_sound | with_reducible apply State.run_keeps | intro _
    | with_reducible apply ite_sound | split | (with_reducible dsimp only)

theorem execDeEnergise_keeps (p : Nat) (s : State) :
    Keeps s (execDeEnergise p s) := by
  unfold execDeEnergise
  refine State.run_keeps fun d hd => ?_
  repeat' first
    | with_reducible assumption | with_reducible apply Device.poleCommand_sound | with_reducible apply State.run_keeps
    | intro _

theorem execDeblock_keeps (p : Nat) (s : State) :
    Keeps s (execDeblock p s) := by
  unfold execDeblock
  refine State.run_keeps fun d hd => ?_
  repeat' first
    | with_reducible assumption | with_reducible apply Device.poleCommand_sound | with_reducible apply State.run_keeps
    | intro _

theorem execDeblockTick_keeps (p : Nat) (s : State) :
    Keeps s (execDeblockTick p s) := by
  unfold execDeblockTick
  refine State.run_keeps fun d hd => ?_
  repeat' first
    | with_reducible assumption | (extract_lets -underBinder +onlyGivenNames x; clear_value x)
    | with_reducible apply Device.deblockOutcome_sound | with_reducible apply Device.forward_sound
    | with_reducible apply State.run_keeps | intro _ | with_reducible apply ite_sound | split
    | (with_reducible dsimp only)

theorem execEnergisationAbort_keeps (p : Nat) (s : State) :
    Keeps s (execEnergisationAbort p s) := by
  unfold execEnergisationAbort
  refine State.run_keeps fun d hd => ?_
  repeat' first
    | with_reducible assumption | with_reducible apply Device.abortCharge_sound
    | with_reducible apply Device.forward_sound | with_reducible apply Device.sdo_sound
    | with_reducible apply State.run_keeps | intro _ | with_reducible apply ite_sound | split
    | (with_reducible dsimp only)

theorem execEnergisationTimeout_keeps (p : Nat) (s : State) :
    Keeps s (execEnergisationTimeout p s) := by
  unfold execEnergisationTimeout
  refine State.run_keeps fun d hd => ?_
  repeat' first
    | with_reducible assumption | with_reducible apply Device.enChecked_sound
    | with_reducible apply Device.enDecide_sound | with_reducible apply State.run_keeps | intro _
    | with_reducible apply ite_sound | split | (with_reducible dsimp only)

theorem execEnergise_keeps (p : Nat) (s : State) :
    Keeps s (execEnergise p s) := by
  unfold execEnergise
  refine State.run_keeps fun d hd => ?_
  repeat' first
    | with_reducible assumption | with_reducible apply Device.poleCommand_sound | with_reducible apply State.run_keeps
    | intro _

theorem execReconnected_keeps (p : Nat) (s : State) :
    Keeps s (execReconnected p s) := by
  unfold execReconnected
  refine State.run_keeps fun d hd => ?_
  repeat' first
    | with_reducible assumption | with_reducible apply Device.poleCommand_sound | with_reducible apply State.run_keeps
    | intro _

theorem execReset_keeps (p : Nat) (s : State) :
    Keeps s (execReset p s) := by
  unfold execReset
  refine State.run_keeps fun d hd => ?_
  repeat' first
    | with_reducible assumption | with_reducible apply Device.poleCommand_sound | with_reducible apply State.run_keeps
    | intro _

theorem execRunBack_keeps (p : Nat) (s : State) :
    Keeps s (execRunBack p s) := by
  unfold execRunBack
  refine State.run_keeps fun d hd => ?_
  repeat' first
    | with_reducible assumption | with_reducible apply Device.poleCommand_sound | with_reducible apply State.run_keeps
    | intro _

theorem execRunBackEnd_keeps (p : Nat) (s : State) :
    Keeps s (execRunBackEnd p s) := by
  unfold execRunBackEnd
  refine State.run_keeps fun d hd => ?_
  repeat' first
    | with_reducible assumption | with_reducible apply Device.poleCommand_sound | with_reducible apply State.run_keeps
    | intro _

end Sys2Proof.Machine
end

