-- ==== Sys2Proof/Laws/SoundOuter.lean ====
section
/-! SUPPORT. Every operation of Machine/Outer.lean keeps a sound device sound; every command of it completes and
leaves the queue alone. -/
namespace Sys2Proof.Machine

set_option linter.all false
set_option Elab.async false

theorem Device.chargeBegin_sound (d : Device) (p : Nat) (hd : Device.Sound d) :
    Device.Sound (Device.chargeBegin d p) := by
  unfold Device.chargeBegin
  repeat' first
    | with_reducible assumption | (extract_lets -underBinder +onlyGivenNames x; clear_value x)
    | with_reducible apply Device.modPole_sound | with_reducible apply ite_sound | split | (with_reducible dsimp only)

theorem Device.modFast_sound (d : Device) (p : Nat) (f : FastRes → FastRes) (hd : Device.Sound d) :
    Device.Sound (Device.modFast d p f) := by
  unfold Device.modFast
  repeat' first
    | with_reducible assumption | with_reducible apply Device.modPole_sound

theorem Device.dcRestart_sound (d : Device) (p : Nat) (hd : Device.Sound d) :
    Device.Sound (Device.dcRestart d p) := by
  unfold Device.dcRestart
  repeat' first
    | with_reducible assumption
    | (extract_lets -underBinder +onlyGivenNames x; clear_value (hv : x = _); refine (fun (hx : Device.Sound x) => ?_) ?_; rotate_left; refine sound_of_eq hv ?_; clear hv x; rotate_left; clear hv)
    | (extract_lets -underBinder +onlyGivenNames x; clear_value x) | with_reducible apply Device.modFast_sound
    | with_reducible apply Device.modPole_sound | with_reducible apply Device.wr_sound | with_reducible apply ite_sound
    | split | (with_reducible dsimp only)

theorem Device.modSlow_sound (d : Device) (p : Nat) (f : SlowRes → SlowRes) (hd : Device.Sound d) :
    Device.Sound (Device.modSlow d p f) := by
  unfold Device.modSlow
  repeat' first
    | with_reducible assumption | with_reducible apply Device.modPole_sound

theorem Device.enterIslanded_sound (d : Device) (p : Nat) (hd : Device.Sound d) :
    Device.Sound (Device.enterIslanded d p) := by
  unfold Device.enterIslanded
  repeat' first
    | with_reducible assumption
    | (extract_lets -underBinder +onlyGivenNames x; clear_value (hv : x = _); refine (fun (hx : Device.Sound x) => ?_) ?_; rotate_left; refine sound_of_eq hv ?_; clear hv x; rotate_left; clear hv)
    | (extract_lets -underBinder +onlyGivenNames x; clear_value x) | with_reducible apply Device.enterPole_sound
    | with_reducible apply Device.modPole_sound | with_reducible apply Device.modSlow_sound
    | with_reducible apply Device.setSub_sound | with_reducible apply ite_sound | split | (with_reducible dsimp only)

theorem Device.islandPole_sound (d : Device) (p : Nat) (hd : Device.Sound d) :
    Device.Sound (Device.islandPole d p) := by
  unfold Device.islandPole
  repeat' first
    | with_reducible assumption | (extract_lets -underBinder +onlyGivenNames x; clear_value x)
    | with_reducible apply Device.enterIslanded_sound | with_reducible apply Device.raiseRequest_sound
    | with_reducible apply Device.tripPole_sound | with_reducible apply ite_sound | split | (with_reducible dsimp only)

theorem Device.islandAct_sound (d : Device) (p : Nat) (hd : Device.Sound d) :
    Device.Sound (Device.islandAct d p) := by
  unfold Device.islandAct
  repeat' first
    | with_reducible assumption
    | (extract_lets -underBinder +onlyGivenNames x; clear_value (hv : x = _); refine (fun (hx : Device.Sound x) => ?_) ?_; rotate_left; refine sound_of_eq hv ?_; clear hv x; rotate_left; clear hv)
    | (extract_lets -underBinder +onlyGivenNames x; clear_value x) | with_reducible apply Device.bumpEvent_sound
    | with_reducible apply Device.islandPole_sound | with_reducible apply Device.modPole_sound
    | with_reducible apply Device.noteTrigger_sound | with_reducible apply foldl_sound | intro _
    | with_reducible apply ite_sound | split | (with_reducible dsimp only)

theorem Device.restartOver_sound (d : Device) (p : Nat) (hd : Device.Sound d) :
    Device.Sound (Device.restartOver d p) := by
  unfold Device.restartOver
  repeat' first
    | with_reducible assumption | with_reducible apply Device.dcNormal_sound | with_reducible apply Device.modFast_sound

theorem Device.suppressFrom_sound (d : Device) (p : Nat) (hd : Device.Sound d) :
    Device.Sound (Device.suppressFrom d p) := by
  unfold Device.suppressFrom
  repeat' first
    | with_reducible assumption | (extract_lets -underBinder +onlyGivenNames x; clear_value x)
    | with_reducible apply Device.modPole_sound | with_reducible apply Device.setSub_sound
    | with_reducible apply Device.wr_sound

theorem Device.fastAct_sound (p : Nat) (d : Device) (x : FastAct) (hd : Device.Sound d) :
    Device.Sound (Device.fastAct p d x) := by
  unfold Device.fastAct
  repeat' first
    | with_reducible assumption
    | (extract_lets -underBinder +onlyGivenNames x; clear_value (hv : x = _); refine (fun (hx : Device.Sound x) => ?_) ?_; rotate_left; refine sound_of_eq hv ?_; clear hv x; rotate_left; clear hv)
    | (extract_lets -underBinder +onlyGivenNames x; clear_value x) | with_reducible apply Device.bump_sound
    | with_reducible apply Device.bumpEvent_sound | with_reducible apply Device.chargeBegin_sound
    | with_reducible apply Device.dcRestart_sound | with_reducible apply Device.enGo_sound
    | with_reducible apply Device.event_sound | with_reducible apply Device.forward_sound
    | with_reducible apply Device.islandAct_sound | with_reducible apply Device.modSlow_sound
    | with_reducible apply Device.noteTrigger_sound | with_reducible apply Device.raiseChosen_sound
    | with_reducible apply Device.raiseRequest_sound | with_reducible apply Device.restartOver_sound
    | with_reducible apply Device.rideNormal_sound | with_reducible apply Device.suppressFrom_sound
    | with_reducible apply Device.tripPole_sound | with_reducible apply Device.wr_sound | with_reducible apply ite_sound
    | split | (with_reducible dsimp only)

theorem Device.missedRun_sound (d : Device) (slow : Bool) (p : Nat) (n : Nat) (hd : Device.Sound d) :
    Device.Sound (Device.missedRun d slow p n) := by
  unfold Device.missedRun
  repeat' first
    | with_reducible assumption
    | (extract_lets -underBinder +onlyGivenNames x; clear_value (hv : x = _); refine (fun (hf : ∀ y : Device, Device.Sound y → Device.Sound (x y)) => ?_) ?_; rotate_left; refine sound_of_eq_fun hv ?_; clear hv x; rotate_left; clear hv)
    | (extract_lets -underBinder +onlyGivenNames x; clear_value (hv : x = _); refine (fun (hf : ∀ (y : Device) (z : _), Device.Sound y → Device.Sound (x y z)) => ?_) ?_; rotate_left; refine sound_of_eq_fun₂ hv ?_; clear hv x; rotate_left; clear hv)
    | (extract_lets -underBinder +onlyGivenNames x; clear_value (hv : x = _); refine (fun (hf : ∀ (y : Device) (z : _) (w : _), Device.Sound y → Device.Sound (x y z w)) => ?_) ?_; rotate_left; refine sound_of_eq_fun₃ hv ?_; clear hv x; rotate_left; clear hv)
    | (extract_lets -underBinder +onlyGivenNames x; clear_value x) | with_reducible apply Device.modPole_sound
    | with_reducible apply Device.tripPole_sound | with_reducible apply hf | intro _ | with_reducible apply ite_sound
    | split | (with_reducible dsimp only)

theorem Device.showFast_sound (d : Device) (p : Nat) (hd : Device.Sound d) :
    Device.Sound (Device.showFast d p) := by
  unfold Device.showFast
  repeat' first
    | with_reducible assumption
    | (extract_lets -underBinder +onlyGivenNames x; clear_value (hv : x = _); refine (fun (hx : Device.Sound x) => ?_) ?_; rotate_left; refine sound_of_eq hv ?_; clear hv x; rotate_left; clear hv)
    | (extract_lets -underBinder +onlyGivenNames x; clear_value x) | with_reducible apply Device.setSub_sound
    | with_reducible apply Device.wr_sound | with_reducible apply Device.wrF_sound | with_reducible apply ite_sound
    | split | (with_reducible dsimp only)

theorem Device.commitFast_sound (d : Device) (p : Nat) (hd : Device.Sound d) :
    Device.Sound (Device.commitFast d p) := by
  unfold Device.commitFast
  repeat' first
    | with_reducible assumption
    | (extract_lets -underBinder +onlyGivenNames x; clear_value (hv : x = _); refine (fun (hx : Device.Sound x) => ?_) ?_; rotate_left; refine sound_of_eq hv ?_; clear hv x; rotate_left; clear hv)
    | (extract_lets -underBinder +onlyGivenNames x; clear_value x) | with_reducible apply Device.bump_sound
    | with_reducible apply Device.fastAct_sound | with_reducible apply Device.missedRun_sound
    | with_reducible apply Device.modPole_sound | with_reducible apply Device.showFast_sound
    | with_reducible apply foldl_sound | intro _ | with_reducible apply ite_sound | split | (with_reducible dsimp only)

theorem Device.suppress_sound (d : Device) (p : Nat) (hd : Device.Sound d) :
    Device.Sound (Device.suppress d p) := by
  unfold Device.suppress
  repeat' first
    | with_reducible assumption
    | (extract_lets -underBinder +onlyGivenNames x; clear_value (hv : x = _); refine (fun (hx : Device.Sound x) => ?_) ?_; rotate_left; refine sound_of_eq hv ?_; clear hv x; rotate_left; clear hv)
    | (extract_lets -underBinder +onlyGivenNames x; clear_value x) | with_reducible apply Device.modFast_sound
    | with_reducible apply Device.modPole_sound | with_reducible apply Device.suppressFrom_sound

theorem Device.dcFault_sound (d : Device) (p : Nat) (hd : Device.Sound d) :
    Device.Sound (Device.dcFault d p) := by
  unfold Device.dcFault
  repeat' first
    | with_reducible assumption
    | (extract_lets -underBinder +onlyGivenNames x; clear_value (hv : x = _); refine (fun (hx : Device.Sound x) => ?_) ?_; rotate_left; refine sound_of_eq hv ?_; clear hv x; rotate_left; clear hv)
    | (extract_lets -underBinder +onlyGivenNames x; clear_value x) | with_reducible apply Device.bumpEvent_sound
    | with_reducible apply Device.modPole_sound | with_reducible apply Device.noteTrigger_sound
    | with_reducible apply Device.raiseChosen_sound | with_reducible apply Device.suppress_sound
    | with_reducible apply Device.tripPole_sound | with_reducible apply ite_sound | split | (with_reducible dsimp only)

theorem Device.dcDetect_sound (d : Device) (p : Nat) (hd : Device.Sound d) :
    Device.Sound (Device.dcDetect d p) := by
  unfold Device.dcDetect
  repeat' first
    | with_reducible assumption
    | (extract_lets -underBinder +onlyGivenNames x; clear_value (hv : x = _); refine (fun (hx : Device.Sound x) => ?_) ?_; rotate_left; refine sound_of_eq hv ?_; clear hv x; rotate_left; clear hv)
    | (extract_lets -underBinder +onlyGivenNames x; clear_value x) | with_reducible apply Device.dcFault_sound
    | with_reducible apply Device.modPole_sound | with_reducible apply ite_sound | split | (with_reducible dsimp only)

theorem Device.dcTick_sound (d : Device) (p : Nat) (hd : Device.Sound d) :
    Device.Sound (Device.dcTick d p) := by
  unfold Device.dcTick
  repeat' first
    | with_reducible assumption | (extract_lets -underBinder +onlyGivenNames x; clear_value x)
    | with_reducible apply Device.modPole_sound | with_reducible apply ite_sound | split | (with_reducible dsimp only)

theorem Device.dcTier_sound (d : Device) (p : Nat) (hd : Device.Sound d) :
    Device.Sound (Device.dcTier d p) := by
  unfold Device.dcTier
  repeat' first
    | with_reducible assumption | with_reducible apply Device.dcDetect_sound | with_reducible apply Device.dcTick_sound

theorem Device.enCurrent_sound (d : Device) (p : Nat) (hd : Device.Sound d) :
    Device.Sound (Device.enCurrent d p) := by
  unfold Device.enCurrent
  repeat' first
    | with_reducible assumption
    | (extract_lets -underBinder +onlyGivenNames x; clear_value (hv : x = _); refine (fun (hx : Device.Sound x) => ?_) ?_; rotate_left; refine sound_of_eq hv ?_; clear hv x; rotate_left; clear hv)
    | (extract_lets -underBinder +onlyGivenNames x; clear_value x) | with_reducible apply Device.enAbort_sound
    | with_reducible apply Device.modPole_sound | with_reducible apply ite_sound | split | (with_reducible dsimp only)

theorem Device.restartAsked_sound (d : Device) (p : Nat) (hd : Device.Sound d) :
    Device.Sound (Device.restartAsked d p) := by
  unfold Device.restartAsked
  repeat' first
    | with_reducible assumption | (extract_lets -underBinder +onlyGivenNames x; clear_value x)
    | with_reducible apply Device.modPole_sound | with_reducible apply ite_sound | split | (with_reducible dsimp only)

theorem Device.startFast_sound (d : Device) (p : Nat) (finish : Bool) (hd : Device.Sound d) :
    Device.Sound (Device.startFast d p finish) := by
  unfold Device.startFast
  repeat' first
    | with_reducible assumption
    | (extract_lets -underBinder +onlyGivenNames x; clear_value (hv : x = _); refine (fun (hx : Device.Sound x) => ?_) ?_; rotate_left; refine sound_of_eq hv ?_; clear hv x; rotate_left; clear hv)
    | (extract_lets -underBinder +onlyGivenNames x; clear_value x) | with_reducible apply Device.enChecked_sound
    | with_reducible apply Device.modPole_sound | with_reducible apply ite_sound | split | (with_reducible dsimp only)

theorem Device.tierSample_sound (d : Device) (p : Nat) (hd : Device.Sound d) :
    Device.Sound (Device.tierSample d p) := by
  unfold Device.tierSample
  repeat' first
    | with_reducible assumption
    | (extract_lets -underBinder +onlyGivenNames x; clear_value (hv : x = _); refine (fun (hx : Device.Sound x) => ?_) ?_; rotate_left; refine sound_of_eq hv ?_; clear hv x; rotate_left; clear hv)
    | (extract_lets -underBinder +onlyGivenNames x; clear_value x) | with_reducible apply Device.modPole_sound
    | with_reducible apply Device.wrF_sound | with_reducible apply ite_sound | split | (with_reducible dsimp only)

theorem Device.tickTier_sound (d : Device) (p : Nat) (hd : Device.Sound d) :
    Device.Sound (Device.tickTier d p) := by
  unfold Device.tickTier
  repeat' first
    | with_reducible assumption
    | (extract_lets -underBinder +onlyGivenNames x; clear_value (hv : x = _); refine (fun (hx : Device.Sound x) => ?_) ?_; rotate_left; refine sound_of_eq hv ?_; clear hv x; rotate_left; clear hv)
    | (extract_lets -underBinder +onlyGivenNames x; clear_value (hv : x = _); refine (fun (hb : (Barrier.chans x).length = 16) => ?_) ?_; rotate_left; rw [hv]; clear hv x; rotate_left; clear hv)
    | (extract_lets -underBinder +onlyGivenNames x; clear_value (hv : x = _); refine (fun (hb : (Front.chans x).length = 32) => ?_) ?_; rotate_left; rw [hv]; clear hv x; rotate_left; clear hv)
    | (extract_lets -underBinder +onlyGivenNames x; clear_value (hv : x = _); refine (fun (hb : List.length (α := Chan) x = 16) => ?_) ?_; rotate_left; rw [hv]; clear hv x; rotate_left; clear hv)
    | (extract_lets -underBinder +onlyGivenNames x; clear_value x) | with_reducible apply Device.dcTier_sound
    | with_reducible apply Device.enCurrent_sound | with_reducible apply Device.setSub_sound
    | with_reducible apply Device.tierSample_sound | with_reducible apply ite_sound | split | (with_reducible dsimp only)
    | (refine Device.Sound.mk ?_ ?_ ?_ ?_ ?_ ?_ ?_ <;> with_reducible dsimp only) | with_reducible apply Device.Sound.wf
    | with_reducible apply Device.Sound.poles | with_reducible apply Device.Sound.arms
    | with_reducible apply Device.Sound.lanes | with_reducible apply Device.Sound.tasks
    | with_reducible apply Device.Sound.chans | with_reducible apply Device.Sound.convs | rw [List.length_set]
    | rw [List.length_map] | rw [numbered_length] | simp only [List.length_cons, List.length_nil]
    | simp only [Barrier.downWith]

theorem execAngleLossTrip_keeps (p : Nat) (s : State) :
    Keeps s (execAngleLossTrip p s) := by
  unfold execAngleLossTrip
  refine State.run_keeps fun d hd => ?_
  repeat' first
    | with_reducible assumption | (extract_lets -underBinder +onlyGivenNames x; clear_value x)
    | with_reducible apply Device.tripPole_sound | with_reducible apply State.run_keeps | intro _
    | with_reducible apply ite_sound | split | (with_reducible dsimp only)

theorem execDcRestart_keeps (p : Nat) (s : State) :
    Keeps s (execDcRestart p s) := by
  unfold execDcRestart
  refine State.run_keeps fun d hd => ?_
  repeat' first
    | with_reducible assumption | with_reducible apply Device.forward_sound
    | with_reducible apply Device.restartAsked_sound | with_reducible apply Device.sdo_sound
    | with_reducible apply State.run_keeps | intro _ | with_reducible apply ite_sound | split
    | (with_reducible dsimp only)

theorem execDeionisationExpiry_keeps (p : Nat) (s : State) :
    Keeps s (execDeionisationExpiry p s) := by
  unfold execDeionisationExpiry
  refine State.run_keeps fun d hd => ?_
  repeat' first
    | with_reducible assumption | with_reducible apply Device.restartAsked_sound | with_reducible apply State.run_keeps
    | intro _ | with_reducible apply ite_sound | split | (with_reducible dsimp only)

theorem execExtinctionHoldExpiry_keeps (p : Nat) (s : State) :
    Keeps s (execExtinctionHoldExpiry p s) := by
  unfold execExtinctionHoldExpiry
  refine State.run_keeps fun d hd => ?_
  repeat' first
    | with_reducible assumption
    | (extract_lets -underBinder +onlyGivenNames x; clear_value (hv : x = _); refine (fun (hx : Device.Sound x) => ?_) ?_; rotate_left; refine sound_of_eq hv ?_; clear hv x; rotate_left; clear hv)
    | (extract_lets -underBinder +onlyGivenNames x; clear_value x) | with_reducible apply Device.modPole_sound
    | with_reducible apply Device.wr_sound | with_reducible apply State.run_keeps | intro _
    | with_reducible apply ite_sound | split | (with_reducible dsimp only)

theorem execExtinctionLimitExpiry_keeps (p : Nat) (s : State) :
    Keeps s (execExtinctionLimitExpiry p s) := by
  unfold execExtinctionLimitExpiry
  refine State.run_keeps fun d hd => ?_
  repeat' first
    | with_reducible assumption | with_reducible apply Device.dcNormal_sound
    | with_reducible apply Device.raiseChosen_sound | with_reducible apply Device.tripPole_sound
    | with_reducible apply State.run_keeps | intro _ | with_reducible apply ite_sound | split
    | (with_reducible dsimp only)

theorem execFastRun_keeps (p : Nat) (finish : Bool) (s : State) :
    Keeps s (execFastRun p finish s) := by
  unfold execFastRun
  refine State.run_keeps fun d hd => ?_
  repeat' first
    | with_reducible assumption | with_reducible apply Device.startFast_sound | with_reducible apply State.run_keeps
    | intro _

end Sys2Proof.Machine
end

