-- ==== Sys2Proof/Laws/SoundSync.lean ====
section
/-! SUPPORT. Every operation of Machine/Sync.lean keeps a sound device sound; every command of it completes and
leaves the queue alone. -/
namespace Sys2Proof.Machine

set_option linter.all false
set_option Elab.async false

theorem Device.setPeriod_sound (d : Device) (code : Nat) (change : Nat) (hd : Device.Sound d) :
    Device.Sound (Device.setPeriod d code change) := by
  unfold Device.setPeriod
  repeat' first
    | with_reducible assumption | with_reducible apply Device.wr_sound

theorem Device.changePeriod_sound (d : Device) (code : Nat) (hd : Device.Sound d) :
    Device.Sound (Device.changePeriod d code) := by
  unfold Device.changePeriod
  repeat' first
    | with_reducible assumption | (extract_lets -underBinder +onlyGivenNames x; clear_value x)
    | with_reducible apply Device.forward_sound | with_reducible apply Device.setPeriod_sound

theorem Device.modTimer_sound (d : Device) (f : TickTimer → TickTimer) (hd : Device.Sound d) :
    Device.Sound (Device.modTimer d f) := by
  unfold Device.modTimer
  repeat' first
    | with_reducible assumption | (with_reducible dsimp only)
    | (refine Device.Sound.mk ?_ ?_ ?_ ?_ ?_ ?_ ?_ <;> with_reducible dsimp only) | with_reducible apply Device.Sound.wf
    | with_reducible apply Device.Sound.poles | with_reducible apply Device.Sound.arms
    | with_reducible apply Device.Sound.lanes | with_reducible apply Device.Sound.tasks
    | with_reducible apply Device.Sound.chans | with_reducible apply Device.Sound.convs | rw [List.length_set]
    | rw [List.length_map] | rw [numbered_length] | simp only [List.length_cons, List.length_nil]
    | simp only [Barrier.downWith]

theorem Device.realign_sound (d : Device) (r : Int) (hd : Device.Sound d) :
    Device.Sound (Device.realign d r) := by
  unfold Device.realign
  repeat' first
    | with_reducible assumption | with_reducible apply Device.event_sound | with_reducible apply Device.modTimer_sound
    | with_reducible apply Device.wrI_sound

theorem Device.setSync_sound (d : Device) (st : Nat) (hd : Device.Sound d) :
    Device.Sound (Device.setSync d st) := by
  unfold Device.setSync
  repeat' first
    | with_reducible assumption | with_reducible apply Device.wr_sound

theorem Device.syncBoundary_sound (d : Device) (hd : Device.Sound d) :
    Device.Sound (Device.syncBoundary d) := by
  unfold Device.syncBoundary
  repeat' first
    | with_reducible assumption
    | (extract_lets -underBinder +onlyGivenNames x; clear_value (hv : x = _); refine (fun (hx : Device.Sound x) => ?_) ?_; rotate_left; refine sound_of_eq hv ?_; clear hv x; rotate_left; clear hv)
    | (extract_lets -underBinder +onlyGivenNames x; clear_value x) | with_reducible apply Device.modTimer_sound
    | with_reducible apply Device.setSync_sound | with_reducible apply ite_sound | split | (with_reducible dsimp only)

theorem Device.syncEdge_sound (d : Device) (e : Int) (hd : Device.Sound d) :
    Device.Sound (Device.syncEdge d e) := by
  unfold Device.syncEdge
  repeat' first
    | with_reducible assumption
    | (extract_lets -underBinder +onlyGivenNames x; clear_value (hv : x = _); refine (fun (hx : Device.Sound x) => ?_) ?_; rotate_left; refine sound_of_eq hv ?_; clear hv x; rotate_left; clear hv)
    | (extract_lets -underBinder +onlyGivenNames x; clear_value x) | with_reducible apply Device.event_sound
    | with_reducible apply Device.modTimer_sound | with_reducible apply Device.realign_sound
    | with_reducible apply Device.setSync_sound | with_reducible apply ite_sound | split | (with_reducible dsimp only)

theorem Device.syncMiss_sound (d : Device) (hd : Device.Sound d) :
    Device.Sound (Device.syncMiss d) := by
  unfold Device.syncMiss
  repeat' first
    | with_reducible assumption
    | (extract_lets -underBinder +onlyGivenNames x; clear_value (hv : x = _); refine (fun (hx : Device.Sound x) => ?_) ?_; rotate_left; refine sound_of_eq hv ?_; clear hv x; rotate_left; clear hv)
    | (extract_lets -underBinder +onlyGivenNames x; clear_value x) | with_reducible apply Device.event_sound
    | with_reducible apply Device.modTimer_sound | with_reducible apply Device.setSync_sound
    | with_reducible apply ite_sound | split | (with_reducible dsimp only)

theorem execSyncEdgeMissing_keeps (s : State) :
    Keeps s (execSyncEdgeMissing s) := by
  unfold execSyncEdgeMissing
  refine State.run_keeps fun d hd => ?_
  repeat' first
    | with_reducible assumption | with_reducible apply Device.syncMiss_sound | with_reducible apply State.run_keeps
    | intro _ | with_reducible apply ite_sound | split | (with_reducible dsimp only)

theorem execSyncInEdge_keeps (err : Int) (off : Int) (high : Nat) (ppm : Int) (s : State) :
    Keeps s (execSyncInEdge err off high ppm s) := by
  unfold execSyncInEdge
  refine State.run_keeps fun d hd => ?_
  repeat' first
    | with_reducible assumption
    | (extract_lets -underBinder +onlyGivenNames x; clear_value (hv : x = _); refine (fun (hx : Device.Sound x) => ?_) ?_; rotate_left; refine sound_of_eq hv ?_; clear hv x; rotate_left; clear hv)
    | (extract_lets -underBinder +onlyGivenNames x; clear_value x) | with_reducible apply Device.bump_sound
    | with_reducible apply Device.modTimer_sound | with_reducible apply Device.syncEdge_sound
    | with_reducible apply Device.syncMiss_sound | with_reducible apply Device.wr_sound
    | with_reducible apply Device.wrI_sound | with_reducible apply State.run_keeps | intro _
    | with_reducible apply ite_sound | split | (with_reducible dsimp only)

theorem execSyncPhaseStep_keeps (s : State) :
    Keeps s (execSyncPhaseStep s) := by
  unfold execSyncPhaseStep
  refine State.run_keeps fun d hd => ?_
  repeat' first
    | with_reducible assumption
    | (extract_lets -underBinder +onlyGivenNames x; clear_value (hv : x = _); refine (fun (hx : Device.Sound x) => ?_) ?_; rotate_left; refine sound_of_eq hv ?_; clear hv x; rotate_left; clear hv)
    | (extract_lets -underBinder +onlyGivenNames x; clear_value x) | with_reducible apply Device.accum_sound
    | with_reducible apply Device.modTimer_sound | with_reducible apply Device.wrI_sound
    | with_reducible apply State.run_keeps | intro _ | with_reducible apply ite_sound | split
    | (with_reducible dsimp only)

theorem execSyncTracked_keeps (s : State) :
    Keeps s (execSyncTracked s) := by
  unfold execSyncTracked
  refine State.run_keeps fun d hd => ?_
  repeat' first
    | with_reducible assumption | with_reducible apply Device.event_sound | with_reducible apply Device.wrBit_sound
    | with_reducible apply State.run_keeps | intro _ | with_reducible apply ite_sound | split
    | (with_reducible dsimp only)

theorem execTickPeriodChange_keeps (s : State) :
    Keeps s (execTickPeriodChange s) := by
  unfold execTickPeriodChange
  refine State.run_keeps fun d hd => ?_
  repeat' first
    | with_reducible assumption
    | (extract_lets -underBinder +onlyGivenNames x; clear_value (hv : x = _); refine (fun (hx : Device.Sound x) => ?_) ?_; rotate_left; refine sound_of_eq hv ?_; clear hv x; rotate_left; clear hv)
    | (extract_lets -underBinder +onlyGivenNames x; clear_value x) | with_reducible apply Device.lanesPeriod_sound
    | with_reducible apply Device.modTimer_sound | with_reducible apply Device.wr_sound
    | with_reducible apply State.run_keeps | intro _ | with_reducible apply ite_sound | split
    | (with_reducible dsimp only)

theorem execTickPeriodRequest_keeps (code : Nat) (s : State) :
    Keeps s (execTickPeriodRequest code s) := by
  refine State.run_keeps fun d hd => ?_
  have hr : ∀ k c, Device.Sound ((d.event 0x2010 3 lvWarn [(8, k)]).abort 0x2010 3 c) := fun k c =>
    Device.abort_sound _ _ _ _ (Device.event_sound _ _ _ _ _ hd)
  have hc : ∀ c, Device.Sound (d.abort 0x2010 3 c) := fun c => Device.abort_sound _ _ _ _ hd
  refine ite_sound hd ?_
  dsimp only
  split
  · exact ite_sound (hr _ _) (hc _)
  · exact ite_sound (Device.changePeriod_sound _ _ (Device.done_sound _ hd)) (hr _ _)

end Sys2Proof.Machine
end

