-- ==== Sys2Proof/Laws/SoundLockStep.lean ====
section
/-! SUPPORT. Every operation of Machine/LockStep.lean keeps a sound device sound; every command of it completes and
leaves the queue alone. -/
namespace Sys2Proof.Machine

set_option linter.all false
set_option Elab.async false

theorem Device.failTest_sound (d : Device) (b : Nat) (hd : Device.Sound d) :
    Device.Sound (Device.failTest d b) := by
  unfold Device.failTest
  repeat' first
    | with_reducible assumption | with_reducible apply Device.modBoot_sound

theorem Device.modTask_sound (d : Device) (t : Nat) (f : TaskCtl → TaskCtl) (hd : Device.Sound d) :
    Device.Sound (Device.modTask d t f) := by
  unfold Device.modTask
  repeat' first
    | with_reducible assumption | (with_reducible dsimp only)
    | (refine Device.Sound.mk ?_ ?_ ?_ ?_ ?_ ?_ ?_ <;> with_reducible dsimp only) | with_reducible apply Device.Sound.wf
    | with_reducible apply Device.Sound.poles | with_reducible apply Device.Sound.arms
    | with_reducible apply Device.Sound.lanes | with_reducible apply Device.Sound.tasks
    | with_reducible apply Device.Sound.chans | with_reducible apply Device.Sound.convs | rw [List.length_set]
    | rw [List.length_map] | rw [numbered_length] | simp only [List.length_cons, List.length_nil]
    | simp only [Barrier.downWith]

theorem Device.overrun_sound (d : Device) (t : Nat) (hd : Device.Sound d) :
    Device.Sound (Device.overrun d t) := by
  unfold Device.overrun
  repeat' first
    | with_reducible assumption
    | (extract_lets -underBinder +onlyGivenNames x; clear_value (hv : x = _); refine (fun (hx : Device.Sound x) => ?_) ?_; rotate_left; refine sound_of_eq hv ?_; clear hv x; rotate_left; clear hv)
    | (extract_lets -underBinder +onlyGivenNames x; clear_value x) | with_reducible apply Device.bump_sound
    | with_reducible apply Device.event_sound | with_reducible apply Device.modTask_sound
    | with_reducible apply Device.wr_sound | with_reducible apply ite_sound | split | (with_reducible dsimp only)

theorem Device.showCycles_sound (d : Device) (t : Nat) (n : Nat) (hd : Device.Sound d) :
    Device.Sound (Device.showCycles d t n) := by
  unfold Device.showCycles
  repeat' first
    | with_reducible assumption
    | (extract_lets -underBinder +onlyGivenNames x; clear_value (hv : x = _); refine (fun (hx : Device.Sound x) => ?_) ?_; rotate_left; refine sound_of_eq hv ?_; clear hv x; rotate_left; clear hv)
    | (extract_lets -underBinder +onlyGivenNames x; clear_value x) | with_reducible apply Device.wr_sound
    | with_reducible apply ite_sound | split | (with_reducible dsimp only)

theorem Device.taskEnds_sound (d : Device) (r : TaskRun) (hd : Device.Sound d) :
    Device.Sound (Device.taskEnds d r) := by
  unfold Device.taskEnds
  repeat' first
    | with_reducible assumption
    | (extract_lets -underBinder +onlyGivenNames x; clear_value (hv : x = _); refine (fun (hx : Device.Sound x) => ?_) ?_; rotate_left; refine sound_of_eq hv ?_; clear hv x; rotate_left; clear hv)
    | (extract_lets -underBinder +onlyGivenNames x; clear_value (hv : x = _); refine (fun (hx : Device.Sound (SendResult.dev x)) => ?_) ?_; rotate_left; refine sound_of_eq_send hv ?_; clear hv x; rotate_left; clear hv)
    | (extract_lets -underBinder +onlyGivenNames x; clear_value (hv : x = _); refine (fun (hb : (Barrier.chans x).length = 16) => ?_) ?_; rotate_left; rw [hv]; clear hv x; rotate_left; clear hv)
    | (extract_lets -underBinder +onlyGivenNames x; clear_value (hv : x = _); refine (fun (hb : (Front.chans x).length = 32) => ?_) ?_; rotate_left; rw [hv]; clear hv x; rotate_left; clear hv)
    | (extract_lets -underBinder +onlyGivenNames x; clear_value (hv : x = _); refine (fun (hb : List.length (α := Chan) x = 16) => ?_) ?_; rotate_left; rw [hv]; clear hv x; rotate_left; clear hv)
    | (extract_lets -underBinder +onlyGivenNames x; clear_value x) | with_reducible apply Device.bump_sound
    | with_reducible apply Device.event_sound | with_reducible apply Device.modTask_sound
    | with_reducible apply Device.send_sound | with_reducible apply Device.showCycles_sound
    | with_reducible apply Device.wr_sound | with_reducible apply foldl_sound | intro _ | with_reducible apply ite_sound
    | split | (with_reducible dsimp only) | (refine Device.Sound.mk ?_ ?_ ?_ ?_ ?_ ?_ ?_ <;> with_reducible dsimp only)
    | with_reducible apply Device.Sound.wf | with_reducible apply Device.Sound.poles
    | with_reducible apply Device.Sound.arms | with_reducible apply Device.Sound.lanes
    | with_reducible apply Device.Sound.tasks | with_reducible apply Device.Sound.chans
    | with_reducible apply Device.Sound.convs | rw [List.length_set] | rw [List.length_map] | rw [numbered_length]
    | simp only [List.length_cons, List.length_nil] | simp only [Barrier.downWith]

theorem Device.runTasks_sound (runs : List TaskRun) (x1 : List Nat) (x2 : Nat) (x3 : Device) (hx3 : Device.Sound x3) :
    Device.Sound (Device.runTasks runs x1 x2 x3) := by
  have hs : ∀ (y : Slot3) (x : Device), Device.Sound x → Device.Sound { x with slot3 := y } := fun _ _ h =>
    ⟨h.wf, h.poles, h.arms, h.lanes, h.tasks, h.chans, h.convs⟩
  induction x1 generalizing x2 x3 with
  | nil => exact hs _ _ hx3
  | cons t rest ih =>
    unfold Device.runTasks
    split
    · exact ite_sound (hs _ _ hx3) (ite_sound (ih _ _ (Device.taskEnds_sound _ _ hx3)) (hs _ _ hx3))
    · exact hs _ _ hx3

theorem Device.showTasks_sound (d : Device) (ts : List (Nat × List Nat)) (hd : Device.Sound d) :
    Device.Sound (Device.showTasks d ts) := by
  unfold Device.showTasks
  repeat' first
    | with_reducible assumption | (extract_lets -underBinder +onlyGivenNames x; clear_value x)
    | with_reducible apply Device.wr_sound | with_reducible apply foldl_sound | intro _ | with_reducible apply ite_sound
    | split | (with_reducible dsimp only)

theorem Device.slotCut_sound (d : Device) (hd : Device.Sound d) :
    Device.Sound (Device.slotCut d) := by
  unfold Device.slotCut
  repeat' first
    | with_reducible assumption | (with_reducible dsimp only)
    | (refine Device.Sound.mk ?_ ?_ ?_ ?_ ?_ ?_ ?_ <;> with_reducible dsimp only) | with_reducible apply Device.Sound.wf
    | with_reducible apply Device.Sound.poles | with_reducible apply Device.Sound.arms
    | with_reducible apply Device.Sound.lanes | with_reducible apply Device.Sound.tasks
    | with_reducible apply Device.Sound.chans | with_reducible apply Device.Sound.convs | rw [List.length_set]
    | rw [List.length_map] | rw [numbered_length] | simp only [List.length_cons, List.length_nil]
    | simp only [Barrier.downWith]

theorem Device.taskActivate_sound (ts : List (Nat × List Nat)) (d : Device) (t : Nat) (hd : Device.Sound d) :
    Device.Sound (Device.taskActivate ts d t) := by
  unfold Device.taskActivate
  repeat' first
    | with_reducible assumption
    | (extract_lets -underBinder +onlyGivenNames x; clear_value (hv : x = _); refine (fun (hx : Device.Sound x) => ?_) ?_; rotate_left; refine sound_of_eq hv ?_; clear hv x; rotate_left; clear hv)
    | (extract_lets -underBinder +onlyGivenNames x; clear_value x) | with_reducible apply Device.modTask_sound
    | with_reducible apply Device.wr_sound | with_reducible apply foldl_sound | intro _ | with_reducible apply ite_sound
    | split | (with_reducible dsimp only)

theorem Device.taskCommand_sound (d : Device) (t : Nat) (code : Nat) (hd : Device.Sound d) :
    Device.Sound (Device.taskCommand d t code) := by
  unfold Device.taskCommand
  repeat' first
    | with_reducible assumption | (extract_lets -underBinder +onlyGivenNames x; clear_value x)
    | with_reducible apply Device.abort_sound | with_reducible apply Device.modTask_sound
    | with_reducible apply Device.sdo_sound | intro _ | with_reducible apply ite_sound | split
    | (with_reducible dsimp only)

theorem Device.taskEffect_sound (d : Device) (t : Nat) (hd : Device.Sound d) :
    Device.Sound (Device.taskEffect d t) := by
  unfold Device.taskEffect
  repeat' first
    | with_reducible assumption
    | (extract_lets -underBinder +onlyGivenNames x; clear_value (hv : x = _); refine (fun (hx : Device.Sound x) => ?_) ?_; rotate_left; refine sound_of_eq hv ?_; clear hv x; rotate_left; clear hv)
    | (extract_lets -underBinder +onlyGivenNames x; clear_value x) | with_reducible apply Device.modTask_sound
    | with_reducible apply Device.wr_sound | with_reducible apply ite_sound | split | (with_reducible dsimp only)

theorem Device.tasksActivate_sound (d : Device) (ts : List (Nat × List Nat)) (hd : Device.Sound d) :
    Device.Sound (Device.tasksActivate d ts) := by
  unfold Device.tasksActivate
  repeat' first
    | with_reducible assumption
    | (extract_lets -underBinder +onlyGivenNames x; clear_value (hv : x = _); refine (fun (hx : Device.Sound x) => ?_) ?_; rotate_left; refine sound_of_eq hv ?_; clear hv x; rotate_left; clear hv)
    | (extract_lets -underBinder +onlyGivenNames x; clear_value x) | with_reducible apply Device.showTasks_sound
    | with_reducible apply Device.taskActivate_sound | with_reducible apply Device.wr_sound
    | with_reducible apply foldl_sound | intro _ | with_reducible apply ite_sound | split | (with_reducible dsimp only)

theorem Device.tasksBoundary_sound (d : Device) (hd : Device.Sound d) :
    Device.Sound (Device.tasksBoundary d) := by
  unfold Device.tasksBoundary
  repeat' first
    | with_reducible assumption | with_reducible apply Device.taskEffect_sound | with_reducible apply foldl_sound
    | intro _ | with_reducible apply ite_sound | split | (with_reducible dsimp only)

theorem Device.toSafeState_sound (d : Device) (hd : Device.Sound d) :
    Device.Sound (Device.toSafeState d) := by
  unfold Device.toSafeState
  repeat' first
    | with_reducible assumption
    | (extract_lets -underBinder +onlyGivenNames x; clear_value (hv : x = _); refine (fun (hx : Device.Sound x) => ?_) ?_; rotate_left; refine sound_of_eq hv ?_; clear hv x; rotate_left; clear hv)
    | (extract_lets -underBinder +onlyGivenNames x; clear_value (hv : x = _); refine (fun (hb : (Barrier.chans x).length = 16) => ?_) ?_; rotate_left; rw [hv]; clear hv x; rotate_left; clear hv)
    | (extract_lets -underBinder +onlyGivenNames x; clear_value (hv : x = _); refine (fun (hb : (Front.chans x).length = 32) => ?_) ?_; rotate_left; rw [hv]; clear hv x; rotate_left; clear hv)
    | (extract_lets -underBinder +onlyGivenNames x; clear_value (hv : x = _); refine (fun (hb : List.length (α := Chan) x = 16) => ?_) ?_; rotate_left; rw [hv]; clear hv x; rotate_left; clear hv)
    | (extract_lets -underBinder +onlyGivenNames x; clear_value x) | with_reducible apply Device.plantSafeState_sound
    | with_reducible apply Device.slotCut_sound | with_reducible apply Device.wr_sound | (with_reducible dsimp only)
    | (refine Device.Sound.mk ?_ ?_ ?_ ?_ ?_ ?_ ?_ <;> with_reducible dsimp only) | with_reducible apply Device.Sound.wf
    | with_reducible apply Device.Sound.poles | with_reducible apply Device.Sound.arms
    | with_reducible apply Device.Sound.lanes | with_reducible apply Device.Sound.tasks
    | with_reducible apply Device.Sound.chans | with_reducible apply Device.Sound.convs | rw [List.length_set]
    | rw [List.length_map] | rw [numbered_length] | simp only [List.length_cons, List.length_nil]
    | simp only [Barrier.downWith]

theorem execClockLoss_keeps (plant : Bool) (s : State) :
    Keeps s (execClockLoss plant s) := by
  unfold execClockLoss
  refine State.run_keeps fun d hd => ?_
  repeat' first
    | with_reducible assumption
    | (extract_lets -underBinder +onlyGivenNames x; clear_value (hv : x = _); refine (fun (hx : Device.Sound x) => ?_) ?_; rotate_left; refine sound_of_eq hv ?_; clear hv x; rotate_left; clear hv)
    | (extract_lets -underBinder +onlyGivenNames x; clear_value x) | with_reducible apply Device.bump_sound
    | with_reducible apply Device.modBoot_sound | with_reducible apply Device.modTimer_sound
    | with_reducible apply Device.showBlockOut_sound | with_reducible apply Device.stCount_sound
    | with_reducible apply Device.stationReset_sound | with_reducible apply Device.toSafeState_sound
    | with_reducible apply Device.wr_sound | with_reducible apply Device.wrF_sound | with_reducible apply State.run_keeps
    | intro _ | with_reducible apply ite_sound | split | (with_reducible dsimp only)

theorem execDebugAccess_keeps (pair : Nat) (kind : Nat) (s : State) :
    Keeps s (execDebugAccess pair kind s) := by
  unfold execDebugAccess
  refine State.run_keeps fun d hd => ?_
  repeat' first
    | with_reducible assumption
    | (extract_lets -underBinder +onlyGivenNames x; clear_value (hv : x = _); refine (fun (hx : Device.Sound x) => ?_) ?_; rotate_left; refine sound_of_eq hv ?_; clear hv x; rotate_left; clear hv)
    | (extract_lets -underBinder +onlyGivenNames x; clear_value x) | with_reducible apply Device.accum_sound
    | with_reducible apply Device.wrBit_sound | with_reducible apply State.run_keeps | intro _
    | with_reducible apply ite_sound | split | (with_reducible dsimp only)

theorem execDebugEnable_keeps (v : Nat) (s : State) :
    Keeps s (execDebugEnable v s) := by
  unfold execDebugEnable
  refine State.run_keeps fun d hd => ?_
  repeat' first
    | with_reducible assumption | (extract_lets -underBinder +onlyGivenNames x; clear_value x)
    | with_reducible apply Device.abort_sound | with_reducible apply Device.sdo_sound
    | with_reducible apply Device.wr_sound | with_reducible apply State.run_keeps | intro _
    | with_reducible apply ite_sound | split | (with_reducible dsimp only)

theorem execJtagBoundaryScan_keeps (s : State) :
    Keeps s (execJtagBoundaryScan s) := by
  unfold execJtagBoundaryScan
  refine State.run_keeps fun d hd => ?_
  repeat' first
    | with_reducible assumption | with_reducible apply State.run_keeps | intro _

theorem execLockStepFault_keeps (pair : Nat) (kind : Nat) (word : Nat) (s : State) :
    Keeps s (execLockStepFault pair kind word s) := by
  unfold execLockStepFault
  refine State.run_keeps fun d hd => ?_
  repeat' first
    | with_reducible assumption
    | (extract_lets -underBinder +onlyGivenNames x; clear_value (hv : x = _); refine (fun (hx : Device.Sound x) => ?_) ?_; rotate_left; refine sound_of_eq hv ?_; clear hv x; rotate_left; clear hv)
    | (extract_lets -underBinder +onlyGivenNames x; clear_value x) | with_reducible apply Device.enterFault_sound
    | with_reducible apply Device.event_sound | with_reducible apply Device.failTest_sound
    | with_reducible apply Device.modBoot_sound | with_reducible apply Device.toSafeState_sound
    | with_reducible apply State.run_keeps | intro _ | with_reducible apply ite_sound | split
    | (with_reducible dsimp only)

theorem execPair3SlotEnd_keeps (s : State) :
    Keeps s (execPair3SlotEnd s) := by
  unfold execPair3SlotEnd
  refine State.run_keeps fun d hd => ?_
  repeat' first
    | with_reducible assumption
    | (extract_lets -underBinder +onlyGivenNames x; clear_value (hv : x = _); refine (fun (hx : Device.Sound x) => ?_) ?_; rotate_left; refine sound_of_eq hv ?_; clear hv x; rotate_left; clear hv)
    | (extract_lets -underBinder +onlyGivenNames x; clear_value x) | with_reducible apply Device.bump_sound
    | with_reducible apply Device.overrun_sound | with_reducible apply Device.showCycles_sound
    | with_reducible apply Device.slotCut_sound | with_reducible apply State.run_keeps | with_reducible apply foldl_sound
    | intro _ | with_reducible apply ite_sound | split | (with_reducible dsimp only)

theorem execPair3SlotStart_keeps (tier : Nat) (runs : List TaskRun) (s : State) :
    Keeps s (execPair3SlotStart tier runs s) := by
  unfold execPair3SlotStart
  refine State.run_keeps fun d hd => ?_
  repeat' first
    | with_reducible assumption
    | (extract_lets -underBinder +onlyGivenNames x; clear_value (hv : x = _); refine (fun (hx : Device.Sound x) => ?_) ?_; rotate_left; refine sound_of_eq hv ?_; clear hv x; rotate_left; clear hv)
    | (extract_lets -underBinder +onlyGivenNames x; clear_value (hv : x = _); refine (fun (hb : (Barrier.chans x).length = 16) => ?_) ?_; rotate_left; rw [hv]; clear hv x; rotate_left; clear hv)
    | (extract_lets -underBinder +onlyGivenNames x; clear_value (hv : x = _); refine (fun (hb : (Front.chans x).length = 32) => ?_) ?_; rotate_left; rw [hv]; clear hv x; rotate_left; clear hv)
    | (extract_lets -underBinder +onlyGivenNames x; clear_value (hv : x = _); refine (fun (hb : List.length (α := Chan) x = 16) => ?_) ?_; rotate_left; rw [hv]; clear hv x; rotate_left; clear hv)
    | (extract_lets -underBinder +onlyGivenNames x; clear_value x) | with_reducible apply Device.bump_sound
    | with_reducible apply Device.modTimer_sound | with_reducible apply Device.runTasks_sound
    | with_reducible apply Device.sendTriggers_sound | with_reducible apply Device.takeAll_sound
    | with_reducible apply Device.tickTier_sound | with_reducible apply Device.tierSample_sound
    | with_reducible apply State.run_keeps | with_reducible apply odWf_odPut | with_reducible apply odWf_puts
    | with_reducible apply odWf_filter | with_reducible exact Device.reset_sound | intro _
    | with_reducible apply ite_sound | split | (with_reducible dsimp only)
    | (refine Device.Sound.mk ?_ ?_ ?_ ?_ ?_ ?_ ?_ <;> with_reducible dsimp only) | with_reducible apply Device.Sound.wf
    | with_reducible apply Device.Sound.poles | with_reducible apply Device.Sound.arms
    | with_reducible apply Device.Sound.lanes | with_reducible apply Device.Sound.tasks
    | with_reducible apply Device.Sound.chans | with_reducible apply Device.Sound.convs | rw [List.length_set]
    | rw [List.length_map] | rw [numbered_length] | simp only [List.length_cons, List.length_nil]
    | simp only [Barrier.downWith]

theorem execRestart_keeps (t : Nat) (s : State) :
    Keeps s (execRestart t s) := by
  unfold execRestart
  refine State.run_keeps fun d hd => ?_
  repeat' first
    | with_reducible assumption | with_reducible apply Device.taskCommand_sound | with_reducible apply State.run_keeps
    | intro _

theorem execResume_keeps (t : Nat) (s : State) :
    Keeps s (execResume t s) := by
  unfold execResume
  refine State.run_keeps fun d hd => ?_
  repeat' first
    | with_reducible assumption | with_reducible apply Device.taskCommand_sound | with_reducible apply State.run_keeps
    | intro _

theorem execSuspend_keeps (t : Nat) (s : State) :
    Keeps s (execSuspend t s) := by
  unfold execSuspend
  refine State.run_keeps fun d hd => ?_
  repeat' first
    | with_reducible assumption | with_reducible apply Device.taskCommand_sound | with_reducible apply State.run_keeps
    | intro _

theorem execTaskBudgetExpiry_keeps (runs : List TaskRun) (s : State) :
    Keeps s (execTaskBudgetExpiry runs s) := by
  unfold execTaskBudgetExpiry
  refine State.run_keeps fun d hd => ?_
  repeat' first
    | with_reducible assumption | (extract_lets -underBinder +onlyGivenNames x; clear_value x)
    | with_reducible apply Device.overrun_sound | with_reducible apply Device.runTasks_sound
    | with_reducible apply Device.showCycles_sound | with_reducible apply State.run_keeps | intro _
    | with_reducible apply ite_sound | split | (with_reducible dsimp only)

theorem execUncorrectableWord_keeps (addr : Nat) (s : State) :
    Keeps s (execUncorrectableWord addr s) := by
  unfold execUncorrectableWord
  refine State.run_keeps fun d hd => ?_
  repeat' first
    | with_reducible assumption
    | (extract_lets -underBinder +onlyGivenNames x; clear_value (hv : x = _); refine (fun (hx : Device.Sound x) => ?_) ?_; rotate_left; refine sound_of_eq hv ?_; clear hv x; rotate_left; clear hv)
    | (extract_lets -underBinder +onlyGivenNames x; clear_value x) | with_reducible apply Device.failTest_sound
    | with_reducible apply Device.modBoot_sound | with_reducible apply Device.toSafeState_sound
    | with_reducible apply State.run_keeps | intro _ | with_reducible apply ite_sound | split
    | (with_reducible dsimp only)

end Sys2Proof.Machine
end

