-- ==== Sys2Proof/Laws/SoundCorePower.lean ====
section
/-! SUPPORT. Every operation of Machine/CorePower.lean keeps a sound device sound; every command of it completes and
leaves the queue alone. -/
namespace Sys2Proof.Machine

set_option linter.all false
set_option Elab.async false

theorem Device.modPower_sound (d : Device) (f : Power → Power) (hd : Device.Sound d) :
    Device.Sound (Device.modPower d f) := by
  unfold Device.modPower
  repeat' first
    | with_reducible assumption | (with_reducible dsimp only)
    | (refine Device.Sound.mk ?_ ?_ ?_ ?_ ?_ ?_ ?_ <;> with_reducible dsimp only) | with_reducible apply Device.Sound.wf
    | with_reducible apply Device.Sound.poles | with_reducible apply Device.Sound.arms
    | with_reducible apply Device.Sound.lanes | with_reducible apply Device.Sound.tasks
    | with_reducible apply Device.Sound.chans | with_reducible apply Device.Sound.convs | rw [List.length_set]
    | rw [List.length_map] | rw [numbered_length] | simp only [List.length_cons, List.length_nil]
    | simp only [Barrier.downWith]

theorem Device.anticipate_sound (d : Device) (hd : Device.Sound d) :
    Device.Sound (Device.anticipate d) := by
  unfold Device.anticipate
  repeat' first
    | with_reducible assumption | with_reducible apply Device.modPower_sound

theorem Device.dropPhases_sound (d : Device) (hs : List Nat) (hd : Device.Sound d) :
    Device.Sound (Device.dropPhases d hs) := by
  unfold Device.dropPhases
  repeat' first
    | with_reducible assumption
    | (extract_lets -underBinder +onlyGivenNames x; clear_value (hv : x = _); refine (fun (hx : Device.Sound x) => ?_) ?_; rotate_left; refine sound_of_eq hv ?_; clear hv x; rotate_left; clear hv)
    | (extract_lets -underBinder +onlyGivenNames x; clear_value x) | with_reducible apply Device.modPower_sound
    | with_reducible apply Device.wr_sound | with_reducible apply odWf_odPut | with_reducible apply odWf_puts
    | with_reducible apply odWf_filter | with_reducible exact Device.reset_sound | with_reducible apply ite_sound | split
    | (with_reducible dsimp only) | (refine Device.Sound.mk ?_ ?_ ?_ ?_ ?_ ?_ ?_ <;> with_reducible dsimp only)
    | with_reducible apply Device.Sound.wf | with_reducible apply Device.Sound.poles
    | with_reducible apply Device.Sound.arms | with_reducible apply Device.Sound.lanes
    | with_reducible apply Device.Sound.tasks | with_reducible apply Device.Sound.chans
    | with_reducible apply Device.Sound.convs | rw [List.length_set] | rw [List.length_map] | rw [numbered_length]
    | simp only [List.length_cons, List.length_nil] | simp only [Barrier.downWith]

theorem Device.frequencyWritten_sound (d : Device) (hd : Device.Sound d) :
    Device.Sound (Device.frequencyWritten d) := by
  unfold Device.frequencyWritten
  repeat' first
    | with_reducible assumption | with_reducible apply Device.bump_sound | with_reducible apply Device.event_sound
    | with_reducible apply ite_sound | split | (with_reducible dsimp only)

theorem Device.latchSwitches_sound (d : Device) (bits : Nat) (cause : Nat) (hd : Device.Sound d) :
    Device.Sound (Device.latchSwitches d bits cause) := by
  unfold Device.latchSwitches
  repeat' first
    | with_reducible assumption
    | (extract_lets -underBinder +onlyGivenNames x; clear_value (hv : x = _); refine (fun (hx : Device.Sound x) => ?_) ?_; rotate_left; refine sound_of_eq hv ?_; clear hv x; rotate_left; clear hv)
    | (extract_lets -underBinder +onlyGivenNames x; clear_value x) | with_reducible apply Device.dropPhases_sound
    | with_reducible apply Device.modBoot_sound | with_reducible apply Device.modPower_sound
    | with_reducible apply Device.wr_sound | with_reducible apply odWf_odPut | with_reducible apply odWf_puts
    | with_reducible apply odWf_filter | with_reducible exact Device.reset_sound | (with_reducible dsimp only)
    | (refine Device.Sound.mk ?_ ?_ ?_ ?_ ?_ ?_ ?_ <;> with_reducible dsimp only) | with_reducible apply Device.Sound.wf
    | with_reducible apply Device.Sound.poles | with_reducible apply Device.Sound.arms
    | with_reducible apply Device.Sound.lanes | with_reducible apply Device.Sound.tasks
    | with_reducible apply Device.Sound.chans | with_reducible apply Device.Sound.convs | rw [List.length_set]
    | rw [List.length_map] | rw [numbered_length] | simp only [List.length_cons, List.length_nil]
    | simp only [Barrier.downWith]

theorem Device.lockOut_sound (d : Device) (k : Nat) (hd : Device.Sound d) :
    Device.Sound (Device.lockOut d k) := by
  unfold Device.lockOut
  repeat' first
    | with_reducible assumption | with_reducible apply Device.bump_sound | with_reducible apply Device.modPower_sound
    | with_reducible apply ite_sound | split | (with_reducible dsimp only)

theorem Device.measureStore_sound (d : Device) (byCharge : Bool) (hd : Device.Sound d) :
    Device.Sound (Device.measureStore d byCharge) := by
  unfold Device.measureStore
  repeat' first
    | with_reducible assumption
    | (extract_lets -underBinder +onlyGivenNames x; clear_value (hv : x = _); refine (fun (hx : Device.Sound x) => ?_) ?_; rotate_left; refine sound_of_eq hv ?_; clear hv x; rotate_left; clear hv)
    | (extract_lets -underBinder +onlyGivenNames x; clear_value x) | with_reducible apply Device.modPower_sound
    | with_reducible apply Device.wr_sound | with_reducible apply ite_sound | split | (with_reducible dsimp only)

theorem Device.phaseAdd_sound (d : Device) (hd : Device.Sound d) :
    Device.Sound (Device.phaseAdd d) := by
  unfold Device.phaseAdd
  repeat' first
    | with_reducible assumption | (extract_lets -underBinder +onlyGivenNames x; clear_value x)
    | with_reducible apply Device.wr_sound | with_reducible apply ite_sound | split | (with_reducible dsimp only)

theorem Device.shedAbort_sound (d : Device) (hd : Device.Sound d) :
    Device.Sound (Device.shedAbort d) := by
  unfold Device.shedAbort
  repeat' first
    | with_reducible assumption | with_reducible apply Device.bump_sound | with_reducible apply Device.modPower_sound
    | with_reducible apply ite_sound | split | (with_reducible dsimp only)

theorem Device.shedProgress_sound (d : Device) (ps : Nat) (hd : Device.Sound d) :
    Device.Sound (Device.shedProgress d ps) := by
  unfold Device.shedProgress
  repeat' first
    | with_reducible assumption | (extract_lets -underBinder +onlyGivenNames x; clear_value x)
    | with_reducible apply Device.modPower_sound | with_reducible apply Device.wr_sound
    | with_reducible apply foldl_sound | intro _ | with_reducible apply ite_sound | split | (with_reducible dsimp only)

theorem Device.showEnergy_sound (d : Device) (hd : Device.Sound d) :
    Device.Sound (Device.showEnergy d) := by
  unfold Device.showEnergy
  repeat' first
    | with_reducible assumption | (extract_lets -underBinder +onlyGivenNames x; clear_value x)
    | with_reducible apply Device.wrB_sound | with_reducible apply Device.wrF_sound

theorem Device.storeFloats_sound (d : Device) (hd : Device.Sound d) :
    Device.Sound (Device.storeFloats d) := by
  unfold Device.storeFloats
  repeat' first
    | with_reducible assumption | with_reducible apply Device.wr_sound | with_reducible apply ite_sound | split
    | (with_reducible dsimp only)

theorem Device.powerTick_sound (d : Device) (ps : Nat) (i : T0In) (hd : Device.Sound d) :
    Device.Sound (Device.powerTick d ps i) := by
  unfold Device.powerTick
  repeat' first
    | with_reducible assumption
    | (extract_lets -underBinder +onlyGivenNames x; clear_value (hv : x = _); refine (fun (hx : Device.Sound x) => ?_) ?_; rotate_left; refine sound_of_eq hv ?_; clear hv x; rotate_left; clear hv)
    | (extract_lets -underBinder +onlyGivenNames x; clear_value x) | with_reducible apply Device.anticipate_sound
    | with_reducible apply Device.bumpBy_sound | with_reducible apply Device.modPower_sound
    | with_reducible apply Device.phaseAdd_sound | with_reducible apply Device.shedAbort_sound
    | with_reducible apply Device.shedProgress_sound | with_reducible apply Device.showEnergy_sound
    | with_reducible apply Device.storeFloats_sound | with_reducible apply Device.wr_sound
    | with_reducible apply Device.wrF_sound | with_reducible apply foldl_sound | with_reducible apply odWf_odPut
    | with_reducible apply odWf_puts | with_reducible apply odWf_filter | with_reducible exact Device.reset_sound
    | intro _ | with_reducible apply ite_sound | split | (with_reducible dsimp only)
    | (refine Device.Sound.mk ?_ ?_ ?_ ?_ ?_ ?_ ?_ <;> with_reducible dsimp only) | with_reducible apply Device.Sound.wf
    | with_reducible apply Device.Sound.poles | with_reducible apply Device.Sound.arms
    | with_reducible apply Device.Sound.lanes | with_reducible apply Device.Sound.tasks
    | with_reducible apply Device.Sound.chans | with_reducible apply Device.Sound.convs | rw [List.length_set]
    | rw [List.length_map] | rw [numbered_length] | simp only [List.length_cons, List.length_nil]
    | simp only [Barrier.downWith]

theorem Device.setReg_sound (d : Device) (st : Nat) (hd : Device.Sound d) :
    Device.Sound (Device.setReg d st) := by
  unfold Device.setReg
  repeat' first
    | with_reducible assumption
    | (extract_lets -underBinder +onlyGivenNames x; clear_value (hv : x = _); refine (fun (hx : Device.Sound x) => ?_) ?_; rotate_left; refine sound_of_eq hv ?_; clear hv x; rotate_left; clear hv)
    | (extract_lets -underBinder +onlyGivenNames x; clear_value x) | with_reducible apply Device.modPower_sound
    | with_reducible apply Device.wr_sound | with_reducible apply ite_sound | split | (with_reducible dsimp only)

theorem Device.retentionStart_sound (d : Device) (hd : Device.Sound d) :
    Device.Sound (Device.retentionStart d) := by
  unfold Device.retentionStart
  repeat' first
    | with_reducible assumption
    | (extract_lets -underBinder +onlyGivenNames x; clear_value (hv : x = _); refine (fun (hx : Device.Sound x) => ?_) ?_; rotate_left; refine sound_of_eq hv ?_; clear hv x; rotate_left; clear hv)
    | (extract_lets -underBinder +onlyGivenNames x; clear_value x) | with_reducible apply Device.modPower_sound
    | with_reducible apply Device.setReg_sound | with_reducible apply Device.wr_sound | with_reducible apply foldl_sound
    | intro _ | (with_reducible dsimp only)

theorem Device.shutDown_sound (d : Device) (hd : Device.Sound d) :
    Device.Sound (Device.shutDown d) := by
  unfold Device.shutDown
  repeat' first
    | with_reducible assumption
    | (extract_lets -underBinder +onlyGivenNames x; clear_value (hv : x = _); refine (fun (hx : Device.Sound x) => ?_) ?_; rotate_left; refine sound_of_eq hv ?_; clear hv x; rotate_left; clear hv)
    | (extract_lets -underBinder +onlyGivenNames x; clear_value x) | with_reducible apply Device.latchSwitches_sound
    | with_reducible apply Device.plantHold_sound | with_reducible apply Device.setReg_sound
    | with_reducible apply ite_sound | split | (with_reducible dsimp only)

theorem Device.softStart_sound (d : Device) (attempt : Nat) (hd : Device.Sound d) :
    Device.Sound (Device.softStart d attempt) := by
  unfold Device.softStart
  repeat' first
    | with_reducible assumption
    | (extract_lets -underBinder +onlyGivenNames x; clear_value (hv : x = _); refine (fun (hx : Device.Sound x) => ?_) ?_; rotate_left; refine sound_of_eq hv ?_; clear hv x; rotate_left; clear hv)
    | (extract_lets -underBinder +onlyGivenNames x; clear_value x) | with_reducible apply Device.modPower_sound
    | with_reducible apply Device.setReg_sound | with_reducible apply Device.wr_sound

theorem Device.softStartFails_sound (d : Device) (hd : Device.Sound d) :
    Device.Sound (Device.softStartFails d) := by
  unfold Device.softStartFails
  repeat' first
    | with_reducible assumption | with_reducible apply Device.bump_sound
    | with_reducible apply Device.latchSwitches_sound | with_reducible apply Device.setReg_sound
    | with_reducible apply ite_sound | split | (with_reducible dsimp only)

theorem Device.storeHealth_sound (d : Device) (bits : Nat) (hd : Device.Sound d) :
    Device.Sound (Device.storeHealth d bits) := by
  unfold Device.storeHealth
  repeat' first
    | with_reducible assumption
    | (extract_lets -underBinder +onlyGivenNames x; clear_value (hv : x = _); refine (fun (hx : Device.Sound x) => ?_) ?_; rotate_left; refine sound_of_eq hv ?_; clear hv x; rotate_left; clear hv)
    | (extract_lets -underBinder +onlyGivenNames x; clear_value x) | with_reducible apply Device.bumpEvent_sound
    | with_reducible apply Device.wr_sound | with_reducible apply foldl_sound | with_reducible apply odWf_odPut
    | with_reducible apply odWf_puts | with_reducible apply odWf_filter | with_reducible exact Device.reset_sound
    | intro _ | with_reducible apply ite_sound | split | (with_reducible dsimp only)
    | (refine Device.Sound.mk ?_ ?_ ?_ ?_ ?_ ?_ ?_ <;> with_reducible dsimp only) | with_reducible apply Device.Sound.wf
    | with_reducible apply Device.Sound.poles | with_reducible apply Device.Sound.arms
    | with_reducible apply Device.Sound.lanes | with_reducible apply Device.Sound.tasks
    | with_reducible apply Device.Sound.chans | with_reducible apply Device.Sound.convs | rw [List.length_set]
    | rw [List.length_map] | rw [numbered_length] | simp only [List.length_cons, List.length_nil]
    | simp only [Barrier.downWith]

theorem Device.writeRegRecord_sound (d : Device) (hd : Device.Sound d) :
    Device.Sound (Device.writeRegRecord d) := by
  unfold Device.writeRegRecord
  repeat' first
    | with_reducible assumption | with_reducible apply Device.modPower_sound

theorem execBootstrapLockout_keeps (x0 : Nat) (s : State) :
    Keeps s (execBootstrapLockout x0 s) := by
  unfold execBootstrapLockout
  refine State.run_keeps fun d hd => ?_
  repeat' first
    | with_reducible assumption | with_reducible apply Device.lockOut_sound | with_reducible apply State.run_keeps
    | intro _ | with_reducible apply ite_sound | split | (with_reducible dsimp only)

theorem execBrakeEnd_keeps (s : State) :
    Keeps s (execBrakeEnd s) := by
  unfold execBrakeEnd
  refine State.run_keeps fun d hd => ?_
  repeat' first
    | with_reducible assumption | with_reducible apply Device.modPower_sound | with_reducible apply State.run_keeps
    | intro _

theorem execBrakeStart_keeps (s : State) :
    Keeps s (execBrakeStart s) := by
  unfold execBrakeStart
  refine State.run_keeps fun d hd => ?_
  repeat' first
    | with_reducible assumption | with_reducible apply Device.bump_sound | with_reducible apply Device.modPower_sound
    | with_reducible apply State.run_keeps | intro _ | with_reducible apply ite_sound | split
    | (with_reducible dsimp only)

theorem execComparatorTestPhase_keeps (v : Nat) (failed : Nat) (s : State) :
    Keeps s (execComparatorTestPhase v failed s) := by
  unfold execComparatorTestPhase
  refine State.run_keeps fun d hd => ?_
  repeat' first
    | with_reducible assumption
    | (extract_lets -underBinder +onlyGivenNames x; clear_value (hv : x = _); refine (fun (hx : Device.Sound x) => ?_) ?_; rotate_left; refine sound_of_eq hv ?_; clear hv x; rotate_left; clear hv)
    | (extract_lets -underBinder +onlyGivenNames x; clear_value x) | with_reducible apply Device.abort_sound
    | with_reducible apply Device.latchSwitches_sound | with_reducible apply Device.sdo_sound
    | with_reducible apply Device.wr_sound | with_reducible apply State.run_keeps | intro _
    | with_reducible apply ite_sound | split | (with_reducible dsimp only)

theorem execCoreRailFault_keeps (cause : Nat) (s : State) :
    Keeps s (execCoreRailFault cause s) := by
  unfold execCoreRailFault
  refine State.run_keeps fun d hd => ?_
  repeat' first
    | with_reducible assumption
    | (extract_lets -underBinder +onlyGivenNames x; clear_value (hv : x = _); refine (fun (hx : Device.Sound x) => ?_) ?_; rotate_left; refine sound_of_eq hv ?_; clear hv x; rotate_left; clear hv)
    | (extract_lets -underBinder +onlyGivenNames x; clear_value x) | with_reducible apply Device.endgameSave_sound
    | with_reducible apply Device.modMeter_sound | with_reducible apply Device.modPower_sound
    | with_reducible apply Device.setReg_sound | with_reducible apply Device.shutDown_sound
    | with_reducible apply Device.toSafeState_sound | with_reducible apply State.run_keeps | intro _
    | with_reducible apply ite_sound | split | (with_reducible dsimp only)

theorem execEndgameSaveEnd_keeps (written : Nat) (s : State) :
    Keeps s (execEndgameSaveEnd written s) := by
  unfold execEndgameSaveEnd
  refine State.run_keeps fun d hd => ?_
  repeat' first
    | with_reducible assumption
    | (extract_lets -underBinder +onlyGivenNames x; clear_value (hv : x = _); refine (fun (hx : Device.Sound x) => ?_) ?_; rotate_left; refine sound_of_eq hv ?_; clear hv x; rotate_left; clear hv)
    | (extract_lets -underBinder +onlyGivenNames x; clear_value x) | with_reducible apply Device.modMeter_sound
    | with_reducible apply Device.modPower_sound | with_reducible apply Device.retentionStart_sound
    | with_reducible apply Device.writeSlot_sound | with_reducible apply State.run_keeps | intro _
    | with_reducible apply ite_sound | split | (with_reducible dsimp only)

theorem execForcedRefresh_keeps (x0 : Nat) (s : State) :
    Keeps s (execForcedRefresh x0 s) := by
  unfold execForcedRefresh
  refine State.run_keeps fun d hd => ?_
  repeat' first
    | with_reducible assumption | with_reducible apply Device.bump_sound | with_reducible apply State.run_keeps | intro _
    | with_reducible apply ite_sound | split | (with_reducible dsimp only)

theorem execHiccupExpiry_keeps (s : State) :
    Keeps s (execHiccupExpiry s) := by
  unfold execHiccupExpiry
  refine State.run_keeps fun d hd => ?_
  repeat' first
    | with_reducible assumption | with_reducible apply Device.softStart_sound | with_reducible apply State.run_keeps
    | intro _ | with_reducible apply ite_sound | split | (with_reducible dsimp only)

theorem execLoadStep_keeps (s : State) :
    Keeps s (execLoadStep s) := by
  unfold execLoadStep
  refine State.run_keeps fun d hd => ?_
  repeat' first
    | with_reducible assumption | with_reducible apply Device.shedAbort_sound | with_reducible apply State.run_keeps
    | intro _

theorem execLockoutRecovery_keeps (k : Nat) (s : State) :
    Keeps s (execLockoutRecovery k s) := by
  unfold execLockoutRecovery
  refine State.run_keeps fun d hd => ?_
  repeat' first
    | with_reducible assumption | with_reducible apply Device.modPower_sound | with_reducible apply State.run_keeps
    | intro _

theorem execMeasureNow_keeps (v : Nat) (s : State) :
    Keeps s (execMeasureNow v s) := by
  unfold execMeasureNow
  refine State.run_keeps fun d hd => ?_
  repeat' first
    | with_reducible assumption | with_reducible apply Device.measureStore_sound | with_reducible apply Device.sdo_sound
    | with_reducible apply State.run_keeps | intro _ | with_reducible apply ite_sound | split
    | (with_reducible dsimp only)

theorem execPhaseShed_keeps (s : State) :
    Keeps s (execPhaseShed s) := by
  unfold execPhaseShed
  refine State.run_keeps fun d hd => ?_
  repeat' first
    | with_reducible assumption | (extract_lets -underBinder +onlyGivenNames x; clear_value x)
    | with_reducible apply Device.drawn_sound | with_reducible apply Device.modPower_sound
    | with_reducible apply State.run_keeps | intro _ | with_reducible apply ite_sound | split
    | (with_reducible dsimp only)

theorem execPowerGood_keeps (s : State) :
    Keeps s (execPowerGood s) := by
  unfold execPowerGood
  refine State.run_keeps fun d hd => ?_
  repeat' first
    | with_reducible assumption | with_reducible apply Device.setReg_sound | with_reducible apply State.run_keeps
    | intro _ | with_reducible apply ite_sound | split | (with_reducible dsimp only)

theorem execRegEnHigh_keeps (detected : Nat) (failed : Nat) (s : State) :
    Keeps s (execRegEnHigh detected failed s) := by
  unfold execRegEnHigh
  refine State.run_keeps fun d hd => ?_
  repeat' first
    | with_reducible assumption
    | (extract_lets -underBinder +onlyGivenNames x; clear_value (hv : x = _); refine (fun (hx : Device.Sound x) => ?_) ?_; rotate_left; refine sound_of_eq hv ?_; clear hv x; rotate_left; clear hv)
    | (extract_lets -underBinder +onlyGivenNames x; clear_value x) | with_reducible apply Device.event_sound
    | with_reducible apply Device.latchSwitches_sound | with_reducible apply Device.modPower_sound
    | with_reducible apply Device.setReg_sound | with_reducible apply Device.softStart_sound
    | with_reducible apply Device.wr_sound | with_reducible apply State.run_keeps | with_reducible apply odWf_odPut
    | with_reducible apply odWf_puts | with_reducible apply odWf_filter | with_reducible exact Device.reset_sound
    | intro _ | with_reducible apply ite_sound | split | (with_reducible dsimp only)
    | (refine Device.Sound.mk ?_ ?_ ?_ ?_ ?_ ?_ ?_ <;> with_reducible dsimp only) | with_reducible apply Device.Sound.wf
    | with_reducible apply Device.Sound.poles | with_reducible apply Device.Sound.arms
    | with_reducible apply Device.Sound.lanes | with_reducible apply Device.Sound.tasks
    | with_reducible apply Device.Sound.chans | with_reducible apply Device.Sound.convs | rw [List.length_set]
    | rw [List.length_map] | rw [numbered_length] | simp only [List.length_cons, List.length_nil]
    | simp only [Barrier.downWith]

theorem execRegEnLow_keeps (s : State) :
    Keeps s (execRegEnLow s) := by
  unfold execRegEnLow
  refine State.run_keeps fun d hd => ?_
  repeat' first
    | with_reducible assumption
    | (extract_lets -underBinder +onlyGivenNames x; clear_value (hv : x = _); refine (fun (hx : Device.Sound x) => ?_) ?_; rotate_left; refine sound_of_eq hv ?_; clear hv x; rotate_left; clear hv)
    | (extract_lets -underBinder +onlyGivenNames x; clear_value x) | with_reducible apply Device.modPower_sound
    | with_reducible apply Device.plantReset_sound | with_reducible apply Device.setReg_sound
    | with_reducible apply Device.wr_sound | with_reducible apply State.run_keeps | intro _
    | with_reducible apply ite_sound | split | (with_reducible dsimp only)

theorem execShutdownExpiry_keeps (s : State) :
    Keeps s (execShutdownExpiry s) := by
  unfold execShutdownExpiry
  refine State.run_keeps fun d hd => ?_
  repeat' first
    | with_reducible assumption | with_reducible apply Device.shutDown_sound | with_reducible apply State.run_keeps
    | intro _ | with_reducible apply ite_sound | split | (with_reducible dsimp only)

theorem execSoftStartTimeout_keeps (s : State) :
    Keeps s (execSoftStartTimeout s) := by
  unfold execSoftStartTimeout
  refine State.run_keeps fun d hd => ?_
  repeat' first
    | with_reducible assumption | with_reducible apply Device.softStartFails_sound | with_reducible apply State.run_keeps
    | intro _ | with_reducible apply ite_sound | split | (with_reducible dsimp only)

theorem execStoreChargeTimeout_keeps (s : State) :
    Keeps s (execStoreChargeTimeout s) := by
  unfold execStoreChargeTimeout
  refine State.run_keeps fun d hd => ?_
  repeat' first
    | with_reducible assumption | (extract_lets -underBinder +onlyGivenNames x; clear_value x)
    | with_reducible apply Device.storeHealth_sound | with_reducible apply State.run_keeps | intro _
    | with_reducible apply ite_sound | split | (with_reducible dsimp only)

theorem execStoreMeasurement_keeps (s : State) :
    Keeps s (execStoreMeasurement s) := by
  unfold execStoreMeasurement
  refine State.run_keeps fun d hd => ?_
  repeat' first
    | with_reducible assumption | with_reducible apply Device.measureStore_sound | with_reducible apply State.run_keeps
    | intro _ | with_reducible apply ite_sound | split | (with_reducible dsimp only)

theorem execStoreMeasurementComplete_keeps (c : Nat) (esr : Nat) (s : State) :
    Keeps s (execStoreMeasurementComplete c esr s) := by
  unfold execStoreMeasurementComplete
  refine State.run_keeps fun d hd => ?_
  repeat' first
    | with_reducible assumption
    | (extract_lets -underBinder +onlyGivenNames x; clear_value (hv : x = _); refine (fun (hx : Device.Sound x) => ?_) ?_; rotate_left; refine sound_of_eq hv ?_; clear hv x; rotate_left; clear hv)
    | (extract_lets -underBinder +onlyGivenNames x; clear_value x) | with_reducible apply Device.bump_sound
    | with_reducible apply Device.modPower_sound | with_reducible apply Device.showEnergy_sound
    | with_reducible apply Device.storeHealth_sound | with_reducible apply Device.wr_sound
    | with_reducible apply State.run_keeps | intro _ | with_reducible apply ite_sound | split
    | (with_reducible dsimp only)

theorem execStoreOvervoltage_keeps (s : State) :
    Keeps s (execStoreOvervoltage s) := by
  unfold execStoreOvervoltage
  refine State.run_keeps fun d hd => ?_
  repeat' first
    | with_reducible assumption | with_reducible apply Device.modPower_sound
    | with_reducible apply Device.storeHealth_sound | with_reducible apply State.run_keeps | intro _
    | with_reducible apply ite_sound | split | (with_reducible dsimp only)

theorem execSupplyLoss_keeps (vs : Nat) (s : State) :
    Keeps s (execSupplyLoss vs s) := by
  unfold execSupplyLoss
  refine State.run_keeps fun d hd => ?_
  repeat' first
    | with_reducible assumption
    | (extract_lets -underBinder +onlyGivenNames x; clear_value (hv : x = _); refine (fun (hx : Device.Sound x) => ?_) ?_; rotate_left; refine sound_of_eq hv ?_; clear hv x; rotate_left; clear hv)
    | (extract_lets -underBinder +onlyGivenNames x; clear_value x) | with_reducible apply Device.bump_sound
    | with_reducible apply Device.modBoot_sound | with_reducible apply Device.modMeter_sound
    | with_reducible apply Device.modPower_sound | with_reducible apply Device.plantHold_sound
    | with_reducible apply Device.setReg_sound | with_reducible apply Device.wr_sound
    | with_reducible apply State.run_keeps | intro _ | with_reducible apply ite_sound | split
    | (with_reducible dsimp only)

theorem execSupplyReturn_keeps (s : State) :
    Keeps s (execSupplyReturn s) := by
  unfold execSupplyReturn
  refine State.run_keeps fun d hd => ?_
  repeat' first
    | with_reducible assumption
    | (extract_lets -underBinder +onlyGivenNames x; clear_value (hv : x = _); refine (fun (hx : Device.Sound x) => ?_) ?_; rotate_left; refine sound_of_eq hv ?_; clear hv x; rotate_left; clear hv)
    | (extract_lets -underBinder +onlyGivenNames x; clear_value x) | with_reducible apply Device.modPower_sound
    | with_reducible apply Device.retentionStart_sound | with_reducible apply State.run_keeps | intro _
    | with_reducible apply ite_sound | split | (with_reducible dsimp only)

theorem execSwitchShortTrip_keeps (soft : Nat) (hard : Nat) (s : State) :
    Keeps s (execSwitchShortTrip soft hard s) := by
  unfold execSwitchShortTrip
  refine State.run_keeps fun d hd => ?_
  repeat' first
    | with_reducible assumption
    | (extract_lets -underBinder +onlyGivenNames x; clear_value (hv : x = _); refine (fun (hx : Device.Sound x) => ?_) ?_; rotate_left; refine sound_of_eq hv ?_; clear hv x; rotate_left; clear hv)
    | (extract_lets -underBinder +onlyGivenNames x; clear_value x) | with_reducible apply Device.bumpBy_sound
    | with_reducible apply Device.latchSwitches_sound | with_reducible apply Device.modPower_sound
    | with_reducible apply Device.softStartFails_sound | with_reducible apply State.run_keeps | intro _
    | with_reducible apply ite_sound | split | (with_reducible dsimp only)

theorem execVdrvLockout_keeps (s : State) :
    Keeps s (execVdrvLockout s) := by
  unfold execVdrvLockout
  refine State.run_keeps fun d hd => ?_
  repeat' first
    | with_reducible assumption | with_reducible apply Device.lockOut_sound | with_reducible apply State.run_keeps
    | intro _

end Sys2Proof.Machine
end

