-- ==== Sys2Proof/Laws/SoundSlow.lean ====
section
/-! SUPPORT. Every operation of Machine/Slow.lean keeps a sound device sound; every command of it completes and
leaves the queue alone. -/
namespace Sys2Proof.Machine

set_option linter.all false
set_option Elab.async false

theorem Device.showXs_sound (d : Device) (p : Nat) (hd : Device.Sound d) :
    Device.Sound (Device.showXs d p) := by
  unfold Device.showXs
  repeat' first
    | with_reducible assumption | (extract_lets -underBinder +onlyGivenNames x; clear_value x)
    | with_reducible apply Device.wrF_sound

theorem Device.commitSlow_sound (d : Device) (p : Nat) (hd : Device.Sound d) :
    Device.Sound (Device.commitSlow d p) := by
  unfold Device.commitSlow
  repeat' first
    | with_reducible assumption
    | (extract_lets -underBinder +onlyGivenNames x; clear_value (hv : x = _); refine (fun (hx : Device.Sound x) => ?_) ?_; rotate_left; refine sound_of_eq hv ?_; clear hv x; rotate_left; clear hv)
    | (extract_lets -underBinder +onlyGivenNames x; clear_value x) | with_reducible apply Device.bump_sound
    | with_reducible apply Device.missedRun_sound | with_reducible apply Device.modPole_sound
    | with_reducible apply Device.setSub_sound | with_reducible apply Device.showXs_sound
    | with_reducible apply ite_sound | split | (with_reducible dsimp only)

theorem Device.dcModeChange_sound (d : Device) (p : Nat) (m : SlowMeans) (hd : Device.Sound d) :
    Device.Sound (Device.dcModeChange d p m) := by
  unfold Device.dcModeChange
  repeat' first
    | with_reducible assumption | (extract_lets -underBinder +onlyGivenNames x; clear_value x)
    | with_reducible apply Device.modSlow_sound | with_reducible apply ite_sound | split | (with_reducible dsimp only)

theorem Device.frameValue_sound (p : Nat) (d : Device) (kv : Nat × Nat) (hd : Device.Sound d) :
    Device.Sound (Device.frameValue p d kv) := by
  unfold Device.frameValue
  repeat' first
    | with_reducible assumption
    | (extract_lets -underBinder +onlyGivenNames x; clear_value (hv : x = _); refine (fun (hx : Device.Sound x) => ?_) ?_; rotate_left; refine sound_of_eq hv ?_; clear hv x; rotate_left; clear hv)
    | (extract_lets -underBinder +onlyGivenNames x; clear_value x) | with_reducible apply Device.event_sound
    | with_reducible apply Device.modPole_sound | with_reducible apply Device.poleOrder_sound
    | with_reducible apply Device.wr_sound | with_reducible apply Device.wrF_sound | with_reducible apply ite_sound
    | split | (with_reducible dsimp only)

theorem Device.framesDue_sound (d : Device) (p : Nat) (hd : Device.Sound d) :
    Device.Sound (Device.framesDue d p) := by
  unfold Device.framesDue
  repeat' first
    | with_reducible assumption
    | (extract_lets -underBinder +onlyGivenNames x; clear_value (hv : x = _); refine (fun (hx : Device.Sound x) => ?_) ?_; rotate_left; refine sound_of_eq hv ?_; clear hv x; rotate_left; clear hv)
    | (extract_lets -underBinder +onlyGivenNames x; clear_value x) | with_reducible apply Device.event_sound
    | with_reducible apply Device.frameValue_sound | with_reducible apply Device.modPole_sound
    | with_reducible apply Device.setSub_sound | with_reducible apply foldl_sound | with_reducible apply odWf_odPut
    | with_reducible apply odWf_puts | with_reducible apply odWf_filter | with_reducible exact Device.reset_sound
    | intro _ | with_reducible apply ite_sound | split | (with_reducible dsimp only)
    | (refine Device.Sound.mk ?_ ?_ ?_ ?_ ?_ ?_ ?_ <;> with_reducible dsimp only) | with_reducible apply Device.Sound.wf
    | with_reducible apply Device.Sound.poles | with_reducible apply Device.Sound.arms
    | with_reducible apply Device.Sound.lanes | with_reducible apply Device.Sound.tasks
    | with_reducible apply Device.Sound.chans | with_reducible apply Device.Sound.convs | rw [List.length_set]
    | rw [List.length_map] | rw [numbered_length] | simp only [List.length_cons, List.length_nil]
    | simp only [Barrier.downWith]

theorem Device.reproduce_sound (d : Device) (p : Nat) (m : SlowMeans) (hd : Device.Sound d) :
    Device.Sound (Device.reproduce d p m) := by
  unfold Device.reproduce
  repeat' first
    | with_reducible assumption | (extract_lets -underBinder +onlyGivenNames x; clear_value x)
    | with_reducible apply Device.modSlow_sound | with_reducible apply ite_sound | split | (with_reducible dsimp only)

theorem Device.gridModeChange_sound (d : Device) (p : Nat) (m : SlowMeans) (hd : Device.Sound d) :
    Device.Sound (Device.gridModeChange d p m) := by
  unfold Device.gridModeChange
  repeat' first
    | with_reducible assumption
    | (extract_lets -underBinder +onlyGivenNames x; clear_value (hv : x = _); refine (fun (hx : Device.Sound x) => ?_) ?_; rotate_left; refine sound_of_eq hv ?_; clear hv x; rotate_left; clear hv)
    | (extract_lets -underBinder +onlyGivenNames x; clear_value x) | with_reducible apply Device.modPole_sound
    | with_reducible apply Device.modSlow_sound | with_reducible apply Device.reproduce_sound
    | with_reducible apply ite_sound | split | (with_reducible dsimp only)

theorem Device.reconnected_sound (d : Device) (p : Nat) (m : SlowMeans) (hd : Device.Sound d) :
    Device.Sound (Device.reconnected d p m) := by
  unfold Device.reconnected
  repeat' first
    | with_reducible assumption
    | (extract_lets -underBinder +onlyGivenNames x; clear_value (hv : x = _); refine (fun (hx : Device.Sound x) => ?_) ?_; rotate_left; refine sound_of_eq hv ?_; clear hv x; rotate_left; clear hv)
    | (extract_lets -underBinder +onlyGivenNames x; clear_value x) | with_reducible apply Device.enterPole_sound
    | with_reducible apply Device.modPole_sound | with_reducible apply Device.modSlow_sound
    | with_reducible apply Device.reproduce_sound | with_reducible apply Device.setSub_sound
    | with_reducible apply ite_sound | split | (with_reducible dsimp only)

theorem Device.refuseFrame_sound (d : Device) (vals : List (Nat × Nat)) (hd : Device.Sound d) :
    Device.Sound (Device.refuseFrame d vals) := by
  unfold Device.refuseFrame
  repeat' first
    | with_reducible assumption
    | (extract_lets -underBinder +onlyGivenNames x; clear_value (hv : x = _); refine (fun (hx : Device.Sound x) => ?_) ?_; rotate_left; refine sound_of_eq hv ?_; clear hv x; rotate_left; clear hv)
    | (extract_lets -underBinder +onlyGivenNames x; clear_value x) | with_reducible apply Device.bump_sound
    | with_reducible apply Device.modPole_sound | with_reducible apply Device.wrBit_sound
    | with_reducible apply foldl_sound | with_reducible apply odWf_odPut | with_reducible apply odWf_puts
    | with_reducible apply odWf_filter | with_reducible exact Device.reset_sound | intro _
    | with_reducible apply ite_sound | split | (with_reducible dsimp only)
    | (refine Device.Sound.mk ?_ ?_ ?_ ?_ ?_ ?_ ?_ <;> with_reducible dsimp only) | with_reducible apply Device.Sound.wf
    | with_reducible apply Device.Sound.poles | with_reducible apply Device.Sound.arms
    | with_reducible apply Device.Sound.lanes | with_reducible apply Device.Sound.tasks
    | with_reducible apply Device.Sound.chans | with_reducible apply Device.Sound.convs | rw [List.length_set]
    | rw [List.length_map] | rw [numbered_length] | simp only [List.length_cons, List.length_nil]
    | simp only [Barrier.downWith]

theorem Device.slowModes_sound (d : Device) (p : Nat) (m : SlowMeans) (hd : Device.Sound d) :
    Device.Sound (Device.slowModes d p m) := by
  unfold Device.slowModes
  repeat' first
    | with_reducible assumption
    | (extract_lets -underBinder +onlyGivenNames x; clear_value (hv : x = _); refine (fun (hx : Device.Sound x) => ?_) ?_; rotate_left; refine sound_of_eq hv ?_; clear hv x; rotate_left; clear hv)
    | (extract_lets -underBinder +onlyGivenNames x; clear_value x) | with_reducible apply Device.dcModeChange_sound
    | with_reducible apply Device.gridModeChange_sound | with_reducible apply Device.modSlow_sound
    | with_reducible apply Device.reconnected_sound

theorem Device.takeFrame_sound (d : Device) (due : Nat) (vals : List (Nat × Nat)) (hd : Device.Sound d) :
    Device.Sound (Device.takeFrame d due vals) := by
  unfold Device.takeFrame
  repeat' first
    | with_reducible assumption | with_reducible apply Device.modPole_sound | with_reducible apply foldl_sound | intro _
    | (with_reducible dsimp only)

theorem Device.transitionOver_sound (d : Device) (p : Nat) (hd : Device.Sound d) :
    Device.Sound (Device.transitionOver d p) := by
  unfold Device.transitionOver
  repeat' first
    | with_reducible assumption | with_reducible apply Device.setSub_sound | with_reducible apply ite_sound | split
    | (with_reducible dsimp only)

theorem execSetpointFrame_keeps (vals : List (Nat × Nat)) (s : State) :
    Keeps s (execSetpointFrame vals s) := by
  unfold execSetpointFrame
  refine State.run_keeps fun d hd => ?_
  repeat' first
    | with_reducible assumption | (extract_lets -underBinder +onlyGivenNames x; clear_value x)
    | with_reducible apply Device.forward_sound | with_reducible apply Device.refuseFrame_sound
    | with_reducible apply Device.takeFrame_sound | with_reducible apply Device.wrBit_sound
    | with_reducible apply State.run_keeps | intro _ | with_reducible apply ite_sound | split
    | (with_reducible dsimp only)

theorem execSetpointLoss_keeps (p : Nat) (s : State) :
    Keeps s (execSetpointLoss p s) := by
  unfold execSetpointLoss
  refine State.run_keeps fun d hd => ?_
  repeat' first
    | with_reducible assumption
    | (extract_lets -underBinder +onlyGivenNames x; clear_value (hv : x = _); refine (fun (hx : Device.Sound x) => ?_) ?_; rotate_left; refine sound_of_eq hv ?_; clear hv x; rotate_left; clear hv)
    | (extract_lets -underBinder +onlyGivenNames x; clear_value x) | with_reducible apply Device.bumpEvent_sound
    | with_reducible apply Device.modPole_sound | with_reducible apply Device.setSub_sound
    | with_reducible apply Device.tripPole_sound | with_reducible apply State.run_keeps | intro _
    | with_reducible apply ite_sound | split | (with_reducible dsimp only)

end Sys2Proof.Machine
end

