-- ==== Sys2Proof/Laws/SoundLoss.lean ====
section
/-! SUPPORT. Every operation of Machine/Loss.lean keeps a sound device sound; every command of it completes and
leaves the queue alone. -/
namespace Sys2Proof.Machine

set_option linter.all false
set_option Elab.async false

theorem Device.modLoss_sound (d : Device) (p : Nat) (f : Loss → Loss) (hd : Device.Sound d) :
    Device.Sound (Device.modLoss d p f) := by
  unfold Device.modLoss
  repeat' first
    | with_reducible assumption | with_reducible apply Device.modPole_sound

theorem Device.lossActivate_sound (d : Device) (p : Nat) (hd : Device.Sound d) :
    Device.Sound (Device.lossActivate d p) := by
  unfold Device.lossActivate
  repeat' first
    | with_reducible assumption
    | (extract_lets -underBinder +onlyGivenNames x; clear_value (hv : x = _); refine (fun (hx : Device.Sound x) => ?_) ?_; rotate_left; refine sound_of_eq hv ?_; clear hv x; rotate_left; clear hv)
    | (extract_lets -underBinder +onlyGivenNames x; clear_value x) | with_reducible apply Device.lossNeutral_sound
    | with_reducible apply Device.modLoss_sound | with_reducible apply Device.wr_sound

theorem Device.lossClose_sound (d : Device) (p : Nat) (hd : Device.Sound d) :
    Device.Sound (Device.lossClose d p) := by
  unfold Device.lossClose
  repeat' first
    | with_reducible assumption
    | (extract_lets -underBinder +onlyGivenNames x; clear_value (hv : x = _); refine (fun (hx : Device.Sound x) => ?_) ?_; rotate_left; refine sound_of_eq hv ?_; clear hv x; rotate_left; clear hv)
    | (extract_lets -underBinder +onlyGivenNames x; clear_value x) | with_reducible apply Device.bump_sound
    | with_reducible apply Device.modLoss_sound | with_reducible apply Device.wrF_sound | with_reducible apply ite_sound
    | split | (with_reducible dsimp only)

theorem Device.lossOpen_sound (d : Device) (p : Nat) (hd : Device.Sound d) :
    Device.Sound (Device.lossOpen d p) := by
  unfold Device.lossOpen
  repeat' first
    | with_reducible assumption | (extract_lets -underBinder +onlyGivenNames x; clear_value x)
    | with_reducible apply Device.modLoss_sound | with_reducible apply ite_sound | split | (with_reducible dsimp only)

theorem Device.lossAtWindow_sound (d : Device) (p : Nat) (hd : Device.Sound d) :
    Device.Sound (Device.lossAtWindow d p) := by
  unfold Device.lossAtWindow
  repeat' first
    | with_reducible assumption
    | (extract_lets -underBinder +onlyGivenNames x; clear_value (hv : x = _); refine (fun (hx : Device.Sound x) => ?_) ?_; rotate_left; refine sound_of_eq hv ?_; clear hv x; rotate_left; clear hv)
    | (extract_lets -underBinder +onlyGivenNames x; clear_value x) | with_reducible apply Device.lossClose_sound
    | with_reducible apply Device.lossOpen_sound | with_reducible apply Device.modLoss_sound
    | with_reducible apply ite_sound | split | (with_reducible dsimp only)

theorem Device.lossBaseline_sound (d : Device) (p : Nat) (w : Rat × Rat × Rat × Bool) (hd : Device.Sound d) :
    Device.Sound (Device.lossBaseline d p w).1 := by
  unfold Device.lossBaseline
  repeat' first
    | with_reducible assumption | with_reducible apply Device.modLoss_sound | with_reducible apply Device.wrF_sound
    | with_reducible apply ite_sound | split | (with_reducible dsimp only)

/-- The same for the parts of the pair. -/
theorem Device.lossBaseline_sound_eq {d : Device} {p : Nat} {w : Rat × Rat × Rat × Bool} {z : Device} {e : _} (he : Device.lossBaseline d p w = (z, e)) (hd : Device.Sound d) : Device.Sound z := by
  have h := Device.lossBaseline_sound d p w hd
  rwa [he] at h

theorem Device.lossRevert_sound (d : Device) (p : Nat) (hd : Device.Sound d) :
    Device.Sound (Device.lossRevert d p) := by
  unfold Device.lossRevert
  repeat' first
    | with_reducible assumption | (extract_lets -underBinder +onlyGivenNames x; clear_value x)
    | with_reducible apply Device.modLoss_sound | with_reducible apply ite_sound | split | (with_reducible dsimp only)

theorem Device.lossDecide_sound (d : Device) (p : Nat) (w : Rat × Rat × Rat × Bool) (hd : Device.Sound d) :
    Device.Sound (Device.lossDecide d p w).1 := by
  unfold Device.lossDecide
  repeat' first
    | with_reducible assumption
    | (extract_lets -underBinder +onlyGivenNames x; clear_value (hv : x = _); refine (fun (hx : Device.Sound x) => ?_) ?_; rotate_left; refine sound_of_eq hv ?_; clear hv x; rotate_left; clear hv)
    | (extract_lets -underBinder +onlyGivenNames x; clear_value x) | with_reducible apply Device.bump_sound
    | with_reducible apply Device.lossRevert_sound | with_reducible apply Device.modLoss_sound
    | with_reducible apply Device.wr_sound | with_reducible apply Device.wrBit_sound
    | with_reducible apply Device.wrF_sound | with_reducible apply ite_sound | split | (with_reducible dsimp only)

/-- The same for the parts of the pair. -/
theorem Device.lossDecide_sound_eq {d : Device} {p : Nat} {w : Rat × Rat × Rat × Bool} {z : Device} {e : _} (he : Device.lossDecide d p w = (z, e)) (hd : Device.Sound d) : Device.Sound z := by
  have h := Device.lossDecide_sound d p w hd
  rwa [he] at h

theorem Device.lossClosed_sound (d : Device) (p : Nat) (st : Nat) (hd : Device.Sound d) :
    Device.Sound (Device.lossClosed d p st).1 := by
  unfold Device.lossClosed
  repeat' first
    | with_reducible assumption | with_reducible refine Device.lossBaseline_sound_eq (by assumption) ?_
    | with_reducible apply Device.lossBaseline_sound
    | with_reducible refine Device.lossDecide_sound_eq (by assumption) ?_ | with_reducible apply Device.lossDecide_sound
    | with_reducible apply ite_sound | split | (with_reducible dsimp only)

/-- The same for the parts of the pair. -/
theorem Device.lossClosed_sound_eq {d : Device} {p : Nat} {st : Nat} {z : Device} {e : _} (he : Device.lossClosed d p st = (z, e)) (hd : Device.Sound d) : Device.Sound z := by
  have h := Device.lossClosed_sound d p st hd
  rwa [he] at h

theorem Device.lossEnter_sound (d : Device) (p : Nat) (st : Nat) (commit : Nat) (hd : Device.Sound d) :
    Device.Sound (Device.lossEnter d p st commit) := by
  unfold Device.lossEnter
  repeat' first
    | with_reducible assumption | with_reducible apply Device.modLoss_sound | with_reducible apply Device.wr_sound
    | with_reducible apply ite_sound | split | (with_reducible dsimp only)

theorem Device.lossFreeze_sound (d : Device) (p : Nat) (hd : Device.Sound d) :
    Device.Sound (Device.lossFreeze d p) := by
  unfold Device.lossFreeze
  repeat' first
    | with_reducible assumption
    | (extract_lets -underBinder +onlyGivenNames x; clear_value (hv : x = _); refine (fun (hx : Device.Sound x) => ?_) ?_; rotate_left; refine sound_of_eq hv ?_; clear hv x; rotate_left; clear hv)
    | (extract_lets -underBinder +onlyGivenNames x; clear_value x) | with_reducible apply Device.bump_sound
    | with_reducible refine Device.lossClosed_sound_eq (by assumption) ?_ | with_reducible apply Device.lossClosed_sound
    | with_reducible apply Device.lossEnter_sound | with_reducible apply Device.lossRevert_sound
    | with_reducible apply ite_sound | split | (with_reducible dsimp only)

theorem Device.lossLimits_sound (d : Device) (p : Nat) (hd : Device.Sound d) :
    Device.Sound (Device.lossLimits d p).1 := by
  unfold Device.lossLimits
  repeat' first
    | with_reducible assumption | (extract_lets -underBinder +onlyGivenNames x; clear_value x)
    | with_reducible apply Device.modLoss_sound | with_reducible apply ite_sound | split | (with_reducible dsimp only)

/-- The same for the parts of the pair. -/
theorem Device.lossLimits_sound_eq {d : Device} {p : Nat} {z : Device} {e : _} (he : Device.lossLimits d p = (z, e)) (hd : Device.Sound d) : Device.Sound z := by
  have h := Device.lossLimits_sound d p hd
  rwa [he] at h

theorem Device.lossSettings_sound (d : Device) (p : Nat) (commit : Nat) (hd : Device.Sound d) :
    Device.Sound (Device.lossSettings d p commit) := by
  unfold Device.lossSettings
  repeat' first
    | with_reducible assumption
    | (extract_lets -underBinder +onlyGivenNames x; clear_value (hv : x = _); refine (fun (hx : Device.Sound x) => ?_) ?_; rotate_left; refine sound_of_eq hv ?_; clear hv x; rotate_left; clear hv)
    | (extract_lets -underBinder +onlyGivenNames x; clear_value x) | with_reducible apply Device.lossEnter_sound
    | with_reducible refine Device.lossLimits_sound_eq (by assumption) ?_ | with_reducible apply Device.lossLimits_sound
    | with_reducible apply Device.lossRevert_sound | with_reducible apply Device.modLoss_sound
    | with_reducible apply ite_sound | split | (with_reducible dsimp only)

theorem Device.lossStop_sound (d : Device) (p : Nat) (hd : Device.Sound d) :
    Device.Sound (Device.lossStop d p) := by
  unfold Device.lossStop
  repeat' first
    | with_reducible assumption
    | (extract_lets -underBinder +onlyGivenNames x; clear_value (hv : x = _); refine (fun (hx : Device.Sound x) => ?_) ?_; rotate_left; refine sound_of_eq hv ?_; clear hv x; rotate_left; clear hv)
    | (extract_lets -underBinder +onlyGivenNames x; clear_value x) | with_reducible apply Device.modLoss_sound
    | with_reducible apply Device.wr_sound | with_reducible apply ite_sound | split | (with_reducible dsimp only)

theorem Device.lossTrial_sound (d : Device) (p : Nat) (hd : Device.Sound d) :
    Device.Sound (Device.lossTrial d p) := by
  unfold Device.lossTrial
  repeat' first
    | with_reducible assumption
    | (extract_lets -underBinder +onlyGivenNames x; clear_value (hv : x = _); refine (fun (hx : Device.Sound x) => ?_) ?_; rotate_left; refine sound_of_eq hv ?_; clear hv x; rotate_left; clear hv)
    | (extract_lets -underBinder +onlyGivenNames x; clear_value x) | with_reducible apply Device.modLoss_sound
    | with_reducible apply Device.wr_sound | with_reducible apply Device.wrBit_sound | with_reducible apply ite_sound
    | split | (with_reducible dsimp only)

theorem Device.lossLead_sound (d : Device) (p : Nat) (commit : Nat) (why : Nat) (hd : Device.Sound d) :
    Device.Sound (Device.lossLead d p commit why) := by
  unfold Device.lossLead
  repeat' first
    | with_reducible assumption
    | (extract_lets -underBinder +onlyGivenNames x; clear_value (hv : x = _); refine (fun (hx : Device.Sound x) => ?_) ?_; rotate_left; refine sound_of_eq hv ?_; clear hv x; rotate_left; clear hv)
    | (extract_lets -underBinder +onlyGivenNames x; clear_value x)
    | with_reducible refine Device.lossClosed_sound_eq (by assumption) ?_ | with_reducible apply Device.lossClosed_sound
    | with_reducible apply Device.lossEnter_sound | with_reducible apply Device.lossFreeze_sound
    | with_reducible apply Device.lossSettings_sound | with_reducible apply Device.lossStop_sound
    | with_reducible apply Device.lossTrial_sound | with_reducible apply Device.wr_sound | with_reducible apply ite_sound
    | split | (with_reducible dsimp only)

theorem Device.lossTrail_sound (d : Device) (p : Nat) (why : Nat) (hd : Device.Sound d) :
    Device.Sound (Device.lossTrail d p why) := by
  unfold Device.lossTrail
  repeat' first
    | with_reducible assumption
    | (extract_lets -underBinder +onlyGivenNames x; clear_value (hv : x = _); refine (fun (hx : Device.Sound x) => ?_) ?_; rotate_left; refine sound_of_eq hv ?_; clear hv x; rotate_left; clear hv)
    | (extract_lets -underBinder +onlyGivenNames x; clear_value x) | with_reducible apply Device.lossFollow_sound
    | with_reducible apply Device.lossStop_sound | with_reducible apply Device.modLoss_sound
    | with_reducible apply ite_sound | split | (with_reducible dsimp only)

theorem Device.lossRun_sound (d : Device) (p : Nat) (commit : Nat) (power : Rat) (res : SlowRes) (hd : Device.Sound d) :
    Device.Sound (Device.lossRun d p commit power res).1 := by
  unfold Device.lossRun
  repeat' first
    | with_reducible assumption
    | (extract_lets -underBinder +onlyGivenNames x; clear_value (hv : x = _); refine (fun (hx : Device.Sound x) => ?_) ?_; rotate_left; refine sound_of_eq hv ?_; clear hv x; rotate_left; clear hv)
    | (extract_lets -underBinder +onlyGivenNames x; clear_value x) | with_reducible apply Device.forward_sound
    | with_reducible apply Device.lossLead_sound | with_reducible apply Device.lossTrail_sound
    | with_reducible apply Device.modLoss_sound | with_reducible apply Device.wr_sound | with_reducible apply ite_sound
    | split | (with_reducible dsimp only)

/-- The same for the parts of the pair. -/
theorem Device.lossRun_sound_eq {d : Device} {p : Nat} {commit : Nat} {power : Rat} {res : SlowRes} {z : Device} {e : _} (he : Device.lossRun d p commit power res = (z, e)) (hd : Device.Sound d) : Device.Sound z := by
  have h := Device.lossRun_sound d p commit power res hd
  rwa [he] at h

theorem Device.lossTake_sound (d : Device) (p : Nat) (vals : List Nat) (hd : Device.Sound d) :
    Device.Sound (Device.lossTake d p vals) := by
  unfold Device.lossTake
  repeat' first
    | with_reducible assumption
    | (extract_lets -underBinder +onlyGivenNames x; clear_value (hv : x = _); refine (fun (hx : Device.Sound x) => ?_) ?_; rotate_left; refine sound_of_eq hv ?_; clear hv x; rotate_left; clear hv)
    | (extract_lets -underBinder +onlyGivenNames x; clear_value (hv : x = _); refine (fun (hb : (Barrier.chans x).length = 16) => ?_) ?_; rotate_left; rw [hv]; clear hv x; rotate_left; clear hv)
    | (extract_lets -underBinder +onlyGivenNames x; clear_value (hv : x = _); refine (fun (hb : (Front.chans x).length = 32) => ?_) ?_; rotate_left; rw [hv]; clear hv x; rotate_left; clear hv)
    | (extract_lets -underBinder +onlyGivenNames x; clear_value (hv : x = _); refine (fun (hb : List.length (α := Chan) x = 16) => ?_) ?_; rotate_left; rw [hv]; clear hv x; rotate_left; clear hv)
    | (extract_lets -underBinder +onlyGivenNames x; clear_value x) | with_reducible apply Device.modPole_sound
    | with_reducible apply Device.showXs_sound | with_reducible apply Device.wr_sound | with_reducible apply ite_sound
    | split | (with_reducible dsimp only) | (refine Device.Sound.mk ?_ ?_ ?_ ?_ ?_ ?_ ?_ <;> with_reducible dsimp only)
    | with_reducible apply Device.Sound.wf | with_reducible apply Device.Sound.poles
    | with_reducible apply Device.Sound.arms | with_reducible apply Device.Sound.lanes
    | with_reducible apply Device.Sound.tasks | with_reducible apply Device.Sound.chans
    | with_reducible apply Device.Sound.convs | rw [List.length_set] | rw [List.length_map] | rw [numbered_length]
    | simp only [List.length_cons, List.length_nil] | simp only [Barrier.downWith]

theorem Device.slowPole_sound (finish : Bool) (d : Device) (p : Nat) (hd : Device.Sound d) :
    Device.Sound (Device.slowPole finish d p) := by
  unfold Device.slowPole
  repeat' first
    | with_reducible assumption
    | (extract_lets -underBinder +onlyGivenNames x; clear_value (hv : x = _); refine (fun (hx : Device.Sound x) => ?_) ?_; rotate_left; refine sound_of_eq hv ?_; clear hv x; rotate_left; clear hv)
    | (extract_lets -underBinder +onlyGivenNames x; clear_value x) | with_reducible apply Device.framesDue_sound
    | with_reducible refine Device.lossRun_sound_eq (by assumption) ?_ | with_reducible apply Device.lossRun_sound
    | with_reducible apply Device.modPole_sound | with_reducible apply Device.slowModes_sound
    | with_reducible apply ite_sound | split | (with_reducible dsimp only)

theorem Device.startSlow_sound (d : Device) (finish : Bool) (hd : Device.Sound d) :
    Device.Sound (Device.startSlow d finish) := by
  unfold Device.startSlow
  repeat' first
    | with_reducible assumption
    | (extract_lets -underBinder +onlyGivenNames x; clear_value (hv : x = _); refine (fun (hx : Device.Sound x) => ?_) ?_; rotate_left; refine sound_of_eq hv ?_; clear hv x; rotate_left; clear hv)
    | (extract_lets -underBinder +onlyGivenNames x; clear_value x) | with_reducible apply Device.modPole_sound
    | with_reducible apply Device.slowPole_sound | with_reducible apply foldl_sound | intro _
    | with_reducible apply ite_sound | split | (with_reducible dsimp only)

theorem execLossSettleExpiry_keeps (p : Nat) (s : State) :
    Keeps s (execLossSettleExpiry p s) := by
  unfold execLossSettleExpiry
  refine State.run_keeps fun d hd => ?_
  repeat' first
    | with_reducible assumption | (extract_lets -underBinder +onlyGivenNames x; clear_value x)
    | with_reducible apply Device.modLoss_sound | with_reducible apply Device.wr_sound
    | with_reducible apply State.run_keeps | intro _ | with_reducible apply ite_sound | split
    | (with_reducible dsimp only)

theorem execSlowRun_keeps (finish : Bool) (s : State) :
    Keeps s (execSlowRun finish s) := by
  unfold execSlowRun
  refine State.run_keeps fun d hd => ?_
  repeat' first
    | with_reducible assumption | with_reducible apply Device.startSlow_sound | with_reducible apply State.run_keeps
    | intro _

end Sys2Proof.Machine
end

