-- ==== Sys2Proof/Laws/SoundMetering.lean ====
section
/-! SUPPORT. Every operation of Machine/Metering.lean keeps a sound device sound; every command of it completes and
leaves the queue alone. -/
namespace Sys2Proof.Machine

set_option linter.all false
set_option Elab.async false

theorem Device.harmonics_sound (d : Device) (ch : Nat) (hu : Nat) (qual : Nat) (hd : Device.Sound d) :
    Device.Sound (Device.harmonics d ch hu qual) := by
  unfold Device.harmonics
  repeat' first
    | with_reducible assumption
    | (extract_lets -underBinder +onlyGivenNames x; clear_value (hv : x = _); refine (fun (hx : Device.Sound x) => ?_) ?_; rotate_left; refine sound_of_eq hv ?_; clear hv x; rotate_left; clear hv)
    | (extract_lets -underBinder +onlyGivenNames x; clear_value (hv : x = _); refine (fun (hb : (Barrier.chans x).length = 16) => ?_) ?_; rotate_left; rw [hv]; clear hv x; rotate_left; clear hv)
    | (extract_lets -underBinder +onlyGivenNames x; clear_value (hv : x = _); refine (fun (hb : (Front.chans x).length = 32) => ?_) ?_; rotate_left; rw [hv]; clear hv x; rotate_left; clear hv)
    | (extract_lets -underBinder +onlyGivenNames x; clear_value (hv : x = _); refine (fun (hb : List.length (α := Chan) x = 16) => ?_) ?_; rotate_left; rw [hv]; clear hv x; rotate_left; clear hv)
    | (extract_lets -underBinder +onlyGivenNames x; clear_value x) | with_reducible apply Device.wr_sound
    | with_reducible apply Device.wrF_sound | with_reducible apply foldl_sound | intro _ | with_reducible apply ite_sound
    | split | (with_reducible dsimp only) | (refine Device.Sound.mk ?_ ?_ ?_ ?_ ?_ ?_ ?_ <;> with_reducible dsimp only)
    | with_reducible apply Device.Sound.wf | with_reducible apply Device.Sound.poles
    | with_reducible apply Device.Sound.arms | with_reducible apply Device.Sound.lanes
    | with_reducible apply Device.Sound.tasks | with_reducible apply Device.Sound.chans
    | with_reducible apply Device.Sound.convs | rw [List.length_set] | rw [List.length_map] | rw [numbered_length]
    | simp only [List.length_cons, List.length_nil] | simp only [Barrier.downWith]

theorem Device.analyse_sound (d : Device) (p : Nat) (hu : Nat) (qual : Nat) (hd : Device.Sound d) :
    Device.Sound (Device.analyse d p hu qual) := by
  unfold Device.analyse
  repeat' first
    | with_reducible assumption
    | (extract_lets -underBinder +onlyGivenNames x; clear_value (hv : x = _); refine (fun (hx : Device.Sound x) => ?_) ?_; rotate_left; refine sound_of_eq hv ?_; clear hv x; rotate_left; clear hv)
    | (extract_lets -underBinder +onlyGivenNames x; clear_value x) | with_reducible apply Device.harmonics_sound
    | with_reducible apply Device.modMeter_sound | with_reducible apply foldl_sound | intro _
    | with_reducible apply ite_sound | split | (with_reducible dsimp only)

theorem Device.clearStreams_sound (d : Device) (p : Nat) (hd : Device.Sound d) :
    Device.Sound (Device.clearStreams d p) := by
  unfold Device.clearStreams
  repeat' first
    | with_reducible assumption | with_reducible apply Device.modMeter_sound | with_reducible apply ite_sound | split
    | (with_reducible dsimp only)

theorem Device.owe_sound (d : Device) (p : Nat) (incs : List Rat) (o : Nat) (hd : Device.Sound d) :
    Device.Sound (Device.owe d p incs o) := by
  unfold Device.owe
  repeat' first
    | with_reducible assumption
    | (extract_lets -underBinder +onlyGivenNames x; clear_value (hv : x = _); refine (fun (hx : Device.Sound x) => ?_) ?_; rotate_left; refine sound_of_eq hv ?_; clear hv x; rotate_left; clear hv)
    | (extract_lets -underBinder +onlyGivenNames x; clear_value x) | with_reducible apply Device.bumpBy_sound
    | with_reducible apply Device.meterLog_sound | with_reducible apply Device.modMeter_sound
    | with_reducible apply ite_sound | split | (with_reducible dsimp only)

theorem Device.setWindowState_sound (d : Device) (p : Nat) (st : Nat) (hd : Device.Sound d) :
    Device.Sound (Device.setWindowState d p st) := by
  unfold Device.setWindowState
  repeat' first
    | with_reducible assumption | with_reducible apply Device.meterLog_sound | with_reducible apply Device.wr_sound
    | with_reducible apply ite_sound | split | (with_reducible dsimp only)

theorem Device.closeWindow_sound (d : Device) (p : Nat) (hd : Device.Sound d) :
    Device.Sound (Device.closeWindow d p) := by
  unfold Device.closeWindow
  repeat' first
    | with_reducible assumption
    | (extract_lets -underBinder +onlyGivenNames x; clear_value (hv : x = _); refine (fun (hx : Device.Sound x) => ?_) ?_; rotate_left; refine sound_of_eq hv ?_; clear hv x; rotate_left; clear hv)
    | (extract_lets -underBinder +onlyGivenNames x; clear_value x) | with_reducible apply Device.analyse_sound
    | with_reducible apply Device.bump_sound | with_reducible apply Device.credit_sound
    | with_reducible apply Device.meterLog_sound | with_reducible apply Device.modWin_sound
    | with_reducible apply Device.owe_sound | with_reducible apply Device.setWindowState_sound
    | with_reducible apply Device.wr_sound | with_reducible apply foldl_sound | intro _ | with_reducible apply ite_sound
    | split | (with_reducible dsimp only)

theorem Device.gatherPole_sound (d : Device) (p : Nat) (hd : Device.Sound d) :
    Device.Sound (Device.gatherPole d p) := by
  unfold Device.gatherPole
  repeat' first
    | with_reducible assumption | (extract_lets -underBinder +onlyGivenNames x; clear_value x)
    | with_reducible apply Device.modWin_sound | with_reducible apply ite_sound | split | (with_reducible dsimp only)

theorem Device.meterGather_sound (d : Device) (hd : Device.Sound d) :
    Device.Sound (Device.meterGather d) := by
  unfold Device.meterGather
  repeat' first
    | with_reducible assumption
    | (extract_lets -underBinder +onlyGivenNames x; clear_value (hv : x = _); refine (fun (hx : Device.Sound x) => ?_) ?_; rotate_left; refine sound_of_eq hv ?_; clear hv x; rotate_left; clear hv)
    | (extract_lets -underBinder +onlyGivenNames x; clear_value x) | with_reducible apply Device.gatherPole_sound
    | with_reducible apply Device.modMeter_sound | with_reducible apply Device.modWin_sound
    | with_reducible apply ite_sound | split | (with_reducible dsimp only)

theorem Device.meterLanded_sound (d : Device) (ps : Nat) (p : Nat) (hd : Device.Sound d) :
    Device.Sound (Device.meterLanded d ps p) := by
  unfold Device.meterLanded
  repeat' first
    | with_reducible assumption | (extract_lets -underBinder +onlyGivenNames x; clear_value x)
    | with_reducible apply Device.modWin_sound | with_reducible apply foldl_sound | intro _
    | with_reducible apply ite_sound | split | (with_reducible dsimp only)

theorem Device.meterOwn_sound (d : Device) (hd : Device.Sound d) :
    Device.Sound (Device.meterOwn d) := by
  unfold Device.meterOwn
  repeat' first
    | with_reducible assumption | (extract_lets -underBinder +onlyGivenNames x; clear_value x)
    | with_reducible apply Device.analyse_sound | with_reducible apply Device.clearStreams_sound
    | with_reducible apply Device.modWin_sound | with_reducible apply ite_sound | split | (with_reducible dsimp only)

theorem Device.meterPole_sound (ps : Nat) (d : Device) (p : Nat) (hd : Device.Sound d) :
    Device.Sound (Device.meterPole ps d p) := by
  unfold Device.meterPole
  repeat' first
    | with_reducible assumption
    | (extract_lets -underBinder +onlyGivenNames x; clear_value (hv : x = _); refine (fun (hx : Device.Sound x) => ?_) ?_; rotate_left; refine sound_of_eq hv ?_; clear hv x; rotate_left; clear hv)
    | (extract_lets -underBinder +onlyGivenNames x; clear_value x) | with_reducible apply Device.clearStreams_sound
    | with_reducible apply Device.closeWindow_sound | with_reducible apply Device.meterLanded_sound
    | with_reducible apply Device.modWin_sound | with_reducible apply ite_sound | split | (with_reducible dsimp only)

theorem Device.putRecord_sound (d : Device) (r : SaveRec) (hd : Device.Sound d) :
    Device.Sound (Device.putRecord d r) := by
  unfold Device.putRecord
  repeat' first
    | with_reducible assumption
    | (extract_lets -underBinder +onlyGivenNames x; clear_value (hv : x = _); refine (fun (hx : Device.Sound x) => ?_) ?_; rotate_left; refine sound_of_eq hv ?_; clear hv x; rotate_left; clear hv)
    | (extract_lets -underBinder +onlyGivenNames x; clear_value (hv : x = _); refine (fun (hf : ∀ y : Device, Device.Sound y → Device.Sound (x y)) => ?_) ?_; rotate_left; refine sound_of_eq_fun hv ?_; clear hv x; rotate_left; clear hv)
    | (extract_lets -underBinder +onlyGivenNames x; clear_value (hv : x = _); refine (fun (hf : ∀ (y : Device) (z : _), Device.Sound y → Device.Sound (x y z)) => ?_) ?_; rotate_left; refine sound_of_eq_fun₂ hv ?_; clear hv x; rotate_left; clear hv)
    | (extract_lets -underBinder +onlyGivenNames x; clear_value (hv : x = _); refine (fun (hf : ∀ (y : Device) (z : _) (w : _), Device.Sound y → Device.Sound (x y z w)) => ?_) ?_; rotate_left; refine sound_of_eq_fun₃ hv ?_; clear hv x; rotate_left; clear hv)
    | (extract_lets -underBinder +onlyGivenNames x; clear_value x) | with_reducible apply Device.credit_sound
    | with_reducible apply Device.modMeter_sound | with_reducible apply Device.wr_sound | with_reducible apply hf
    | with_reducible apply foldl_sound | intro _ | (with_reducible dsimp only)

theorem Device.showMeterState_sound (d : Device) (hd : Device.Sound d) :
    Device.Sound (Device.showMeterState d) := by
  unfold Device.showMeterState
  repeat' first
    | with_reducible assumption | with_reducible apply Device.wr_sound | with_reducible apply ite_sound | split
    | (with_reducible dsimp only)

theorem Device.meterRestore_sound (d : Device) (hd : Device.Sound d) :
    Device.Sound (Device.meterRestore d) := by
  unfold Device.meterRestore
  repeat' first
    | with_reducible assumption
    | (extract_lets -underBinder +onlyGivenNames x; clear_value (hv : x = _); refine (fun (hx : Device.Sound x) => ?_) ?_; rotate_left; refine sound_of_eq hv ?_; clear hv x; rotate_left; clear hv)
    | (extract_lets -underBinder +onlyGivenNames x; clear_value x) | with_reducible apply Device.bump_sound
    | with_reducible apply Device.meterLog_sound | with_reducible apply Device.modMeter_sound
    | with_reducible apply Device.putRecord_sound | with_reducible apply Device.showMeterLog_sound
    | with_reducible apply Device.showMeterState_sound | with_reducible apply Device.wrB_sound
    | with_reducible apply ite_sound | split | (with_reducible dsimp only)

theorem Device.meterTick_sound (d : Device) (ps : Nat) (hd : Device.Sound d) :
    Device.Sound (Device.meterTick d ps) := by
  unfold Device.meterTick
  repeat' first
    | with_reducible assumption
    | (extract_lets -underBinder +onlyGivenNames x; clear_value (hv : x = _); refine (fun (hx : Device.Sound x) => ?_) ?_; rotate_left; refine sound_of_eq hv ?_; clear hv x; rotate_left; clear hv)
    | (extract_lets -underBinder +onlyGivenNames x; clear_value x) | with_reducible apply Device.meterOwn_sound
    | with_reducible apply Device.meterPole_sound | with_reducible apply Device.modMeter_sound
    | with_reducible apply Device.showMeterState_sound | with_reducible apply ite_sound | split
    | (with_reducible dsimp only)

theorem Device.meterUnsaved_sound (d : Device) (hd : Device.Sound d) :
    Device.Sound (Device.meterUnsaved d) := by
  unfold Device.meterUnsaved
  repeat' first
    | with_reducible assumption
    | (extract_lets -underBinder +onlyGivenNames x; clear_value (hv : x = _); refine (fun (hf : ∀ y : Device, Device.Sound y → Device.Sound (x y)) => ?_) ?_; rotate_left; refine sound_of_eq_fun hv ?_; clear hv x; rotate_left; clear hv)
    | (extract_lets -underBinder +onlyGivenNames x; clear_value (hv : x = _); refine (fun (hf : ∀ (y : Device) (z : _), Device.Sound y → Device.Sound (x y z)) => ?_) ?_; rotate_left; refine sound_of_eq_fun₂ hv ?_; clear hv x; rotate_left; clear hv)
    | (extract_lets -underBinder +onlyGivenNames x; clear_value (hv : x = _); refine (fun (hf : ∀ (y : Device) (z : _) (w : _), Device.Sound y → Device.Sound (x y z w)) => ?_) ?_; rotate_left; refine sound_of_eq_fun₃ hv ?_; clear hv x; rotate_left; clear hv)
    | (extract_lets -underBinder +onlyGivenNames x; clear_value x) | with_reducible apply Device.meterLogAt_sound
    | with_reducible apply Device.modMeter_sound | with_reducible apply hf | intro _ | with_reducible apply ite_sound
    | split | (with_reducible dsimp only)

theorem Device.setLock_sound (d : Device) (cmd : Nat) (hd : Device.Sound d) :
    Device.Sound (Device.setLock d cmd) := by
  unfold Device.setLock
  repeat' first
    | with_reducible assumption
    | (extract_lets -underBinder +onlyGivenNames x; clear_value (hv : x = _); refine (fun (hx : Device.Sound x) => ?_) ?_; rotate_left; refine sound_of_eq hv ?_; clear hv x; rotate_left; clear hv)
    | (extract_lets -underBinder +onlyGivenNames x; clear_value x) | with_reducible apply Device.abort_sound
    | with_reducible apply Device.logRws_sound | with_reducible apply Device.meterLog_sound
    | with_reducible apply Device.showLockCrc_sound | with_reducible apply Device.wrB_sound
    | with_reducible apply ite_sound | split | (with_reducible dsimp only)

theorem execCrossingTimeout_keeps (p : Nat) (s : State) :
    Keeps s (execCrossingTimeout p s) := by
  unfold execCrossingTimeout
  refine State.run_keeps fun d hd => ?_
  repeat' first
    | with_reducible assumption | (extract_lets -underBinder +onlyGivenNames x; clear_value x)
    | with_reducible apply Device.modWin_sound | with_reducible apply Device.setWindowState_sound
    | with_reducible apply State.run_keeps | intro _ | with_reducible apply ite_sound | split
    | (with_reducible dsimp only)

theorem execLockClose_keeps (s : State) :
    Keeps s (execLockClose s) := by
  unfold execLockClose
  refine State.run_keeps fun d hd => ?_
  repeat' first
    | with_reducible assumption | with_reducible apply Device.sdoRws_sound | with_reducible apply Device.setLock_sound
    | with_reducible apply State.run_keeps | intro _

theorem execLockOpen_keeps (s : State) :
    Keeps s (execLockOpen s) := by
  unfold execLockOpen
  refine State.run_keeps fun d hd => ?_
  repeat' first
    | with_reducible assumption | with_reducible apply Device.sdoRws_sound | with_reducible apply Device.setLock_sound
    | with_reducible apply State.run_keeps | intro _

theorem execMeterFaultAcknowledge_keeps (s : State) :
    Keeps s (execMeterFaultAcknowledge s) := by
  unfold execMeterFaultAcknowledge
  refine State.run_keeps fun d hd => ?_
  repeat' first
    | with_reducible assumption | with_reducible apply Device.logRws_sound | with_reducible apply Device.modMeter_sound
    | with_reducible apply Device.sdoRws_sound | with_reducible apply Device.showMeterState_sound
    | with_reducible apply State.run_keeps | intro _

theorem execPeriodicSave_keeps (s : State) :
    Keeps s (execPeriodicSave s) := by
  unfold execPeriodicSave
  refine State.run_keeps fun d hd => ?_
  repeat' first
    | with_reducible assumption
    | (extract_lets -underBinder +onlyGivenNames x; clear_value (hv : x = _); refine (fun (hx : Device.Sound x) => ?_) ?_; rotate_left; refine sound_of_eq hv ?_; clear hv x; rotate_left; clear hv)
    | (extract_lets -underBinder +onlyGivenNames x; clear_value x) | with_reducible apply Device.bump_sound
    | with_reducible apply Device.modMeter_sound | with_reducible apply Device.wr_sound
    | with_reducible apply Device.writeSlot_sound | with_reducible apply State.run_keeps | intro _
    | with_reducible apply ite_sound | split | (with_reducible dsimp only)

theorem execPulseEnd_keeps (o : Nat) (s : State) :
    Keeps s (execPulseEnd o s) := by
  unfold execPulseEnd
  refine State.run_keeps fun d hd => ?_
  repeat' first
    | with_reducible assumption | (extract_lets -underBinder +onlyGivenNames x; clear_value x)
    | with_reducible apply Device.modMeter_sound | with_reducible apply State.run_keeps | intro _
    | with_reducible apply ite_sound | split | (with_reducible dsimp only)

theorem execPulseStart_keeps (o : Nat) (s : State) :
    Keeps s (execPulseStart o s) := by
  unfold execPulseStart
  refine State.run_keeps fun d hd => ?_
  repeat' first
    | with_reducible assumption
    | (extract_lets -underBinder +onlyGivenNames x; clear_value (hv : x = _); refine (fun (hx : Device.Sound x) => ?_) ?_; rotate_left; refine sound_of_eq hv ?_; clear hv x; rotate_left; clear hv)
    | (extract_lets -underBinder +onlyGivenNames x; clear_value x) | with_reducible apply Device.accum_sound
    | with_reducible apply Device.modMeter_sound | with_reducible apply Device.wr_sound
    | with_reducible apply State.run_keeps | intro _ | with_reducible apply ite_sound | split
    | (with_reducible dsimp only)

end Sys2Proof.Machine
end

