-- ==== Sys2Proof/Laws/SoundPipeline.lean ====
section
/-! SUPPORT. Every operation of Machine/Pipeline.lean keeps a sound device sound; every command of it completes and
leaves the queue alone. -/
namespace Sys2Proof.Machine

set_option linter.all false
set_option Elab.async false

theorem Device.commitArm_sound (d : Device) (x1 : Nat) (hd : Device.Sound d) :
    Device.Sound (Device.commitArm d x1) := by
  unfold Device.commitArm
  repeat' first
    | with_reducible assumption | (extract_lets -underBinder +onlyGivenNames x; clear_value x)
    | with_reducible apply Device.engineCommit_sound | with_reducible apply Device.modArm_sound
    | with_reducible apply Device.rankCommit_sound | with_reducible apply Device.wr_sound
    | with_reducible apply foldl_sound | intro _ | with_reducible apply ite_sound | split | (with_reducible dsimp only)

theorem Device.commitLeg_sound (d : Device) (x1 : Nat) (hd : Device.Sound d) :
    Device.Sound (Device.commitLeg d x1) := by
  unfold Device.commitLeg
  repeat' first
    | with_reducible assumption | with_reducible apply Device.legCommit_sound | with_reducible apply ite_sound | split
    | (with_reducible dsimp only)

theorem Device.commitTick_sound (d : Device) (hd : Device.Sound d) :
    Device.Sound (Device.commitTick d) := by
  unfold Device.commitTick
  repeat' first
    | with_reducible assumption | with_reducible apply Device.commitArm_sound
    | with_reducible apply Device.commitLeg_sound | with_reducible apply foldl_sound | intro _
    | (with_reducible dsimp only)

theorem Device.plantFault_sound (d : Device) (hd : Device.Sound d) :
    Device.Sound (Device.plantFault d) := by
  unfold Device.plantFault
  repeat' first
    | with_reducible assumption
    | (extract_lets -underBinder +onlyGivenNames x; clear_value (hv : x = _); refine (fun (hx : Device.Sound x) => ?_) ?_; rotate_left; refine sound_of_eq hv ?_; clear hv x; rotate_left; clear hv)
    | (extract_lets -underBinder +onlyGivenNames x; clear_value (hv : x = _); refine (fun (hb : (Barrier.chans x).length = 16) => ?_) ?_; rotate_left; rw [hv]; clear hv x; rotate_left; clear hv)
    | (extract_lets -underBinder +onlyGivenNames x; clear_value (hv : x = _); refine (fun (hb : (Front.chans x).length = 32) => ?_) ?_; rotate_left; rw [hv]; clear hv x; rotate_left; clear hv)
    | (extract_lets -underBinder +onlyGivenNames x; clear_value (hv : x = _); refine (fun (hb : List.length (α := Chan) x = 16) => ?_) ?_; rotate_left; rw [hv]; clear hv x; rotate_left; clear hv)
    | (extract_lets -underBinder +onlyGivenNames x; clear_value x) | with_reducible apply Device.automaticRollback_sound
    | with_reducible apply Device.enterFault_sound | with_reducible apply ite_sound | split | (with_reducible dsimp only)
    | (refine Device.Sound.mk ?_ ?_ ?_ ?_ ?_ ?_ ?_ <;> with_reducible dsimp only) | with_reducible apply Device.Sound.wf
    | with_reducible apply Device.Sound.poles | with_reducible apply Device.Sound.arms
    | with_reducible apply Device.Sound.lanes | with_reducible apply Device.Sound.tasks
    | with_reducible apply Device.Sound.chans | with_reducible apply Device.Sound.convs | rw [List.length_set]
    | rw [List.length_map] | rw [numbered_length] | simp only [List.length_cons, List.length_nil]
    | simp only [Barrier.downWith]

theorem Device.setStage_sound (d : Device) (k : Nat) (hd : Device.Sound d) :
    Device.Sound (Device.setStage d k) := by
  unfold Device.setStage
  repeat' first
    | with_reducible assumption
    | (extract_lets -underBinder +onlyGivenNames x; clear_value (hv : x = _); refine (fun (hb : (Barrier.chans x).length = 16) => ?_) ?_; rotate_left; rw [hv]; clear hv x; rotate_left; clear hv)
    | (extract_lets -underBinder +onlyGivenNames x; clear_value (hv : x = _); refine (fun (hb : (Front.chans x).length = 32) => ?_) ?_; rotate_left; rw [hv]; clear hv x; rotate_left; clear hv)
    | (extract_lets -underBinder +onlyGivenNames x; clear_value (hv : x = _); refine (fun (hb : List.length (α := Chan) x = 16) => ?_) ?_; rotate_left; rw [hv]; clear hv x; rotate_left; clear hv)
    | (extract_lets -underBinder +onlyGivenNames x; clear_value x) | (with_reducible dsimp only)
    | (refine Device.Sound.mk ?_ ?_ ?_ ?_ ?_ ?_ ?_ <;> with_reducible dsimp only) | with_reducible apply Device.Sound.wf
    | with_reducible apply Device.Sound.poles | with_reducible apply Device.Sound.arms
    | with_reducible apply Device.Sound.lanes | with_reducible apply Device.Sound.tasks
    | with_reducible apply Device.Sound.chans | with_reducible apply Device.Sound.convs | rw [List.length_set]
    | rw [List.length_map] | rw [numbered_length] | simp only [List.length_cons, List.length_nil]
    | simp only [Barrier.downWith]

theorem Device.slipArm_sound (d : Device) (stage : Nat) (x2 : Nat) (hd : Device.Sound d) :
    Device.Sound (Device.slipArm d stage x2) := by
  unfold Device.slipArm
  repeat' first
    | with_reducible assumption
    | (extract_lets -underBinder +onlyGivenNames x; clear_value (hv : x = _); refine (fun (hx : Device.Sound x) => ?_) ?_; rotate_left; refine sound_of_eq hv ?_; clear hv x; rotate_left; clear hv)
    | (extract_lets -underBinder +onlyGivenNames x; clear_value x) | with_reducible apply Device.bump_sound
    | with_reducible apply Device.event_sound | with_reducible apply Device.loseSync_sound
    | with_reducible apply Device.modArm_sound | with_reducible apply Device.noteTrigger_sound
    | with_reducible apply Device.plantFault_sound | with_reducible apply Device.wr_sound
    | with_reducible apply ite_sound | split | (with_reducible dsimp only)

theorem Device.slipMask_sound (d : Device) (stage : Nat) (mask : Nat) (hd : Device.Sound d) :
    Device.Sound (Device.slipMask d stage mask) := by
  unfold Device.slipMask
  repeat' first
    | with_reducible assumption | with_reducible apply Device.slipArm_sound | with_reducible apply foldl_sound | intro _
    | with_reducible apply ite_sound | split | (with_reducible dsimp only)

theorem execControlEngineDeadline_keeps (incomplete : Nat) (s : State) :
    Keeps s (execControlEngineDeadline incomplete s) := by
  unfold execControlEngineDeadline
  refine State.run_keeps fun d hd => ?_
  repeat' first
    | with_reducible assumption | with_reducible apply Device.rankEngine_sound
    | with_reducible apply Device.setStage_sound | with_reducible apply Device.slipMask_sound
    | with_reducible apply State.run_keeps | intro _ | with_reducible apply ite_sound | split
    | (with_reducible dsimp only)

theorem execMeasurementDeadline_keeps (late : Nat) (s : State) :
    Keeps s (execMeasurementDeadline late s) := by
  unfold execMeasurementDeadline
  refine State.run_keeps fun d hd => ?_
  repeat' first
    | with_reducible assumption
    | (extract_lets -underBinder +onlyGivenNames x; clear_value (hv : x = _); refine (fun (hx : Device.Sound x) => ?_) ?_; rotate_left; refine sound_of_eq hv ?_; clear hv x; rotate_left; clear hv)
    | (extract_lets -underBinder +onlyGivenNames x; clear_value x) | with_reducible apply Device.alignLatch_sound
    | with_reducible apply Device.automaticBypass_sound | with_reducible apply Device.cellImages_sound
    | with_reducible apply Device.controlEngine_sound | with_reducible apply Device.setStage_sound
    | with_reducible apply Device.slipArm_sound | with_reducible apply Device.takeAll_sound
    | with_reducible apply State.run_keeps | with_reducible apply foldl_sound | intro _ | with_reducible apply ite_sound
    | split | (with_reducible dsimp only)

theorem execRankEngineDeadline_keeps (incomplete : Nat) (s : State) :
    Keeps s (execRankEngineDeadline incomplete s) := by
  unfold execRankEngineDeadline
  refine State.run_keeps fun d hd => ?_
  repeat' first
    | with_reducible assumption
    | (extract_lets -underBinder +onlyGivenNames x; clear_value (hv : x = _); refine (fun (hx : Device.Sound x) => ?_) ?_; rotate_left; refine sound_of_eq hv ?_; clear hv x; rotate_left; clear hv)
    | (extract_lets -underBinder +onlyGivenNames x; clear_value x) | with_reducible apply Device.commitTick_sound
    | with_reducible apply Device.fire_sound | with_reducible apply Device.setStage_sound
    | with_reducible apply Device.slipMask_sound | with_reducible apply State.run_keeps | intro _
    | with_reducible apply ite_sound | split | (with_reducible dsimp only)

end Sys2Proof.Machine
end

