-- ==== Sys2Proof/Laws/SoundStartup.lean ====
section
/-! SUPPORT. Every operation of Machine/Startup.lean keeps a sound device sound; every command of it completes and
leaves the queue alone. -/
namespace Sys2Proof.Machine

set_option linter.all false
set_option Elab.async false

theorem Device.poleActivate_sound (d : Device) (p : Nat) (hd : Device.Sound d) :
    Device.Sound (Device.poleActivate d p) := by
  unfold Device.poleActivate
  repeat' first
    | with_reducible assumption | (extract_lets -underBinder +onlyGivenNames x; clear_value x)
    | with_reducible apply Device.modPole_sound | with_reducible apply Device.wr_sound | with_reducible apply ite_sound
    | split | (with_reducible dsimp only)

theorem Device.configActivate_sound (d : Device) (vals : List (Nat × Nat)) (ts : List (Nat × List Nat)) (hd : Device.Sound d) :
    Device.Sound (Device.configActivate d vals ts) := by
  unfold Device.configActivate
  repeat' first
    | with_reducible assumption
    | (extract_lets -underBinder +onlyGivenNames x; clear_value (hv : x = _); refine (fun (hx : Device.Sound x) => ?_) ?_; rotate_left; refine sound_of_eq hv ?_; clear hv x; rotate_left; clear hv)
    | (extract_lets -underBinder +onlyGivenNames x; clear_value (hv : x = _); refine (fun (hf : ∀ y : Device, Device.Sound y → Device.Sound (x y)) => ?_) ?_; rotate_left; refine sound_of_eq_fun hv ?_; clear hv x; rotate_left; clear hv)
    | (extract_lets -underBinder +onlyGivenNames x; clear_value (hv : x = _); refine (fun (hf : ∀ (y : Device) (z : _), Device.Sound y → Device.Sound (x y z)) => ?_) ?_; rotate_left; refine sound_of_eq_fun₂ hv ?_; clear hv x; rotate_left; clear hv)
    | (extract_lets -underBinder +onlyGivenNames x; clear_value (hv : x = _); refine (fun (hf : ∀ (y : Device) (z : _) (w : _), Device.Sound y → Device.Sound (x y z w)) => ?_) ?_; rotate_left; refine sound_of_eq_fun₃ hv ?_; clear hv x; rotate_left; clear hv)
    | (extract_lets -underBinder +onlyGivenNames x; clear_value x) | with_reducible apply Device.armActivate_sound
    | with_reducible apply Device.breakWindow_sound | with_reducible apply Device.deriveArm_sound
    | with_reducible apply Device.deriveConsumers_sound | with_reducible apply Device.laneActivate_sound
    | with_reducible apply Device.lossActivate_sound | with_reducible apply Device.meterUnsaved_sound
    | with_reducible apply Device.modBoot_sound | with_reducible apply Device.noteParam_sound
    | with_reducible apply Device.poleActivate_sound | with_reducible apply Device.showBands_sound
    | with_reducible apply Device.showLockCrc_sound | with_reducible apply Device.showPulses_sound
    | with_reducible apply Device.tasksActivate_sound | with_reducible apply Device.withConfig_sound
    | with_reducible apply hf | with_reducible apply foldl_sound | intro _ | (with_reducible dsimp only)

theorem Device.wantPeriod_sound (d : Device) (hd : Device.Sound d) :
    Device.Sound (Device.wantPeriod d) := by
  unfold Device.wantPeriod
  repeat' first
    | with_reducible assumption | (extract_lets -underBinder +onlyGivenNames x; clear_value x)
    | with_reducible apply Device.changePeriod_sound | with_reducible apply Device.event_sound
    | with_reducible apply ite_sound | split | (with_reducible dsimp only)

theorem Device.configure_sound (d : Device) (hd : Device.Sound d) :
    Device.Sound (Device.configure d) := by
  unfold Device.configure
  repeat' first
    | with_reducible assumption
    | (extract_lets -underBinder +onlyGivenNames x; clear_value (hv : x = _); refine (fun (hx : Device.Sound x) => ?_) ?_; rotate_left; refine sound_of_eq hv ?_; clear hv x; rotate_left; clear hv)
    | (extract_lets -underBinder +onlyGivenNames x; clear_value x) | with_reducible apply Device.configActivate_sound
    | with_reducible apply Device.recorderSetup_sound | with_reducible apply Device.safeStart_sound
    | with_reducible apply Device.setDevState_sound | with_reducible apply Device.wantPeriod_sound

theorem Device.deviceState_sound (d : Device) (hd : Device.Sound d) :
    Device.Sound (Device.deviceState d) := by
  unfold Device.deviceState
  repeat' first
    | with_reducible assumption | (extract_lets -underBinder +onlyGivenNames x; clear_value x)
    | with_reducible apply Device.setDevState_sound | with_reducible apply ite_sound | split
    | (with_reducible dsimp only)

theorem Device.readyRecord_sound (d : Device) (target : Nat) (hd : Device.Sound d) :
    Device.Sound (Device.readyRecord d target) := by
  unfold Device.readyRecord
  repeat' first
    | with_reducible assumption | with_reducible apply Device.commit_sound | with_reducible apply ite_sound | split
    | (with_reducible dsimp only)

theorem Device.enterLinked_sound (d : Device) (hd : Device.Sound d) :
    Device.Sound (Device.enterLinked d) := by
  unfold Device.enterLinked
  repeat' first
    | with_reducible assumption
    | (extract_lets -underBinder +onlyGivenNames x; clear_value (hv : x = _); refine (fun (hx : Device.Sound x) => ?_) ?_; rotate_left; refine sound_of_eq hv ?_; clear hv x; rotate_left; clear hv)
    | (extract_lets -underBinder +onlyGivenNames x; clear_value x) | with_reducible apply Device.modBoot_sound
    | with_reducible apply Device.readyRecord_sound | with_reducible apply Device.setDevState_sound
    | with_reducible apply Device.setUnit_sound | with_reducible apply Device.wr_sound | with_reducible apply ite_sound
    | split | (with_reducible dsimp only)

theorem Device.startFault_sound (d : Device) (idx : Nat) (sub : Nat) (data : List (Nat × Nat)) (hd : Device.Sound d) :
    Device.Sound (Device.startFault d idx sub data) := by
  unfold Device.startFault
  repeat' first
    | with_reducible assumption | with_reducible apply Device.enterFault_sound | with_reducible apply Device.event_sound

theorem Device.gambit_sound (d : Device) (fail : Option (Nat × Nat × Nat)) (us : Nat) (hd : Device.Sound d) :
    Device.Sound (Device.gambit d fail us) := by
  unfold Device.gambit
  repeat' first
    | with_reducible assumption
    | (extract_lets -underBinder +onlyGivenNames x; clear_value (hv : x = _); refine (fun (hx : Device.Sound x) => ?_) ?_; rotate_left; refine sound_of_eq hv ?_; clear hv x; rotate_left; clear hv)
    | (extract_lets -underBinder +onlyGivenNames x; clear_value x) | with_reducible apply Device.modBoot_sound
    | with_reducible apply Device.startFault_sound | with_reducible apply Device.wr_sound
    | with_reducible apply ite_sound | split | (with_reducible dsimp only)

theorem Device.enterSelfTest_sound (d : Device) (fail : Option (Nat × Nat × Nat)) (us : Nat) (hd : Device.Sound d) :
    Device.Sound (Device.enterSelfTest d fail us) := by
  unfold Device.enterSelfTest
  repeat' first
    | with_reducible assumption
    | (extract_lets -underBinder +onlyGivenNames x; clear_value (hv : x = _); refine (fun (hx : Device.Sound x) => ?_) ?_; rotate_left; refine sound_of_eq hv ?_; clear hv x; rotate_left; clear hv)
    | (extract_lets -underBinder +onlyGivenNames x; clear_value x) | with_reducible apply Device.gambit_sound
    | with_reducible apply Device.modBoot_sound | with_reducible apply Device.refWarm_sound
    | with_reducible apply Device.safetyLoad_sound | with_reducible apply Device.setDevState_sound
    | with_reducible apply Device.wr_sound | with_reducible apply ite_sound | split | (with_reducible dsimp only)

theorem Device.nameConfig_sound (d : Device) (slot : Nat) (hd : Device.Sound d) :
    Device.Sound (Device.nameConfig d slot) := by
  unfold Device.nameConfig
  repeat' first
    | with_reducible assumption | (extract_lets -underBinder +onlyGivenNames x; clear_value x)
    | with_reducible apply Device.slotsSwitched_sound | with_reducible apply Device.wr_sound
    | with_reducible apply ite_sound | split | (with_reducible dsimp only)

theorem Device.showRecords_sound (d : Device) (hd : Device.Sound d) :
    Device.Sound (Device.showRecords d) := by
  unfold Device.showRecords
  repeat' first
    | with_reducible assumption
    | (extract_lets -underBinder +onlyGivenNames x; clear_value (hv : x = _); refine (fun (hx : Device.Sound x) => ?_) ?_; rotate_left; refine sound_of_eq hv ?_; clear hv x; rotate_left; clear hv)
    | (extract_lets -underBinder +onlyGivenNames x; clear_value x) | with_reducible apply Device.event_sound
    | with_reducible apply Device.modBoot_sound | with_reducible apply Device.modPower_sound
    | with_reducible apply Device.wr_sound | with_reducible apply ite_sound | split | (with_reducible dsimp only)

theorem Device.switchSlots_sound (d : Device) (hd : Device.Sound d) :
    Device.Sound (Device.switchSlots d) := by
  unfold Device.switchSlots
  repeat' first
    | with_reducible assumption | (extract_lets -underBinder +onlyGivenNames x; clear_value x)
    | with_reducible apply Device.slotsSwitched_sound | with_reducible apply ite_sound | split
    | (with_reducible dsimp only)

theorem Device.takeStraps_sound (d : Device) (hd : Device.Sound d) :
    Device.Sound (Device.takeStraps d) := by
  unfold Device.takeStraps
  repeat' first
    | with_reducible assumption
    | (extract_lets -underBinder +onlyGivenNames x; clear_value (hv : x = _); refine (fun (hx : Device.Sound x) => ?_) ?_; rotate_left; refine sound_of_eq hv ?_; clear hv x; rotate_left; clear hv)
    | (extract_lets -underBinder +onlyGivenNames x; clear_value x) | with_reducible apply Device.wr_sound
    | with_reducible apply ite_sound | split | (with_reducible dsimp only)

theorem execActivationSwitch_keeps (s : State) :
    Keeps s (execActivationSwitch s) := by
  unfold execActivationSwitch
  refine State.run_keeps fun d hd => ?_
  repeat' first
    | with_reducible assumption
    | (extract_lets -underBinder +onlyGivenNames x; clear_value (hv : x = _); refine (fun (hx : Device.Sound x) => ?_) ?_; rotate_left; refine sound_of_eq hv ?_; clear hv x; rotate_left; clear hv)
    | (extract_lets -underBinder +onlyGivenNames x; clear_value (hv : x = _); refine (fun (hb : (Barrier.chans x).length = 16) => ?_) ?_; rotate_left; rw [hv]; clear hv x; rotate_left; clear hv)
    | (extract_lets -underBinder +onlyGivenNames x; clear_value (hv : x = _); refine (fun (hb : (Front.chans x).length = 32) => ?_) ?_; rotate_left; rw [hv]; clear hv x; rotate_left; clear hv)
    | (extract_lets -underBinder +onlyGivenNames x; clear_value (hv : x = _); refine (fun (hb : List.length (α := Chan) x = 16) => ?_) ?_; rotate_left; rw [hv]; clear hv x; rotate_left; clear hv)
    | (extract_lets -underBinder +onlyGivenNames x; clear_value x) | with_reducible apply Device.commit_sound
    | with_reducible apply Device.configActivate_sound | with_reducible apply Device.modAct_sound
    | with_reducible apply Device.plantReset_sound | with_reducible apply Device.stationReboot_sound
    | with_reducible apply Device.switchSlots_sound | with_reducible apply Device.wantPeriod_sound
    | with_reducible apply Device.withConfig_sound | with_reducible apply Device.wr_sound
    | with_reducible apply Device.writeRegRecord_sound | with_reducible apply State.run_keeps | intro _
    | with_reducible apply ite_sound | split | (with_reducible dsimp only)
    | (refine Device.Sound.mk ?_ ?_ ?_ ?_ ?_ ?_ ?_ <;> with_reducible dsimp only) | with_reducible apply Device.Sound.wf
    | with_reducible apply Device.Sound.poles | with_reducible apply Device.Sound.arms
    | with_reducible apply Device.Sound.lanes | with_reducible apply Device.Sound.tasks
    | with_reducible apply Device.Sound.chans | with_reducible apply Device.Sound.convs | rw [List.length_set]
    | rw [List.length_map] | rw [numbered_length] | simp only [List.length_cons, List.length_nil]
    | simp only [Barrier.downWith]

theorem execBootLoadComplete_keeps (fwOk : Bool) (fail : Option (Nat × Nat × Nat)) (us : Nat) (s : State) :
    Keeps s (execBootLoadComplete fwOk fail us s) := by
  unfold execBootLoadComplete
  refine State.run_keeps fun d hd => ?_
  repeat' first
    | with_reducible assumption
    | (extract_lets -underBinder +onlyGivenNames x; clear_value (hv : x = _); refine (fun (hx : Device.Sound x) => ?_) ?_; rotate_left; refine sound_of_eq hv ?_; clear hv x; rotate_left; clear hv)
    | (extract_lets -underBinder +onlyGivenNames x; clear_value x) | with_reducible apply Device.enterSelfTest_sound
    | with_reducible apply Device.modBoot_sound | with_reducible apply Device.nameConfig_sound
    | with_reducible apply Device.stEvent_sound | with_reducible apply Device.startFault_sound
    | with_reducible apply Device.stationReboot_sound | with_reducible apply Device.takeStraps_sound
    | with_reducible apply Device.wr_sound | with_reducible apply Device.wrB_sound | with_reducible apply State.run_keeps
    | intro _ | with_reducible apply ite_sound | split | (with_reducible dsimp only)

theorem execEnterLinked_keeps (s : State) :
    Keeps s (execEnterLinked s) := by
  unfold execEnterLinked
  refine State.run_keeps fun d hd => ?_
  repeat' first
    | with_reducible assumption | with_reducible apply Device.enterLinked_sound | with_reducible apply State.run_keeps
    | intro _ | with_reducible apply ite_sound | split | (with_reducible dsimp only)

theorem execLinkWaitExpiry_keeps (s : State) :
    Keeps s (execLinkWaitExpiry s) := by
  unfold execLinkWaitExpiry
  refine State.run_keeps fun d hd => ?_
  repeat' first
    | with_reducible assumption | with_reducible apply Device.enterLinked_sound | with_reducible apply State.run_keeps
    | intro _ | with_reducible apply ite_sound | split | (with_reducible dsimp only)

theorem execPlantResetRelease_keeps (syn : Nat) (quality : Nat) (s : State) :
    Keeps s (execPlantResetRelease syn quality s) := by
  unfold execPlantResetRelease
  refine State.run_keeps fun d hd => ?_
  repeat' first
    | with_reducible assumption
    | (extract_lets -underBinder +onlyGivenNames x; clear_value (hv : x = _); refine (fun (hx : Device.Sound x) => ?_) ?_; rotate_left; refine sound_of_eq hv ?_; clear hv x; rotate_left; clear hv)
    | (extract_lets -underBinder +onlyGivenNames x; clear_value x) | with_reducible apply Device.anticipate_sound
    | with_reducible apply Device.markBoundary_sound | with_reducible apply Device.meterRestore_sound
    | with_reducible apply Device.modBoot_sound | with_reducible apply Device.modTimer_sound
    | with_reducible apply Device.openChannels_sound | with_reducible apply Device.plantBinding_sound
    | with_reducible apply Device.showBlockOut_sound | with_reducible apply Device.showReach_sound
    | with_reducible apply Device.showRecords_sound | with_reducible apply Device.showSession_sound
    | with_reducible apply Device.syncBoundary_sound | with_reducible apply Device.wr_sound
    | with_reducible apply State.run_keeps | intro _ | with_reducible apply ite_sound | split
    | (with_reducible dsimp only)

theorem execReadyTimeout_keeps (s : State) :
    Keeps s (execReadyTimeout s) := by
  unfold execReadyTimeout
  refine State.run_keeps fun d hd => ?_
  repeat' first
    | with_reducible assumption | with_reducible apply Device.automaticRollback_sound
    | with_reducible apply State.run_keeps | intro _ | with_reducible apply ite_sound | split
    | (with_reducible dsimp only)

theorem execSelfTestComplete_keeps (detectors : Bool) (mram : Bool) (s : State) :
    Keeps s (execSelfTestComplete detectors mram s) := by
  unfold execSelfTestComplete
  refine State.run_keeps fun d hd => ?_
  repeat' first
    | with_reducible assumption
    | (extract_lets -underBinder +onlyGivenNames x; clear_value (hv : x = _); refine (fun (hx : Device.Sound x) => ?_) ?_; rotate_left; refine sound_of_eq hv ?_; clear hv x; rotate_left; clear hv)
    | (extract_lets -underBinder +onlyGivenNames x; clear_value x) | with_reducible apply Device.automaticRollback_sound
    | with_reducible apply Device.configure_sound | with_reducible apply Device.modBoot_sound
    | with_reducible apply Device.startFault_sound | with_reducible apply Device.wr_sound
    | with_reducible apply State.run_keeps | intro _ | with_reducible apply ite_sound | split
    | (with_reducible dsimp only)

theorem execStationResetRelease_keeps (word : Nat) (open_ : Bool) (syn : Nat) (s : State) :
    Keeps s (execStationResetRelease word open_ syn s) := by
  refine State.run_keeps fun d hd => ?_
  refine ite_sound hd ?_
  with_reducible refine Device.showReach_sound _ (Device.openChannels_sound _ (Device.stationBinding_sound _ (Device.armRecorder_sound _ ?_)))
  with_reducible refine ite_sound (Device.stEvent_sound _ _ _ _ _ ?_) ?_
  all_goals with_reducible refine ite_sound (Device.stEvent_sound _ _ _ _ _ (Device.modStation_sound _ _ ?_)) ?_
  all_goals with_reducible exact Device.wr_sound _ _ _ _ (Device.wr_sound _ _ _ _ (sound_life _ (Device.modBoot_sound d _ hd)))

end Sys2Proof.Machine
end

