-- ==== Sys2Proof/Laws/SoundTwinSync.lean ====
section
/-! SUPPORT. Every operation of Machine/TwinSync.lean keeps a sound device sound; every command of it completes and
leaves the queue alone. -/
namespace Sys2Proof.Machine

set_option linter.all false
set_option Elab.async false

theorem Device.bufferReports_sound (d : Device) (hd : Device.Sound d) :
    Device.Sound (Device.bufferReports d) := by
  unfold Device.bufferReports
  repeat' first
    | with_reducible assumption | with_reducible apply Device.modTwin_sound | with_reducible apply ite_sound | split
    | (with_reducible dsimp only)

theorem Device.takeDecision_sound (due : Nat) (d : Device) (x : Decision) (hd : Device.Sound d) :
    Device.Sound (Device.takeDecision due d x) := by
  unfold Device.takeDecision
  repeat' first
    | with_reducible assumption | with_reducible apply Device.blockAll_sound
    | with_reducible apply Device.deblockOutcome_sound | with_reducible apply Device.islandAct_sound
    | with_reducible apply Device.poleEffect_sound | with_reducible apply Device.setDeblock_sound
    | with_reducible apply Device.setPeriod_sound | with_reducible apply Device.takeFrame_sound
    | with_reducible apply ite_sound | split | (with_reducible dsimp only)

theorem Device.dueDecisions_sound (d : Device) (hd : Device.Sound d) :
    Device.Sound (Device.dueDecisions d).1 := by
  unfold Device.dueDecisions
  repeat' first
    | with_reducible assumption
    | (extract_lets -underBinder +onlyGivenNames x; clear_value (hv : x = _); refine (fun (hx : Device.Sound x) => ?_) ?_; rotate_left; refine sound_of_eq hv ?_; clear hv x; rotate_left; clear hv)
    | (extract_lets -underBinder +onlyGivenNames x; clear_value x) | with_reducible apply Device.modTwin_sound
    | with_reducible apply Device.takeDecision_sound | with_reducible apply foldl_sound | with_reducible apply odWf_odPut
    | with_reducible apply odWf_puts | with_reducible apply odWf_filter | with_reducible exact Device.reset_sound
    | intro _ | (with_reducible dsimp only) | (refine Device.Sound.mk ?_ ?_ ?_ ?_ ?_ ?_ ?_ <;> with_reducible dsimp only)
    | with_reducible apply Device.Sound.wf | with_reducible apply Device.Sound.poles
    | with_reducible apply Device.Sound.arms | with_reducible apply Device.Sound.lanes
    | with_reducible apply Device.Sound.tasks | with_reducible apply Device.Sound.chans
    | with_reducible apply Device.Sound.convs | rw [List.length_set] | rw [List.length_map] | rw [numbered_length]
    | simp only [List.length_cons, List.length_nil] | simp only [Barrier.downWith]

/-- The same for the parts of the pair. -/
theorem Device.dueDecisions_sound_eq {d : Device} {z : Device} {e : _} (he : Device.dueDecisions d = (z, e)) (hd : Device.Sound d) : Device.Sound z := by
  have h := Device.dueDecisions_sound d hd
  rwa [he] at h

theorem Device.dueWrites_sound (d : Device) (hd : Device.Sound d) :
    Device.Sound (Device.dueWrites d).1 := by
  unfold Device.dueWrites
  repeat' first
    | with_reducible assumption | (extract_lets -underBinder +onlyGivenNames x; clear_value x)
    | with_reducible apply Device.modTwin_sound | with_reducible apply odWf_odPut | with_reducible apply odWf_puts
    | with_reducible apply odWf_filter | with_reducible exact Device.reset_sound | (with_reducible dsimp only)
    | (refine Device.Sound.mk ?_ ?_ ?_ ?_ ?_ ?_ ?_ <;> with_reducible dsimp only) | with_reducible apply Device.Sound.wf
    | with_reducible apply Device.Sound.poles | with_reducible apply Device.Sound.arms
    | with_reducible apply Device.Sound.lanes | with_reducible apply Device.Sound.tasks
    | with_reducible apply Device.Sound.chans | with_reducible apply Device.Sound.convs | rw [List.length_set]
    | rw [List.length_map] | rw [numbered_length] | simp only [List.length_cons, List.length_nil]
    | simp only [Barrier.downWith]

/-- The same for the parts of the pair. -/
theorem Device.dueWrites_sound_eq {d : Device} {z : Device} {e : _} (he : Device.dueWrites d = (z, e)) (hd : Device.Sound d) : Device.Sound z := by
  have h := Device.dueWrites_sound d hd
  rwa [he] at h

theorem Device.keepHash_sound (d : Device) (hd : Device.Sound d) :
    Device.Sound (Device.keepHash d) := by
  unfold Device.keepHash
  repeat' first
    | with_reducible assumption | with_reducible apply Device.modTwin_sound | with_reducible apply ite_sound | split
    | (with_reducible dsimp only)

theorem Device.lanesOf_sound (d : Device) (xs : List LaneReports) (hd : Device.Sound d) :
    Device.Sound (Device.lanesOf d xs) := by
  unfold Device.lanesOf
  repeat' first
    | with_reducible assumption
    | (extract_lets -underBinder +onlyGivenNames x; clear_value (hv : x = _); refine (fun (hb : (Barrier.chans x).length = 16) => ?_) ?_; rotate_left; rw [hv]; clear hv x; rotate_left; clear hv)
    | (extract_lets -underBinder +onlyGivenNames x; clear_value (hv : x = _); refine (fun (hb : (Front.chans x).length = 32) => ?_) ?_; rotate_left; rw [hv]; clear hv x; rotate_left; clear hv)
    | (extract_lets -underBinder +onlyGivenNames x; clear_value (hv : x = _); refine (fun (hb : List.length (α := Chan) x = 16) => ?_) ?_; rotate_left; rw [hv]; clear hv x; rotate_left; clear hv)
    | (extract_lets -underBinder +onlyGivenNames x; clear_value x) | with_reducible apply ite_sound | split
    | (with_reducible dsimp only) | (refine Device.Sound.mk ?_ ?_ ?_ ?_ ?_ ?_ ?_ <;> with_reducible dsimp only)
    | with_reducible apply Device.Sound.wf | with_reducible apply Device.Sound.poles
    | with_reducible apply Device.Sound.arms | with_reducible apply Device.Sound.lanes
    | with_reducible apply Device.Sound.tasks | with_reducible apply Device.Sound.chans
    | with_reducible apply Device.Sound.convs | rw [List.length_set] | rw [List.length_map] | rw [numbered_length]
    | simp only [List.length_cons, List.length_nil] | simp only [Barrier.downWith]

theorem Device.liveWrite_sound (d : Device) (key : Nat) (v : Nat) (hd : Device.Sound d) :
    Device.Sound (Device.liveWrite d key v) := by
  unfold Device.liveWrite
  repeat' first
    | with_reducible assumption
    | (extract_lets -underBinder +onlyGivenNames x; clear_value (hv : x = _); refine (fun (hx : Device.Sound x) => ?_) ?_; rotate_left; refine sound_of_eq hv ?_; clear hv x; rotate_left; clear hv)
    | (extract_lets -underBinder +onlyGivenNames x; clear_value x) | with_reducible apply Device.abortCharge_sound
    | with_reducible apply Device.armResize_sound | with_reducible apply Device.forceWritten_sound
    | with_reducible apply Device.frequencyWritten_sound | with_reducible apply Device.holdLaneWrite_sound
    | with_reducible apply Device.laneRetrain_sound | with_reducible apply Device.lanesChanged_sound
    | with_reducible apply Device.noteParam_sound | with_reducible apply Device.poleActivate_sound
    | with_reducible apply Device.putLive_sound | with_reducible apply Device.restartAsked_sound
    | with_reducible apply Device.showLockCrc_sound | with_reducible apply ite_sound | split
    | (with_reducible dsimp only)

theorem Device.loadPart_sound (d : Device) (x : StatePart) (hd : Device.Sound d) :
    Device.Sound (Device.loadPart d x) := by
  unfold Device.loadPart
  repeat' first
    | with_reducible assumption | with_reducible apply Device.modArm_sound | with_reducible apply odWf_odPut
    | with_reducible apply odWf_puts | with_reducible apply odWf_filter | with_reducible exact Device.reset_sound
    | with_reducible apply ite_sound | split | (with_reducible dsimp only)
    | (refine Device.Sound.mk ?_ ?_ ?_ ?_ ?_ ?_ ?_ <;> with_reducible dsimp only) | with_reducible apply Device.Sound.wf
    | with_reducible apply Device.Sound.poles | with_reducible apply Device.Sound.arms
    | with_reducible apply Device.Sound.lanes | with_reducible apply Device.Sound.tasks
    | with_reducible apply Device.Sound.chans | with_reducible apply Device.Sound.convs | rw [List.length_set]
    | rw [List.length_map] | rw [numbered_length] | simp only [List.length_cons, List.length_nil]
    | simp only [Barrier.downWith]

theorem Device.ownBlocks_sound (d : Device) (hd : Device.Sound d) :
    Device.Sound (Device.ownBlocks d) := by
  unfold Device.ownBlocks
  repeat' first
    | with_reducible assumption | (extract_lets -underBinder +onlyGivenNames x; clear_value x)
    | with_reducible apply Device.modTwin_sound | with_reducible apply ite_sound | split | (with_reducible dsimp only)

theorem Device.replayEngines_sound (d : Device) (hd : Device.Sound d) :
    Device.Sound (Device.replayEngines d) := by
  unfold Device.replayEngines
  repeat' first
    | with_reducible assumption
    | (extract_lets -underBinder +onlyGivenNames x; clear_value (hv : x = _); refine (fun (hx : Device.Sound x) => ?_) ?_; rotate_left; refine sound_of_eq hv ?_; clear hv x; rotate_left; clear hv)
    | (extract_lets -underBinder +onlyGivenNames x; clear_value (hv : x = _); refine (fun (hb : (Barrier.chans x).length = 16) => ?_) ?_; rotate_left; rw [hv]; clear hv x; rotate_left; clear hv)
    | (extract_lets -underBinder +onlyGivenNames x; clear_value (hv : x = _); refine (fun (hb : (Front.chans x).length = 32) => ?_) ?_; rotate_left; rw [hv]; clear hv x; rotate_left; clear hv)
    | (extract_lets -underBinder +onlyGivenNames x; clear_value (hv : x = _); refine (fun (hb : List.length (α := Chan) x = 16) => ?_) ?_; rotate_left; rw [hv]; clear hv x; rotate_left; clear hv)
    | (extract_lets -underBinder +onlyGivenNames x; clear_value x) | with_reducible apply Device.alignLatch_sound
    | with_reducible apply Device.automaticBypass_sound | with_reducible apply Device.cellImages_sound
    | with_reducible apply Device.commitTick_sound | with_reducible apply Device.controlEngine_sound
    | with_reducible apply Device.fire_sound | with_reducible apply Device.modArm_sound
    | with_reducible apply Device.rankEngine_sound | with_reducible apply Device.takeAll_sound
    | with_reducible apply foldl_sound | intro _ | with_reducible apply ite_sound | split | (with_reducible dsimp only)
    | (refine Device.Sound.mk ?_ ?_ ?_ ?_ ?_ ?_ ?_ <;> with_reducible dsimp only) | with_reducible apply Device.Sound.wf
    | with_reducible apply Device.Sound.poles | with_reducible apply Device.Sound.arms
    | with_reducible apply Device.Sound.lanes | with_reducible apply Device.Sound.tasks
    | with_reducible apply Device.Sound.chans | with_reducible apply Device.Sound.convs | rw [List.length_set]
    | rw [List.length_map] | rw [numbered_length] | simp only [List.length_cons, List.length_nil]
    | simp only [Barrier.downWith]

theorem Device.replayHead_sound (d : Device) (n : Nat) (hd : Device.Sound d) :
    Device.Sound (Device.replayHead d n) := by
  unfold Device.replayHead
  repeat' first
    | with_reducible assumption
    | (extract_lets -underBinder +onlyGivenNames x; clear_value (hv : x = _); refine (fun (hx : Device.Sound x) => ?_) ?_; rotate_left; refine sound_of_eq hv ?_; clear hv x; rotate_left; clear hv)
    | (extract_lets -underBinder +onlyGivenNames x; clear_value x) | with_reducible apply Device.armsBegin_sound
    | with_reducible refine Device.dueDecisions_sound_eq (by assumption) ?_
    | with_reducible apply Device.dueDecisions_sound | with_reducible refine Device.dueWrites_sound_eq (by assumption) ?_
    | with_reducible apply Device.dueWrites_sound | with_reducible apply Device.forceEffect_sound
    | with_reducible apply Device.liveWrite_sound | with_reducible apply Device.poleBoundary_sound
    | with_reducible apply Device.wr_sound | with_reducible apply foldl_sound | intro _ | with_reducible apply ite_sound
    | split | (with_reducible dsimp only)

theorem Device.resyncTick_sound (d : Device) (hd : Device.Sound d) :
    Device.Sound (Device.resyncTick d) := by
  unfold Device.resyncTick
  repeat' first
    | with_reducible assumption | with_reducible apply Device.modTwin_sound
    | with_reducible apply Device.replayEngines_sound | with_reducible apply Device.resyncFail_sound
    | with_reducible apply odWf_odPut | with_reducible apply odWf_puts | with_reducible apply odWf_filter
    | with_reducible exact Device.reset_sound | with_reducible apply ite_sound | split | (with_reducible dsimp only)
    | (refine Device.Sound.mk ?_ ?_ ?_ ?_ ?_ ?_ ?_ <;> with_reducible dsimp only) | with_reducible apply Device.Sound.wf
    | with_reducible apply Device.Sound.poles | with_reducible apply Device.Sound.arms
    | with_reducible apply Device.Sound.lanes | with_reducible apply Device.Sound.tasks
    | with_reducible apply Device.Sound.chans | with_reducible apply Device.Sound.convs | rw [List.length_set]
    | rw [List.length_map] | rw [numbered_length] | simp only [List.length_cons, List.length_nil]
    | simp only [Barrier.downWith]

theorem Device.replayTick_sound (d : Device) (n : Nat) (hd : Device.Sound d) :
    Device.Sound (Device.replayTick d n) := by
  unfold Device.replayTick
  repeat' first
    | with_reducible assumption
    | (extract_lets -underBinder +onlyGivenNames x; clear_value (hv : x = _); refine (fun (hx : Device.Sound x) => ?_) ?_; rotate_left; refine sound_of_eq hv ?_; clear hv x; rotate_left; clear hv)
    | (extract_lets -underBinder +onlyGivenNames x; clear_value x) | with_reducible apply Device.lanesOf_sound
    | with_reducible apply Device.modTwin_sound | with_reducible apply Device.replayHead_sound
    | with_reducible apply Device.resyncTick_sound | with_reducible apply ite_sound | split | (with_reducible dsimp only)

theorem Device.sendBlocks_sound (d : Device) (hd : Device.Sound d) :
    Device.Sound (Device.sendBlocks d) := by
  unfold Device.sendBlocks
  repeat' first
    | with_reducible assumption | with_reducible apply Device.modTwin_sound | with_reducible apply ite_sound | split
    | (with_reducible dsimp only)

theorem Device.takeLoss_sound (d : Device) (x : Decision) (hd : Device.Sound d) :
    Device.Sound (Device.takeLoss d x) := by
  unfold Device.takeLoss
  repeat' first
    | with_reducible assumption | with_reducible apply Device.lossTake_sound | with_reducible apply ite_sound | split
    | (with_reducible dsimp only)

theorem execDecisionRecord_keeps (rseq : Nat) (eff : Nat) (x : Decision) (single : Bool) (s : State) :
    Keeps s (execDecisionRecord rseq eff x single s) := by
  unfold execDecisionRecord
  refine State.run_keeps fun d hd => ?_
  repeat' first
    | with_reducible assumption
    | (extract_lets -underBinder +onlyGivenNames x; clear_value (hv : x = _); refine (fun (hx : Device.Sound x) => ?_) ?_; rotate_left; refine sound_of_eq hv ?_; clear hv x; rotate_left; clear hv)
    | (extract_lets -underBinder +onlyGivenNames x; clear_value x) | with_reducible apply Device.loseSync_sound
    | with_reducible apply Device.modTwin_sound | with_reducible apply Device.recordSeq_sound
    | with_reducible apply Device.takeDecision_sound | with_reducible apply State.run_keeps | intro _
    | with_reducible apply ite_sound | split | (with_reducible dsimp only)

theorem execOuterRecord_keeps (rseq : Nat) (v : Nat) (poles : List PoleCtl) (finish : Bool) (single : Bool) (s : State) :
    Keeps s (execOuterRecord rseq v poles finish single s) := by
  unfold execOuterRecord
  refine State.run_keeps fun d hd => ?_
  repeat' first
    | with_reducible assumption
    | (extract_lets -underBinder +onlyGivenNames x; clear_value (hv : x = _); refine (fun (hx : Device.Sound x) => ?_) ?_; rotate_left; refine sound_of_eq hv ?_; clear hv x; rotate_left; clear hv)
    | (extract_lets -underBinder +onlyGivenNames x; clear_value (hv : x = _); refine (fun (hb : (Barrier.chans x).length = 16) => ?_) ?_; rotate_left; rw [hv]; clear hv x; rotate_left; clear hv)
    | (extract_lets -underBinder +onlyGivenNames x; clear_value (hv : x = _); refine (fun (hb : (Front.chans x).length = 32) => ?_) ?_; rotate_left; rw [hv]; clear hv x; rotate_left; clear hv)
    | (extract_lets -underBinder +onlyGivenNames x; clear_value (hv : x = _); refine (fun (hb : List.length (α := Chan) x = 16) => ?_) ?_; rotate_left; rw [hv]; clear hv x; rotate_left; clear hv)
    | (extract_lets -underBinder +onlyGivenNames x; clear_value x) | with_reducible apply Device.modPole_sound
    | with_reducible apply Device.modTwin_sound | with_reducible apply Device.recordSeq_sound
    | with_reducible apply Device.startFast_sound | with_reducible apply Device.startSlow_sound
    | with_reducible apply Device.wr_sound | with_reducible apply State.run_keeps | with_reducible apply foldl_sound
    | intro _ | with_reducible apply ite_sound | split | (with_reducible dsimp only)
    | (refine Device.Sound.mk ?_ ?_ ?_ ?_ ?_ ?_ ?_ <;> with_reducible dsimp only) | with_reducible apply Device.Sound.wf
    | with_reducible apply Device.Sound.poles | with_reducible apply Device.Sound.arms
    | with_reducible apply Device.Sound.lanes | with_reducible apply Device.Sound.tasks
    | with_reducible apply Device.Sound.chans | with_reducible apply Device.Sound.convs | rw [List.length_set]
    | rw [List.length_map] | rw [numbered_length] | simp only [List.length_cons, List.length_nil]
    | simp only [Barrier.downWith]

theorem replayFrom_sound (x0 : Nat) (x1 : Nat) (x2 : Device) (hx2 : Device.Sound x2) :
    Device.Sound (replayFrom x0 x1 x2) := by
  induction x0 generalizing x1 x2 with
  | zero => exact hx2
  | succ k ih => exact ih _ _ (Device.replayTick_sound _ _ hx2)

theorem execResyncStateLoaded_keeps (s : State) :
    Keeps s (execResyncStateLoaded s) := by
  unfold execResyncStateLoaded
  refine State.run_keeps fun d hd => ?_
  repeat' first
    | with_reducible assumption
    | (extract_lets -underBinder +onlyGivenNames x; clear_value (hv : x = _); refine (fun (hx : Device.Sound x) => ?_) ?_; rotate_left; refine sound_of_eq hv ?_; clear hv x; rotate_left; clear hv)
    | (extract_lets -underBinder +onlyGivenNames x; clear_value (hv : x = _); refine (fun (hb : (Barrier.chans x).length = 16) => ?_) ?_; rotate_left; rw [hv]; clear hv x; rotate_left; clear hv)
    | (extract_lets -underBinder +onlyGivenNames x; clear_value (hv : x = _); refine (fun (hb : (Front.chans x).length = 32) => ?_) ?_; rotate_left; rw [hv]; clear hv x; rotate_left; clear hv)
    | (extract_lets -underBinder +onlyGivenNames x; clear_value (hv : x = _); refine (fun (hb : List.length (α := Chan) x = 16) => ?_) ?_; rotate_left; rw [hv]; clear hv x; rotate_left; clear hv)
    | (extract_lets -underBinder +onlyGivenNames x; clear_value x) | with_reducible apply Device.lanesOf_sound
    | with_reducible apply Device.loadPart_sound | with_reducible apply Device.modTwin_sound
    | with_reducible apply Device.replayHead_sound | with_reducible apply State.run_keeps
    | with_reducible apply replayFrom_sound | with_reducible apply foldl_sound | intro _ | with_reducible apply ite_sound
    | split | (with_reducible dsimp only) | (refine Device.Sound.mk ?_ ?_ ?_ ?_ ?_ ?_ ?_ <;> with_reducible dsimp only)
    | with_reducible apply Device.Sound.wf | with_reducible apply Device.Sound.poles
    | with_reducible apply Device.Sound.arms | with_reducible apply Device.Sound.lanes
    | with_reducible apply Device.Sound.tasks | with_reducible apply Device.Sound.chans
    | with_reducible apply Device.Sound.convs | rw [List.length_set] | rw [List.length_map] | rw [numbered_length]
    | simp only [List.length_cons, List.length_nil] | simp only [Barrier.downWith]

theorem execStateRecord_keeps (rseq : Nat) (part : StatePart) (single : Bool) (s : State) :
    Keeps s (execStateRecord rseq part single s) := by
  unfold execStateRecord
  refine State.run_keeps fun d hd => ?_
  repeat' first
    | with_reducible assumption
    | (extract_lets -underBinder +onlyGivenNames x; clear_value (hv : x = _); refine (fun (hx : Device.Sound x) => ?_) ?_; rotate_left; refine sound_of_eq hv ?_; clear hv x; rotate_left; clear hv)
    | (extract_lets -underBinder +onlyGivenNames x; clear_value x) | with_reducible apply Device.modTwin_sound
    | with_reducible apply Device.recordSeq_sound | with_reducible apply State.run_keeps | intro _
    | with_reducible apply ite_sound | split | (with_reducible dsimp only)

theorem execTickRecordSend_keeps (s : State) :
    Keeps s (execTickRecordSend s) := by
  unfold execTickRecordSend
  refine State.run_keeps fun d hd => ?_
  repeat' first
    | with_reducible assumption | with_reducible apply Device.sendTickRecord_sound | with_reducible apply State.run_keeps
    | intro _ | with_reducible apply ite_sound | split | (with_reducible dsimp only)

end Sys2Proof.Machine
end

