-- ==== Sys2Proof/Laws/SoundTick.lean ====
section
/-! SUPPORT. Every operation of Machine/Tick.lean keeps a sound device sound; every command of it completes and
leaves the queue alone. -/
namespace Sys2Proof.Machine

set_option linter.all false
set_option Elab.async false

theorem Device.advance_sound (d : Device) (hd : Device.Sound d) :
    Device.Sound (Device.advance d) := by
  unfold Device.advance
  repeat' first
    | with_reducible assumption | (extract_lets -underBinder +onlyGivenNames x; clear_value x)
    | with_reducible apply Device.event_sound | with_reducible apply Device.modTwin_sound
    | with_reducible apply Device.wr_sound | with_reducible apply ite_sound | split | (with_reducible dsimp only)

theorem Device.ageEntry_sound (d : Device) (idx : Nat) (sub : Nat) (hd : Device.Sound d) :
    Device.Sound (Device.ageEntry d idx sub) := by
  unfold Device.ageEntry
  repeat' first
    | with_reducible assumption | with_reducible apply Device.wr_sound

theorem Device.boundaries_sound (d : Device) (i : T0In) (hd : Device.Sound d) :
    Device.Sound (Device.boundaries d i) := by
  unfold Device.boundaries
  repeat' first
    | with_reducible assumption
    | (extract_lets -underBinder +onlyGivenNames x; clear_value (hv : x = _); refine (fun (hx : Device.Sound x) => ?_) ?_; rotate_left; refine sound_of_eq hv ?_; clear hv x; rotate_left; clear hv)
    | (extract_lets -underBinder +onlyGivenNames x; clear_value x) | with_reducible apply Device.activationBoundary_sound
    | with_reducible apply Device.castleRecheck_sound | with_reducible apply Device.clearLatches_sound
    | with_reducible apply Device.deviceState_sound | with_reducible apply Device.guardT0_sound
    | with_reducible apply Device.judgeSafe_sound | with_reducible apply Device.poleBoundary_sound
    | with_reducible apply Device.unitBoundary_sound | with_reducible apply Device.withdrawIfUnfit_sound
    | with_reducible apply ite_sound | split | (with_reducible dsimp only)

theorem Device.closeTick_sound (d : Device) (hd : Device.Sound d) :
    Device.Sound (Device.closeTick d).1 := by
  unfold Device.closeTick
  repeat' first
    | with_reducible assumption | with_reducible apply Device.flushEvents_sound
    | with_reducible apply Device.keepHash_sound | with_reducible apply Device.meterGather_sound
    | with_reducible apply Device.resyncTick_sound
    | with_reducible refine Device.sampleStream_sound_eq (by assumption) ?_
    | with_reducible apply Device.sampleStream_sound | with_reducible apply ite_sound | split
    | (with_reducible dsimp only)

/-- The same for the parts of the pair. -/
theorem Device.closeTick_sound_eq {d : Device} {z : Device} {e : _} (he : Device.closeTick d = (z, e)) (hd : Device.Sound d) : Device.Sound z := by
  have h := Device.closeTick_sound d hd
  rwa [he] at h

theorem Device.recompose_sound (was : Device) (d : Device) (p : Nat) (hwas : Device.Sound was) (hd : Device.Sound d) :
    Device.Sound (Device.recompose was d p) := by
  unfold Device.recompose
  repeat' first
    | with_reducible assumption | with_reducible apply ite_sound | split | (with_reducible dsimp only)
    | (refine Device.Sound.mk ?_ ?_ ?_ ?_ ?_ ?_ ?_ <;> with_reducible dsimp only) | with_reducible apply Device.Sound.wf
    | with_reducible apply Device.Sound.poles | with_reducible apply Device.Sound.arms
    | with_reducible apply Device.Sound.lanes | with_reducible apply Device.Sound.tasks
    | with_reducible apply Device.Sound.chans | with_reducible apply Device.Sound.convs | rw [List.length_set]
    | rw [List.length_map] | rw [numbered_length] | simp only [List.length_cons, List.length_nil]
    | simp only [Barrier.downWith]

theorem Device.commitRuns_sound (d : Device) (hd : Device.Sound d) :
    Device.Sound (Device.commitRuns d) := by
  unfold Device.commitRuns
  repeat' first
    | with_reducible assumption
    | (extract_lets -underBinder +onlyGivenNames x; clear_value (hv : x = _); refine (fun (hx : Device.Sound x) => ?_) ?_; rotate_left; refine sound_of_eq hv ?_; clear hv x; rotate_left; clear hv)
    | (extract_lets -underBinder +onlyGivenNames x; clear_value x) | with_reducible apply Device.commitFast_sound
    | with_reducible apply Device.commitSlow_sound
    | with_reducible refine Device.dueDecisions_sound_eq (by assumption) ?_
    | with_reducible apply Device.dueDecisions_sound | with_reducible apply Device.ownBlocks_sound
    | with_reducible apply Device.recompose_sound | with_reducible apply Device.takeLoss_sound
    | with_reducible apply Device.transitionOver_sound | with_reducible apply foldl_sound | intro _
    | with_reducible apply ite_sound | split | (with_reducible dsimp only)

theorem Device.countTicks_sound (d : Device) (hd : Device.Sound d) :
    Device.Sound (Device.countTicks d) := by
  unfold Device.countTicks
  repeat' first
    | with_reducible assumption
    | (extract_lets -underBinder +onlyGivenNames x; clear_value (hv : x = _); refine (fun (hx : Device.Sound x) => ?_) ?_; rotate_left; refine sound_of_eq hv ?_; clear hv x; rotate_left; clear hv)
    | (extract_lets -underBinder +onlyGivenNames x; clear_value x) | with_reducible apply Device.ageEntry_sound
    | with_reducible apply Device.modLease_sound | with_reducible apply Device.modTwin_sound
    | with_reducible apply Device.wr_sound | with_reducible apply ite_sound | split | (with_reducible dsimp only)

theorem Device.freshTick_sound (d : Device) (hd : Device.Sound d) :
    Device.Sound (Device.freshTick d) := by
  unfold Device.freshTick
  repeat' first
    | with_reducible assumption
    | (extract_lets -underBinder +onlyGivenNames x; clear_value (hv : x = _); refine (fun (hx : Device.Sound x) => ?_) ?_; rotate_left; refine sound_of_eq hv ?_; clear hv x; rotate_left; clear hv)
    | (extract_lets -underBinder +onlyGivenNames x; clear_value (hv : x = _); refine (fun (hb : (Barrier.chans x).length = 16) => ?_) ?_; rotate_left; rw [hv]; clear hv x; rotate_left; clear hv)
    | (extract_lets -underBinder +onlyGivenNames x; clear_value (hv : x = _); refine (fun (hb : (Front.chans x).length = 32) => ?_) ?_; rotate_left; rw [hv]; clear hv x; rotate_left; clear hv)
    | (extract_lets -underBinder +onlyGivenNames x; clear_value (hv : x = _); refine (fun (hb : List.length (α := Chan) x = 16) => ?_) ?_; rotate_left; rw [hv]; clear hv x; rotate_left; clear hv)
    | (extract_lets -underBinder +onlyGivenNames x; clear_value x) | with_reducible apply Device.armsBegin_sound
    | with_reducible apply Device.modTimer_sound | with_reducible apply Device.modTwin_sound
    | with_reducible apply Device.slotCut_sound | (with_reducible dsimp only)
    | (refine Device.Sound.mk ?_ ?_ ?_ ?_ ?_ ?_ ?_ <;> with_reducible dsimp only) | with_reducible apply Device.Sound.wf
    | with_reducible apply Device.Sound.poles | with_reducible apply Device.Sound.arms
    | with_reducible apply Device.Sound.lanes | with_reducible apply Device.Sound.tasks
    | with_reducible apply Device.Sound.chans | with_reducible apply Device.Sound.convs | rw [List.length_set]
    | rw [List.length_map] | rw [numbered_length] | simp only [List.length_cons, List.length_nil]
    | simp only [Barrier.downWith]

theorem Device.latchReports_sound (d : Device) (hd : Device.Sound d) :
    Device.Sound (Device.latchReports d) := by
  unfold Device.latchReports
  repeat' first
    | with_reducible assumption
    | (extract_lets -underBinder +onlyGivenNames x; clear_value (hv : x = _); refine (fun (hx : Device.Sound x) => ?_) ?_; rotate_left; refine sound_of_eq hv ?_; clear hv x; rotate_left; clear hv)
    | (extract_lets -underBinder +onlyGivenNames x; clear_value x) | with_reducible apply Device.automaticBypass_sound
    | with_reducible apply Device.bufferReports_sound | with_reducible apply Device.cellImages_sound
    | with_reducible apply Device.reportLatch_sound | with_reducible apply ite_sound | split
    | (with_reducible dsimp only)

theorem Device.modeWrite_sound (d : Device) (kv : Nat × Nat) (hd : Device.Sound d) :
    Device.Sound (Device.modeWrite d kv) := by
  unfold Device.modeWrite
  repeat' first
    | with_reducible assumption | with_reducible apply Device.breakWindow_sound
    | with_reducible apply Device.putLive_sound | with_reducible apply ite_sound | split | (with_reducible dsimp only)

theorem Device.showTick_sound (d : Device) (ps : Nat) (i : T0In) (out : Option (List Nat)) (hd : Device.Sound d) :
    Device.Sound (Device.showTick d ps i out) := by
  unfold Device.showTick
  repeat' first
    | with_reducible assumption
    | (extract_lets -underBinder +onlyGivenNames x; clear_value (hv : x = _); refine (fun (hx : Device.Sound x) => ?_) ?_; rotate_left; refine sound_of_eq hv ?_; clear hv x; rotate_left; clear hv)
    | (extract_lets -underBinder +onlyGivenNames x; clear_value x) | with_reducible apply Device.bumpBy_sound
    | with_reducible apply Device.modTimer_sound | with_reducible apply Device.outputsT0_sound
    | with_reducible apply Device.powerTick_sound | with_reducible apply Device.sendBlocks_sound
    | with_reducible apply Device.sendImage_sound | with_reducible apply Device.sendStream_sound
    | with_reducible apply Device.showBands_sound | with_reducible apply Device.showLockout_sound
    | with_reducible apply Device.showPdStatus_sound | with_reducible apply Device.showPulses_sound
    | with_reducible apply Device.syncBoundary_sound | with_reducible apply Device.wr_sound
    | with_reducible apply Device.zeroEnergyT0_sound | with_reducible apply ite_sound | split
    | (with_reducible dsimp only)

theorem Device.swapRefs_sound (d : Device) (hd : Device.Sound d) :
    Device.Sound (Device.swapRefs d) := by
  unfold Device.swapRefs
  repeat' first
    | with_reducible assumption
    | (extract_lets -underBinder +onlyGivenNames x; clear_value (hv : x = _); refine (fun (hx : Device.Sound x) => ?_) ?_; rotate_left; refine sound_of_eq hv ?_; clear hv x; rotate_left; clear hv)
    | (extract_lets -underBinder +onlyGivenNames x; clear_value (hv : x = _); refine (fun (hb : (Barrier.chans x).length = 16) => ?_) ?_; rotate_left; rw [hv]; clear hv x; rotate_left; clear hv)
    | (extract_lets -underBinder +onlyGivenNames x; clear_value (hv : x = _); refine (fun (hb : (Front.chans x).length = 32) => ?_) ?_; rotate_left; rw [hv]; clear hv x; rotate_left; clear hv)
    | (extract_lets -underBinder +onlyGivenNames x; clear_value (hv : x = _); refine (fun (hb : List.length (α := Chan) x = 16) => ?_) ?_; rotate_left; rw [hv]; clear hv x; rotate_left; clear hv)
    | (extract_lets -underBinder +onlyGivenNames x; clear_value x) | with_reducible apply Device.bump_sound
    | with_reducible apply Device.loseSync_sound | with_reducible apply Device.modTimer_sound
    | with_reducible apply Device.tripAll_sound | with_reducible apply ite_sound | split | (with_reducible dsimp only)
    | (refine Device.Sound.mk ?_ ?_ ?_ ?_ ?_ ?_ ?_ <;> with_reducible dsimp only) | with_reducible apply Device.Sound.wf
    | with_reducible apply Device.Sound.poles | with_reducible apply Device.Sound.arms
    | with_reducible apply Device.Sound.lanes | with_reducible apply Device.Sound.tasks
    | with_reducible apply Device.Sound.chans | with_reducible apply Device.Sound.convs | rw [List.length_set]
    | rw [List.length_map] | rw [numbered_length] | simp only [List.length_cons, List.length_nil]
    | simp only [Barrier.downWith]

theorem Device.takeLive_sound (d : Device) (ps : Nat) (hd : Device.Sound d) :
    Device.Sound (Device.takeLive d ps) := by
  unfold Device.takeLive
  repeat' first
    | with_reducible assumption
    | (extract_lets -underBinder +onlyGivenNames x; clear_value (hv : x = _); refine (fun (hx : Device.Sound x) => ?_) ?_; rotate_left; refine sound_of_eq hv ?_; clear hv x; rotate_left; clear hv)
    | (extract_lets -underBinder +onlyGivenNames x; clear_value (hv : x = _); refine (fun (hb : (Barrier.chans x).length = 16) => ?_) ?_; rotate_left; rw [hv]; clear hv x; rotate_left; clear hv)
    | (extract_lets -underBinder +onlyGivenNames x; clear_value (hv : x = _); refine (fun (hb : (Front.chans x).length = 32) => ?_) ?_; rotate_left; rw [hv]; clear hv x; rotate_left; clear hv)
    | (extract_lets -underBinder +onlyGivenNames x; clear_value (hv : x = _); refine (fun (hb : List.length (α := Chan) x = 16) => ?_) ?_; rotate_left; rw [hv]; clear hv x; rotate_left; clear hv)
    | (extract_lets -underBinder +onlyGivenNames x; clear_value x)
    | with_reducible refine Device.dueWrites_sound_eq (by assumption) ?_ | with_reducible apply Device.dueWrites_sound
    | with_reducible apply Device.land_sound | with_reducible apply Device.liveWrite_sound
    | with_reducible apply Device.lossAtWindow_sound | with_reducible apply Device.meterTick_sound
    | with_reducible apply Device.modeWrite_sound | with_reducible apply Device.warmTick_sound
    | with_reducible apply Device.windowComparators_sound | with_reducible apply foldl_sound
    | with_reducible apply odWf_odPut | with_reducible apply odWf_puts | with_reducible apply odWf_filter
    | with_reducible exact Device.reset_sound | intro _ | with_reducible apply ite_sound | split
    | (with_reducible dsimp only) | (refine Device.Sound.mk ?_ ?_ ?_ ?_ ?_ ?_ ?_ <;> with_reducible dsimp only)
    | with_reducible apply Device.Sound.wf | with_reducible apply Device.Sound.poles
    | with_reducible apply Device.Sound.arms | with_reducible apply Device.Sound.lanes
    | with_reducible apply Device.Sound.tasks | with_reducible apply Device.Sound.chans
    | with_reducible apply Device.Sound.convs | rw [List.length_set] | rw [List.length_map] | rw [numbered_length]
    | simp only [List.length_cons, List.length_nil] | simp only [Barrier.downWith]

theorem Device.tickT0_sound (d : Device) (i : T0In) (hd : Device.Sound d) :
    Device.Sound (Device.tickT0 d i) := by
  unfold Device.tickT0
  repeat' first
    | with_reducible assumption
    | (extract_lets -underBinder +onlyGivenNames x; clear_value (hv : x = _); refine (fun (hx : Device.Sound x) => ?_) ?_; rotate_left; refine sound_of_eq hv ?_; clear hv x; rotate_left; clear hv)
    | (extract_lets -underBinder +onlyGivenNames x; clear_value x) | with_reducible apply Device.advance_sound
    | with_reducible apply Device.boundaries_sound | with_reducible refine Device.closeTick_sound_eq (by assumption) ?_
    | with_reducible apply Device.closeTick_sound | with_reducible apply Device.commitRuns_sound
    | with_reducible apply Device.countTicks_sound | with_reducible apply Device.forceEffect_sound
    | with_reducible apply Device.freshTick_sound | with_reducible apply Device.latchReports_sound
    | with_reducible apply Device.markBoundary_sound | with_reducible apply Device.safetyEffect_sound
    | with_reducible apply Device.showTick_sound | with_reducible apply Device.swapRefs_sound
    | with_reducible apply Device.takeLive_sound | with_reducible apply Device.tasksBoundary_sound
    | with_reducible apply ite_sound | split | (with_reducible dsimp only)

theorem execTickT0_keeps (i : T0In) (s : State) :
    Keeps s (execTickT0 i s) := by
  unfold execTickT0
  refine State.run_keeps fun d hd => ?_
  repeat' first
    | with_reducible assumption | with_reducible apply Device.tickT0_sound | with_reducible apply State.run_keeps
    | intro _ | with_reducible apply ite_sound | split | (with_reducible dsimp only)

end Sys2Proof.Machine
end

