-- ==== Sys2Proof/Laws/SoundWrite.lean ====
section
/-! SUPPORT. SDO_WRITE keeps the device sound, whichever command the write is. -/
namespace Sys2Proof.Machine

set_option linter.all false
set_option Elab.async false

/-- The command that a write is, if it is one, keeps the device sound. -/
def TakesKeep (o : Option (State → Out)) : Prop := ∀ f, o = some f → ∀ s, Keeps s (f s)

theorem TakesKeep.none : TakesKeep none := fun _ h => nomatch h

theorem TakesKeep.some {g : State → Out} (h : ∀ s, Keeps s (g s)) : TakesKeep (some g) := fun _ e => Option.some.inj e ▸ h

theorem TakesKeep.ite {c : Prop} [Decidable c] {a b : Option (State → Out)} (ha : TakesKeep a) (hb : TakesKeep b) :
    TakesKeep (if c then a else b) := by
  split
  · exact ha
  · exact hb

theorem drawn_keeps (f : Nat → State → Out) (h : ∀ w s, Keeps s (f w s)) (s : State) : Keeps s (drawn f s) := by
  obtain ⟨e, he, hs⟩ := h (Config.freeWord s.dev.free) { s with dev := { s.dev with free := s.dev.free + 1 } }
  exact ⟨e, he, fun hd => hs ⟨hd.wf, hd.poles, hd.arms, hd.lanes, hd.tasks, hd.chans, hd.convs⟩⟩

theorem deviceWrite_keeps (v : Nat) : TakesKeep (deviceWrite v) := by
  unfold deviceWrite
  split
  · exact .some fun _ => execBlockAll_keeps ..
  · exact .some fun _ => execAcknowledge_keeps ..
  · exact .some (drawn_keeps _ fun _ _ => execResetPlant_keeps ..)
  · exact .some fun _ => execResetStation_keeps ..
  · exact .some (drawn_keeps _ fun _ _ => execResetModule_keeps ..)
  · exact .none

theorem poleWrite_keeps (p v : Nat) : TakesKeep (poleWrite p v) := by
  unfold poleWrite
  split
  · exact .some fun _ => execEnergise_keeps ..
  · exact .some fun _ => execDeblock_keeps ..
  · exact .some fun _ => execBlock_keeps ..
  · exact .some fun _ => execReset_keeps ..
  · exact .some fun _ => execDeEnergise_keeps ..
  · exact .some fun _ => execReconnected_keeps ..
  · exact .some fun _ => execRunBack_keeps ..
  · exact .some fun _ => execRunBackEnd_keeps ..
  · exact .none

theorem twinWrite_keeps (v : Nat) : TakesKeep (twinWrite v) := by
  unfold twinWrite
  split
  · exact .some fun _ => execCastle_keeps ..
  · exact .some fun _ => execResync_keeps ..
  · exact .some fun _ => execOutOfService_keeps ..
  · exact .some fun _ => execReturn_keeps ..
  · exact .some fun _ => execAbandonCastling_keeps ..
  · exact .none

theorem storeWrite_keeps (v : Nat) : TakesKeep (storeWrite v) := by
  unfold storeWrite
  split
  · exact .some fun _ => execValidate_keeps ..
  · exact .some fun _ => execActivate_keeps ..
  · exact .some fun _ => execRollback_keeps ..
  · exact .some fun _ => execErase_keeps ..
  · exact .some fun _ => execAbandon_keeps ..
  · exact .some fun _ => execActivateFirmware_keeps ..
  · exact .none

theorem taskWrite_keeps (t v : Nat) : TakesKeep (taskWrite t v) := by
  unfold taskWrite
  split
  · exact .some fun _ => execSuspend_keeps ..
  · exact .some fun _ => execResume_keeps ..
  · exact .some fun _ => execRestart_keeps ..
  · exact .none

theorem meteringWrite_keeps (sub v : Nat) : TakesKeep (meteringWrite sub v) :=
  .ite (.ite (.some fun _ => execLockClose_keeps ..) (.ite (.some fun _ => execLockOpen_keeps ..) .none))
    (.ite (.some fun _ => execMeterFaultAcknowledge_keeps ..) .none)

theorem sessionWrite_keeps (sub len v : Nat) : TakesKeep (sessionWrite sub len v) := by
  unfold sessionWrite
  split
  · exact .some fun _ => execSessionOpen_keeps ..
  · exact .ite (.some fun _ => execSessionClose_keeps ..) .none
  · exact .some fun _ => execNewPassphrase_keeps ..
  · exact .ite (.some fun _ => execSafetyCommit_keeps ..) (.ite (.some fun _ => execSafetyDiscard_keeps ..) .none)
  · exact .none

theorem accessWrite_keeps (sub len v : Nat) : TakesKeep (accessWrite sub len v) := by
  unfold accessWrite
  split
  · exact .some fun _ => execLogin_keeps ..
  · exact .ite (.some fun _ => execLogout_keeps ..) .none
  · exact .some fun _ => execSetCredential_keeps ..
  · exact .none

theorem laneWrite_keeps (l sub v : Nat) : TakesKeep (laneWrite l sub v) :=
  .ite (.some fun _ => execLaneRetrain_keeps ..) (.ite (.some fun _ => execBitSlip_keeps ..) .none)

theorem entryWrite_keeps (idx sub v : Nat) : TakesKeep (entryWrite idx sub v) := by
  unfold entryWrite
  refine .ite (.some fun _ => execTickPeriodRequest_keeps ..) ?_
  refine .ite (.some fun _ => execBufferEnableWrite_keeps ..) ?_
  refine .ite (.some (drawn_keeps _ fun _ _ => execComparatorTestPhase_keeps ..)) ?_
  refine .ite (.some fun _ => execMeasureNow_keeps ..) ?_
  refine .ite (.some (drawn_keeps _ fun _ _ => execLogAcknowledge_keeps ..)) ?_
  refine .ite (.some fun _ => execClearAll_keeps ..) ?_
  refine .ite (.some fun _ => execDebugEnable_keeps ..) ?_
  exact .ite (.some fun _ => execManualTrigger_keeps ..) .none

theorem ownWrite_keeps (idx sub len v : Nat) : TakesKeep (ownWrite idx sub len v) := by
  unfold ownWrite
  refine .ite (.some fun _ => execCounterClear_keeps ..) ?_
  refine .ite (deviceWrite_keeps _) ?_
  refine .ite (accessWrite_keeps _ _ _) ?_
  refine .ite (poleWrite_keeps _ _) ?_
  refine .ite (.some fun _ => execExclusionMapWrite_keeps ..) ?_
  refine .ite (.some fun _ => execDcRestart_keeps ..) ?_
  refine .ite (.some fun _ => execEnergisationAbort_keeps ..) ?_
  refine .ite (laneWrite_keeps _ _ _) ?_
  refine .ite (.some fun _ => execOverlapCheck_keeps ..) ?_
  refine .ite (meteringWrite_keeps _ _) ?_
  refine .ite (sessionWrite_keeps _ _ _) ?_
  refine .ite (twinWrite_keeps _) ?_
  refine .ite (taskWrite_keeps _ _) ?_
  exact .ite (storeWrite_keeps _) (entryWrite_keeps _ _ _)

theorem execSdoWrite_keeps (idx sub len v : Nat) (s : State) : Keeps s (execSdoWrite idx sub len v s) := by
  unfold execSdoWrite
  split
  · refine State.run_keeps fun d hd => ?_
    split
    · exact Device.abort_sound _ _ _ _ hd
    · exact hd
  · split
    · rename_i f h
      exact TakesKeep.ite (ownWrite_keeps idx sub len v) TakesKeep.none f h s
    · refine State.run_keeps fun d hd => ?_
      repeat' first
        | with_reducible assumption | with_reducible apply Device.sdo_sound | with_reducible apply Device.sdoEffect_sound | intro _

end Sys2Proof.Machine
end

