-- ==== Sys2Proof/Machine/Balls.lean ====
section
/-! DEFINITION. What the output balls show of a state: Table 21.4 (R697) with the rules it names (spec/21_balls_and_ratings.md).
Nothing here is state: each level follows from it.
Choices of the model: assumption log 84. -/
namespace Sys2Proof.Machine

/-- The states of an output ball in Table 21.4. -/
inductive BallLevel where
  | low | high | highZ | released | conducting | quiet | driven
  deriving DecidableEq, Repr

/-- The plant half is in reset or without its core rail (R697). -/
def Device.plantOff (d : Device) : Bool := d.boot.plantHeld || d.regState != 3

/-- FAULT_N (R492, Table 21.4). -/
def Device.ballFaultN (d : Device) : BallLevel :=
  if d.plantOff then .highZ else if d.boot.faultN then .high else .low

/-- SYNC_OUT between its pulses, with the length of the pulse of this tick in ns (R68). -/
def Device.ballSyncOut (d : Device) : BallLevel × Nat :=
  if d.plantOff then (.highZ, 0) else (.low, d.timer.syncOutNs)

/-- BLOCK_OUT_A (`c` = 0) and BLOCK_OUT_B (`c` = 1): conducting is run level (R491). -/
def Device.ballBlockOut (d : Device) (c : Nat) : BallLevel :=
  if d.plantOff || bit (d.rd 0x5700 4) c then .released else .conducting

/-- SAFE_OUT_A[o] and SAFE_OUT_B[o] (R505). -/
def Device.ballSafeOut (d : Device) (o c : Nat) : BallLevel :=
  if !d.plantOff && o < 4 && bit (d.rd (0x7018 + o) 3) (1 + c) then .conducting else .released

/-- PULSE_OUT[o] (R393). -/
def Device.ballPulseOut (d : Device) (o : Nat) : BallLevel :=
  match d.meter.pulses[o]? with
  | some x => if !d.plantOff && x.on then .conducting else .released
  | none => .released

/-- P_LANE_TX of lane `l`: quiet while the lane is unused or in FAULT, and with the plant half in reset or in its safe state (R293). -/
def Device.ballLaneTx (d : Device) (l : Nat) : BallLevel :=
  if d.plantOff || d.boot.safeState || d.laneState l == 0 || d.laneState l == 9 then .quiet else .driven

/-- P_TWIN_TX (Table 21.4, Table 14.2). -/
def Device.ballTwinTx (d : Device) : BallLevel := if d.plantOff || d.boot.safeState then .quiet else .driven

/-- P_ARB_TX (Table 21.4, Table 14.2). -/
def Device.ballArbTx (d : Device) : BallLevel :=
  if d.plantOff then .highZ else if d.boot.safeState then .quiet else .driven

/-- The density of LOCK_P in quarters, by the code of 0x5B00.01 (R685, Table 20.6). -/
def Device.lockP (d : Device) : Nat := if d.plantOff then 0 else d.rd 0x5B00 1 % 4

/-- The density of LOCK_S in quarters, by the code of 0x9000.16. -/
def Device.lockS (d : Device) : Nat := if d.boot.stationHeld || d.boot.stationDown then 0 else d.rd 0x9000 0x16 % 4

/-- P_PWMH and P_PWML: held low through a plant reset, high-impedance without the retention domain (R632, Table 21.4). -/
def Device.ballPwm (d : Device) : BallLevel :=
  if !d.power.retention then .highZ else if d.regState == 2 || d.regState == 3 then .driven else .low

/-- S_REG_EN_DRV (R656). -/
def Device.ballRegEnDrv (d : Device) : BallLevel :=
  if d.boot.stationHeld || d.boot.stationDown || !d.station.regEnDrv then .released else .conducting

end Sys2Proof.Machine
end

