-- ==== Sys2Proof/Tests/Slice0.lean ====
section
/-! SUPPORT. Tests of the model: the worked examples of the manual, well-formedness, and the witnesses of the statements. -/
open Sys2Proof Sys2Proof.Machine

namespace Sys2Proof.Tests

set_option linter.all false
set_option Elab.async false

/-! ### Small states -/

/-- A device with some entries written. -/
def put (d : Device) (kvs : List (Nat × Nat × Nat)) : Device := kvs.foldl (fun d x => d.wr x.1 x.2.1 x.2.2) d

/-- Whether a device is sound, as a Bool. -/
def soundB (d : Device) : Bool :=
  odWf d.od && d.poles.length == 2 && d.arms.length == 12 && d.lanes.length == 32 && d.tasks.length == 8
    && d.barrier.chans.length == 16 && d.front.chans.length == 32

theorem soundOf {d : Device} (h : soundB d = true) : d.Sound := by
  simp only [soundB, Bool.and_eq_true, beq_iff_eq] at h
  exact ⟨h.1.1.1.1.1.1, h.1.1.1.1.1.2, h.1.1.1.1.2, h.1.1.1.2, h.1.1.2, h.1.2, h.2⟩

/-- Both halves run, the mailbox serves a master at Safety level 3 of access, the tick runs and the barrier is open. -/
def run : Device :=
  put { Device.reset with
    boot := { Boot.reset with stationHeld := false, plantHeld := false, plState := 5, stState := 3, plantClock := true, stationClock := true }
    station := { Station.reset with al := 2 }
    timer := { TickTimer.reset with running := true }
    barrier := { Barrier.reset with
      chans := List.replicate 16 { Chan.reset with state := 2, credits := 4 }, p2s := [true, true], s2p := [true, true], exchanged := true } }
    [(0x2002, 1, 3), (0x2020, 3, 3), (0x5800, 1, 3)]

/-- A unit of the twin profile in unit state `u`, with a valid lease where it is ACTIVE. -/
def twin (u : Nat) : Device :=
  put { run with lease := { Lease.reset with valid := u == 3 } } [(0x2020, 2, 1), (0x2020, 3, u)]

/-- Lane 31 in state `n`. -/
def lane (n : Nat) (x : Lane) : Device := put { run with lanes := Device.reset.lanes.set 31 x } [(0x554F, 5, n)]

/-! ### The manual's worked examples -/

/-- CRC-32C of the nine digits has the check value of its polynomial. -/
theorem test_crc32c : crc32c [0x31, 0x32, 0x33, 0x34, 0x35, 0x36, 0x37, 0x38, 0x39] = 0xE3069283 := by decide +kernel

/-- Chapter 0, "lane sequence number across a wrap": 0x0000 follows 0xFFFF as newer. -/
theorem test_seq_wrap : newer 16 0xFFFF 0 = true ∧ newer 16 0 0xFFFF = false := by decide

/-- Unit A of the frame example of chapter 10: lane 3 with 233 cells, lease of epoch 0x2A, node 5, tick 0x1_0000_FFFF, fibre 1,500 ns. -/
def frameUnit : Device :=
  put { run with lease := { Lease.reset with valid := true, epoch := 0x2A } }
    [(0x2020, 2, 1), (0x2020, 3, 3), (0x2010, 1, 0x10000FFFF), (0x5533, 1, 233), (0x5533, 8, 1500), (0xA000, 1, 10), (0x7000, 1, 0)]

/-- H[0] to H[6] are FF FF 2A 90 03 74 81. -/
theorem test_frame_header : frameUnit.frameHead 3 false = 0xFFFF2A90037481 := by decide +kernel

/-- TICK, APPLY 0x0514, HOLD 0x02, TCODE and NODE 0x05, EPWIN 0x0190 of the same frame. -/
theorem test_frame_preamble :
    field (frameUnit.framePre 3 []) 256 64 = 0x10000FFFF ∧ field (frameUnit.framePre 3 []) 176 48 = 0x051402050190 := by decide +kernel

/-- A command at POS with CHG = 1 and OFFSET 20 for position 0 is 00 09 14. -/
theorem test_command : command 20 1 0 true false false = 0x000914 := by decide +kernel

/-- The two frames of lane 3: 96 and 241 data blocks, 512.16 ns and 1,277.76 ns at 12.5 Gb/s. -/
theorem test_frame_blocks : frameBlocks 5912 = 96 ∧ frameBlocks 14912 = 241 ∧ frameTime 5912 3 = 51216 ∧ frameTime 14912 3 = 127776 := by decide

/-- Event codes of the lane fault and the pole trip of chapter 16. -/
theorem test_event_codes : eventCode 0x5533 0x10 lvTrip = 0x55023310 ∧ eventCode 0x3000 4 lvTrip = 0x30020004 := by decide

/-- The emergency message of that lane fault, the oldest queued: 55 FF 11 10 33 02 55 C7. -/
theorem test_emergency :
    (match step ⟨put { run with station := { run.station with emcy := [emcyOf 0x55023310 0x1A2C7] } } [(0x3000, 1, 6), (0x5500, 2, 8), (0x7000, 1, 0)], [.emcySend]⟩ with
     | .next t => leBytes 8 t.dev.station.emcyOut
     | _ => []) = [0x55, 0xFF, 0x11, 0x10, 0x33, 0x02, 0x55, 0xC7] := by decide +kernel

/-- Recorder sizing of chapter 20: S in MiB and the slots. -/
theorem test_recorder_size :
    (slotMiB 5 512 1500 16, slotMiB 5 512 250 16, slotMiB 5 256 250 16, slotMiB 5 0 1500 16) = (3149, 1586, 981, 1938) ∧
    (slotCount 3149, slotCount 1586, slotCount 981, slotCount 1938) = (1, 2, 4, 2) := by decide

/-- The slacks of lane 3 in chapter 9: 587 ns and 2,022 ns at 12.5 Gb/s, 75 ns and 744 ns at 6.25 Gb/s, -425 ns over 400 m. -/
theorem test_slack :
    [downSlack 233 3 5 1500, upSlack 233 3 5 1500, downSlack 233 2 5 1500, upSlack 233 2 5 1500, downSlack 233 2 5 2000] =
      [587, 2022, 75, 744, -425] := by decide

/-- Offsets of the tick of chapter 8: both swaps at 0, the three insertions at 0, 20 and 40. -/
theorem test_offsets :
    (offsetsOf 0 60 [⟨412, true, 2⟩, ⟨57, true, 2⟩, ⟨233, true, 2⟩, ⟨145, false, 1⟩, ⟨509, true, 1⟩]) =
      [(412, 0), (57, 20), (233, 40), (145, 0), (509, 0)] := by decide

/-- The minimum pulse of 9.00 µs raises the offset of cell 233, last changed two ticks before at 250, from 40 to 150. -/
theorem test_min_pulse : (put run [(0x2010, 1, 100)]).filterOffset 900 (some (98, 250)) 40 = (150, true) := by decide +kernel

/-! ### Well-formedness and the queue -/

/-- An operand out of its range is refused, one for each kind of check. -/
theorem test_ill_formed :
    ([.losClear 32, .energise 2, .forceRequest 12 0 0 0 0 0, .conversionComplete 32 0, .suspend 8, .pulseStart 8, .safeInputFiltered 8 true true [],
      .outputTestPulse 4 true true, .bootstrapLockout 6, .comparatorTrip 24 0 [], .blankingWindowEnd 12 0, .barrierLaneFailure true 2,
      .messageSend 0 0 16 0 0 [], .messageSend 5 0 0 0 0 [], .messageSend 0 4 0 0 0 [], .messageSend 0 0 0 0 0 [256], .messageReceived 16 true,
      .sdoWrite 65536 0 1 0, .sdoWrite 0 256 1 0, .login [256], .sessionOpen [300], .foeConfigComplete 8 [], .tickPeriodRequest 256,
      .lockStepFault 4 1 0, .upstreamFrame 0 0 [256], .foeReadRecord 4 0] : List Instr).all (fun i => !i.wellFormed) = true := by decide

/-- The same commands with operands at the ends of their ranges are well-formed. -/
theorem test_well_formed :
    ([.losClear 31, .energise 1, .forceRequest 11 0 0 0 0 0, .conversionComplete 31 0, .suspend 7, .pulseStart 7, .messageSend 4 3 15 0 0 [255],
      .sdoWrite 65535 255 1 0, .foeConfigComplete 7 [0], .tickPeriodRequest 255] : List Instr).all Instr.wellFormed = true := by decide

/-- The table gives no row bits: no word spells a command, and no state changes for one. -/
theorem test_no_words : decodeTableWord 32 0xFFFFFFFF = none ∧ State.reset.withFetchWord 32 5 = State.reset := ⟨rfl, rfl⟩

/-- A step runs the oldest command and leaves the others waiting. -/
theorem test_queue :
    (match step ⟨run, [.regEnLow, .castle]⟩ with
     | .next t => (t.pending == [.castle]) && !t.dev.power.enable
     | _ => false) = true := by decide +kernel

/-- Table 21.4: with the plant half in reset FAULT_N is high-impedance, BLOCK_OUT is released and the lanes are quiet. -/
theorem test_output_balls_in_reset : State.reset.dev.ballFaultN = .highZ ∧ State.reset.dev.ballBlockOut 0 = .released ∧
    State.reset.dev.ballLaneTx 3 = .quiet ∧ State.reset.dev.ballRegEnDrv = .released := by decide

/-! ### Witnesses: each theorem shows states and operands that meet the hypotheses of the clauses of a statement -/

/-- Lane 31 in manual mode of alignment. -/
def manual : Device := put (lane 2 Lane.reset) [(0x554F, 0x47, 1)]

/-- A device whose channel `c` is `x`. -/
def withChan (d : Device) (c : Nat) (x : Chan) : Device := { d with barrier := { d.barrier with chans := d.barrier.chans.set c x } }

/-- An OPEN channel. -/
def openChan : Chan := { Chan.reset with state := 2, credits := 1 }

/-- A message. -/
def msg : Msg := ⟨7, 1, 3, 0, 0, [7, 1, 2]⟩

/-- The direction to the plant half has one lane left. -/
def oneLane : Device := { run with barrier := { run.barrier with s2p := [true, false] } }

/-- SYNC on, in tracker state `st`, with `m` misses in a row. -/
def sync (st m : Nat) : Device :=
  put { run with timer := { run.timer with expecting := true, missRun := m, nearRun := 1000 } } [(0x2010, 5, 2), (0x2010, 7, st), (0x2010, 8, 25)]

/-- The reference buffer in state `st`, with automatic sequencing off. -/
def refBuf (st : Nat) : Device := put run [(0x5600, 1, st), (0x5600, 0x40, 0)]

/-- A metered pole 1 whose window is open since tick 3 and whose last accepted crossing lies `n` half-microseconds back. -/
def metered (n : Nat) : Device :=
  put { run with meter := { run.meter with
    wins := run.meter.wins.set 1 { MeterWin.reset with opened := some 3, since := n }, started := true, sinceSave := 10 ^ 9 } } [(0x6000, 6, 40), (0x6002, 0x0A, 0)]

/-- Output 7 owes three pulses; its last one began 1 s ago. -/
def pulsing (on : Bool) : Device :=
  put { run with meter := { run.meter with pulses := run.meter.pulses.set 7 ⟨0, 1000000, on⟩ } } [(0x6067, 6, 3), (0x6067, 4, 0x3F800000)]

/-- A safety session is open, and entry 0x1018.02 holds the product code of the sealed part or of the other one. -/
def sealed (b : Bool) : Device := (put run [(0x7001, 4, 1)]).wr 0x1018 2 (if b then 0x81921 else 0x81920)

/-- That entry listed, whatever its default. -/
def sealedCell (b : Bool) : Device :=
  { put run [(0x7001, 4, 1)] with od := cellPut (put run [(0x7001, 4, 1)]).od 0x101802 (if b then 0x81921 else 0x81920) }

theorem sealed_cases (b : Bool) : sealed b = put run [(0x7001, 4, 1)] ∨ sealed b = sealedCell b := by
  have hn : cellDel (put run [(0x7001, 4, 1)]).od 0x101802 = (put run [(0x7001, 4, 1)]).od := by decide +kernel
  have hb : odBits 0x101802 = 32 := by decide +kernel
  have hv : (if b then 0x81921 else 0x81920 : Nat) % 2 ^ 32 = if b then 0x81921 else 0x81920 := by cases b <;> rfl
  unfold sealed Device.wr odPut
  rw [show odKey 0x1018 2 = 0x101802 from rfl, hb, hv, if_neg (by decide), hn]
  by_cases hd : (if b then 0x81921 else 0x81920) = odDefault 0x101802
  · rw [if_pos hd]; exact .inl rfl
  · rw [if_neg hd]; exact .inr rfl

theorem sealed_sound (b : Bool) : (sealed b).Sound := (put run [(0x7001, 4, 1)]).wr_sound _ _ _ (soundOf (by decide +kernel))

theorem sealed_part (b : Bool) : (sealed b).sealedPart = b := by
  have h := Device.rd_wr_same (d := put run [(0x7001, 4, 1)]) (by decide +kernel) 0x1018 2 (if b then 0x81921 else 0x81920) (by decide +kernel)
  have hb : odBits (odKey 0x1018 2) = 32 := by decide +kernel
  rw [hb] at h
  unfold Device.sealedPart sealed
  rw [h]
  cases b <;> decide

theorem witness_MeteringLock (b : Bool) :
    (sealed b).Sound ∧ (sealed b).mailbox = true ∧ (sealed b).sealedPart = b ∧ (sealed b).judge 0x6000 0x12 1 2 = none ∧
    (sealed b).judge 0x6000 0x12 1 1 = none ∧ (sealed b).judge 0x6000 0x15 1 1 = none := by
  refine ⟨sealed_sound b, ?_, sealed_part b, ?_⟩ <;> rcases sealed_cases b with h | h <;> rw [h] <;> cases b <;> decide +kernel

/-- The regulator in state `st` with six phases detected and active, after change `f` of its working values. -/
def reg (st : Nat) (f : Power → Power) : Device := put { run with power := f run.power } [(0x5800, 1, st), (0x5800, 2, 63), (0x5800, 3, 63)]

/-- The store measured 0.5 F and 50 mΩ at 5 V. -/
def stored (f : Power → Power) : Device :=
  put { run with power := f { run.power with measured := true }, meter := { run.meter with started := true } }
    [(0x5900, 1, 2), (0x5900, 2, 0x40A00000), (0x5900, 3, 0x3F000000), (0x5900, 4, 0x3D4CCCCD)]

/-- The plant half in device state `st` at tick `t`, with the baseline strap set and the factory baseline in force. -/
def starting (st t : Nat) : Device :=
  put { run with boot := { run.boot with plState := st, trial := true } } [(0xA000, 0x34, 0x200), (0xA000, 2, 0xFF), (0x2010, 1, t), (0x5600, 0x40, 0)]

/-- S_REG_EN_DRV conducts, for a module reset or not. -/
def toggling (m : Bool) : Device := { run with station := { run.station with regEnDrv := true, resetAfter := m } }

/-- Slot 7 in state `n`, named as target, with part `b` of the store. -/
def slot (n : Nat) (b : Boot → Boot) : Device := put { run with boot := b run.boot } [(0xA000, 0x1F, n), (0xA000, 8, 7)]

/-- A pending activation in step `st` at tick 1,024. -/
def acting (st : Nat) (f : Activation → Activation) : Device :=
  put { run with boot := { run.boot with act := f { Activation.reset with pending := true, holder := true } } }
    [(0xA000, 0x0B, st), (0xA000, 0x0C, 1024), (0x2010, 1, 1024)]

/-- A unit of the twin profile in unit state `u` whose slot 7 holds version 5 with CRC 6. -/
def twinSlot (u : Nat) : Device := put (twin u) [(0xA000, 0x1F, 2), (0xA000, 0x27, 5), (0xA000, 0x2F, 6)]

/-- A configuration image of version 1 for both parts, with an empty body. -/
def emptyImage : List Nat := [0x47, 0x46, 0x43, 0x4B, 1, 0, 3, 0, 1] ++ List.replicate 247 0

theorem witness_ShadowLoad :
    ((acting 1 id).boot.slots.getD 0 ⟨[], true⟩).flashOk = true ∧
    ({ acting 1 id with boot := { (acting 1 id).boot with slots := [⟨emptyImage, true⟩] } }).headVerdict emptyImage true true = 0 := by
  refine ⟨by decide +kernel, ?_⟩
  unfold Device.headVerdict
  generalize Device.sealedPart _ = b
  cases b <;> decide +kernel

theorem witness_EmptyBody : run.bodyVerdict emptyImage = ⟨0, 0⟩ := by decide +kernel

/-- With a key in place and a signature that holds, the header passes (the signature check itself is opaque). -/
theorem witness_Validation
    (h : Config.ed25519 7 (emptyImage.take 192 ++ imageBody emptyImage) (bytesAt emptyImage 192 64) = true) :
    (put run [(0xA000, 0x40, 7)]).headVerdict emptyImage false false = 0 := by
  have k : (put run [(0xA000, 0x40, 7)]).rd 0xA000 (0x40 + bytesAt emptyImage 5 1) = 7 := by decide +kernel
  simp only [Device.headVerdict, k, h]
  generalize Device.sealedPart _ = b
  cases b <;> decide +kernel

/-- A login string at level 3 of eight printable bytes. -/
def secret : List Nat := [3, 97, 98, 99, 100, 101, 102, 103, 104]

/-- Logins locked out. -/
def locked : Device := { run with station := { run.station with loginLock := ⟨5, true⟩ } }

/-- EtherCAT state `al` with SYNC0 in DC mode or not. -/
def ecat (al : Nat) (f : Station → Station) : Device := { run with station := f { run.station with al := al } }

/-- DC mode. -/
def dcOn (d : Device) : Device := put d [(0x1C32, 1, 2), (0x1C33, 1, 2)]

/-- The tick timer stands. -/
def still : Device := { run with timer := TickTimer.reset }

/-- A safety session is open. -/
def session : Device := put run [(0x7001, 4, 1)]

/-- A passphrase of twelve bytes. -/
def phrase : List Nat := [97, 98, 99, 100, 101, 102, 103, 104, 105, 106, 107, 108]

/-- A stored passphrase. -/
def stored12 : Credential := ⟨5, 6, false⟩

/-- The passphrase is stored, the change log is `log`, and the session state is `st`. -/
def phased (st : Nat) (log : List ChangeEntry) : Device :=
  put { run with session := { run.session with pass := some stored12, log := log } } [(0x7001, 4, st)]

/-- An entry of the change log with SEQ 3. -/
def logged : ChangeEntry := ⟨3, 0, 0, 1, 1, 0, 0, 0⟩

/-- Task 7 in state `n`, with the slot of core pair 3 as `sl`. -/
def task (n : Nat) (sl : Slot3) : Device :=
  put { run with slot3 := sl, tasks := run.tasks.set 7 { TaskCtl.reset with overs := 2 } } [(0x9037, 1, n)]

/-- Time source `m`, with an edge accepted or not. -/
def timed (m : Nat) (b : Bool) : Device := put { run with time := { run.time with accepted := b } } [(0x9000, 3, m)]

/-- One recorder slot in state `n`, triggered at tick 5, with source 0 enabled. -/
def rec1 (n : Nat) (src : Nat) : Device :=
  put { run with recorder := [{ RecSlot.reset with state := n, trigTick := 5, ticks := [⟨10 ^ 9, []⟩] }] } [(0xB000, 2, 1), (0xB000, 5, src), (0xB000, 7, 0)]

/-- A unit in unit state `u` that is fit. -/
def fitUnit (u : Nat) : Device :=
  put { twin u with boot := { run.boot with selfTest := 0xFFFF, readyDone := true } } [(0x5600, 1, 2), (0x8001, 0x10, 1), (0x8002, 1, 3), (0x2010, 7, 0x82), (0x8011, 2, 8)]

/-- A TICK record of tick 0 with the hash 0. -/
def tickRec0 : TickRec := ⟨0, true, 0, [], 0, 0, 0⟩

/-- A STANDBY-SYNC unit with the link up, bridging or not since tick 0, at tick `t`. -/
def standby (bridging t : Nat) : Device := put (fitUnit 2) [(0x2020, 6, 2 * bridging), (0x2010, 1, t)]

/-- A unit of the twin profile in unit state `u` with change `f` of its twin part and the entries `kvs`. -/
def twinBy (u : Nat) (f : Twin → Twin) (kvs : List (Nat × Nat × Nat)) : Device := put { fitUnit u with twin := f (fitUnit u).twin } kvs

/-- What the peer shows: unit state `st` with every self-test bit set. -/
def peerIs (st : Nat) : Nat × Nat × Nat := (0x8011, 1, domainOf 64 (st * 2 ^ 440 + (2 ^ 16 - 1) * 2 ^ 416 + (2 ^ 32 - 1) * 2 ^ 240))

/-- Pole 1 in state `n` with its control part `f` of reset, in device state `pl`, with Safe Block in NORMAL. -/
def pole (n pl : Nat) (f : PoleCtl → PoleCtl) : Device :=
  put { run with poles := [PoleCtl.reset, f PoleCtl.reset], boot := { run.boot with plState := pl }, guard := { run.guard with ch1 := 0 } }
    [(0x3800, 1, n), (0x7000, 1, 0), (0x7000, 2, 0), (0x2010, 5, 0)]

/-- A tracker that is LOCKED. -/
def onGrid (c : PoleCtl) : PoleCtl := { c with fast := { c.fast with trk := { c.fast.trk with state := 2, valid := true } } }

/-- The pole has a cell in lane 31 that is not OPERATIONAL. -/
def laneDown (d : Device) : Device := put d [(0x4600, 2, 1), (0x4600, 3, 0x1F * 2 ^ 8)]

/-- Pole 1 with one arm present, in state `n`, with control part `f` of reset and the entries `kvs`. -/
def outer (n : Nat) (f : PoleCtl → PoleCtl) (kvs : List (Nat × Nat × Nat)) : Device :=
  put { run with poles := [PoleCtl.reset, f PoleCtl.reset] } ([(0x3800, 1, n), (0x4600, 2, 1)] ++ kvs)

/-- Arm 11 with eight cells, blocked, with force allowed by its settings. -/
def armed (kvs : List (Nat × Nat × Nat)) : Device := put run ([(0x4B00, 2, 8)] ++ kvs)

/-- Comparator pair 11 is on, under test as `t`, with failed comparators `f` and working values `g`. -/
def compared (t f : Nat) (g : Guard → Guard) : Device := put { run with guard := g run.guard } [(0x702B, 1, 1), (0x5700, 3, t), (0x5700, 2, f)]

/-- Safe inputs as `kvs` set them, with both channels in state `n` and run allowed. -/
def safe (n : Nat) (kvs : List (Nat × Nat × Nat)) : Device :=
  put { run with guard := { run.guard with ch1 := n } } ([(0x7000, 2, n), (0x7000, 1, n), (0x7000, 5, 1)] ++ kvs)

theorem witness_StepKeepsSound : State.reset.dev.Sound ∧ step State.reset = .next State.reset := ⟨soundOf (by decide +kernel), rfl⟩

theorem witness_OnlyT0Ticks : run.Sound ∧ run.ticking = true ∧ (Instr.castle ≠ .activationSwitch) :=
  ⟨soundOf (by decide +kernel), by decide +kernel⟩

theorem witness_EventsOfATick :
    ({ run with ring := ⟨[], [⟨2, 0⟩, ⟨1, 0⟩], 1⟩ }).Sound ∧ ({ run with ring := ⟨[], [⟨2, 0⟩, ⟨1, 0⟩], 1⟩ }).ring.nextSeq < 2 ^ 32 :=
  ⟨soundOf (by decide +kernel), by decide +kernel⟩

/-- An entry of the ring that has not been delivered. -/
def oldEntry : RingEntry := { seq := 1, tick := 0, event := 0, data := 0, utc := 0, subsec := 0, tq := 0, origin := 0, queued := false, delivered := false }

theorem witness_FullRing :
    ({ run with ring := ⟨oldEntry :: List.replicate 65535 oldEntry, [], 1⟩ }).Sound ∧
    ({ run with ring := ⟨oldEntry :: List.replicate 65535 oldEntry, [], 1⟩ }).ring.entries.length = 65536 ∧ oldEntry.delivered = false :=
  ⟨soundOf (by decide +kernel), by
    show (oldEntry :: List.replicate 65535 oldEntry).length = 65536
    rw [List.length_cons, List.length_replicate], rfl⟩

theorem witness_SerialNumbers : (0 : Nat) < 32 ∧ 0xFFFFFFFF < 2 ^ 32 ∧ newer 32 0xFFFFFFFF 0 = true ∧ (0 + 2 ^ 31) % 2 ^ 32 = 0x80000000 := by decide

/-- Arm 11 DEBLOCKED with one cell. -/
def cellArm (x : Cell) : Device := { armed [(0x4B00, 1, 3)] with arms := Device.reset.arms.set 11 { Arm.reset with cells := [x] } }

theorem witness_EngineAndSelection :
    (armed []).armLive 11 = false ∧ (armed [(0x4B00, 1, 3)]).armLive 11 = true ∧ 0 ≤ q24 ((armed []).rdF (armIdx 0x4010 11) 8) ∧
    (cellArm { Cell.reset with pin := 3 }).armLive 11 = true ∧
    ((cellArm { Cell.reset with pin := 3 }).arm 11).cells[0]? = some { Cell.reset with pin := 3 } ∧
    (cellArm Cell.reset).forceWhole 11 = false ∧ ((cellArm { Cell.reset with byp := 1 }).arm 11).cells[0]? = some { Cell.reset with byp := 1 } := by
  decide +kernel

/-! ### Witnesses of the statements: for each clause a state and operands that meet its premises together

One pair of brackets is one clause; `soundB` stands once for each state, and `soundOf` makes `Device.Sound` of it. -/

theorem witness_LaneFaultSources_1 :
    (soundB (lane 7 { Lane.reset with aligned := true }) = true ∧ (lane 7 { Lane.reset with aligned := true }).laneState 3 = 0) ∧
    (((lane 7 { Lane.reset with aligned := true }).lane 31).los = false ∧ (lane 7 { Lane.reset with aligned := true }).laneState 31 ≠ 8 ∧
    (lane 7 { Lane.reset with aligned := true }).laneState 31 ≠ 0) ∧
    (((lane 7 { Lane.reset with aligned := true }).lane 31).lol = false ∧ (lane 7 { Lane.reset with aligned := true }).laneState 31 ≠ 8 ∧
    (lane 7 { Lane.reset with aligned := true }).laneState 31 ≠ 0) ∧
    (((lane 7 { Lane.reset with aligned := true }).lane 31).aligned = true ∧
    (lane 7 { Lane.reset with aligned := true }).laneState 31 ≠ 8 ∧ (lane 7 { Lane.reset with aligned := true }).manualAlign 31 = false) ∧
    (soundB (lane 8 Lane.reset) = true ∧ ((lane 8 Lane.reset).lane 31).los = false ∧ (lane 8 Lane.reset).laneState 31 = 8) ∧
    (((lane 8 Lane.reset).lane 31).lol = false ∧ (lane 8 Lane.reset).laneState 31 = 8) ∧
    (soundB (put (lane 3 Lane.reset) [(0x2010, 1, 10 ^ 9)]) = true ∧ (put (lane 3 Lane.reset) [(0x2010, 1, 10 ^ 9)]).laneState 31 = 3 ∧
    (put (lane 3 Lane.reset) [(0x2010, 1, 10 ^ 9)]).laneLasted 31 20000 = true) ∧
    (soundB (put (lane 4 Lane.reset) [(0x2010, 1, 10 ^ 9)]) = true ∧ (put (lane 4 Lane.reset) [(0x2010, 1, 10 ^ 9)]).laneState 31 = 4 ∧
    (put (lane 4 Lane.reset) [(0x2010, 1, 10 ^ 9)]).laneLasted 31 20000 = true) := by decide +kernel

theorem witness_LaneFaultSources_2 :
    (soundB (put (lane 5 Lane.reset) [(0x2010, 1, 10 ^ 9)]) = true ∧ (put (lane 5 Lane.reset) [(0x2010, 1, 10 ^ 9)]).laneState 31 = 5 ∧
    (put (lane 5 Lane.reset) [(0x2010, 1, 10 ^ 9)]).laneLasted 31 2000 = true) ∧
    (soundB (armed []) = true ∧ (armed []).laneLasted 3 2000 = false) ∧
    (soundB (lane 3 { Lane.reset with seen := some (messageWord 0x0B 31 (1 * 2 ^ 32)) }) = true ∧
    (lane 3 { Lane.reset with seen := some (messageWord 0x0B 31 (1 * 2 ^ 32)) }).laneState 31 = 3 ∧
    ((lane 3 { Lane.reset with seen := some (messageWord 0x0B 31 (1 * 2 ^ 32)) }).lane 31).seen = some (messageWord 0x0B 31 (1 % 256 * 2 ^ 32)) ∧
    31 = 31) ∧
    (soundB (lane 3 { Lane.reset with seen := some (messageWord 0x0B 3 (1 * 2 ^ 32)) }) = true ∧
    (lane 3 { Lane.reset with seen := some (messageWord 0x0B 3 (1 * 2 ^ 32)) }).laneState 31 = 3 ∧
    ((lane 3 { Lane.reset with seen := some (messageWord 0x0B 3 (1 * 2 ^ 32)) }).lane 31).seen = some (messageWord 0x0B 3 (1 % 256 * 2 ^ 32)) ∧
    3 ≠ 31) ∧
    (((armed []).lane 3).seen ≠ some (messageWord 0x0B 31 (1 % 256 * 2 ^ 32))) := by decide +kernel

theorem witness_LaneBringUp_1 :
    (soundB (lane 1 Lane.reset) = true ∧ (lane 1 Lane.reset).laneState 31 = 1 ∧ ((lane 1 Lane.reset).lane 31).los = false ∧
    ((lane 1 Lane.reset).lane 31).lol = false) ∧
    (soundB (lane 2 Lane.reset) = true ∧ (lane 2 Lane.reset).laneState 31 = 2 ∧ 64 ≤ 65 ∧ (lane 2 Lane.reset).manualAlign 31 = false) ∧
    (soundB manual = true ∧ manual.laneState 31 = 2 ∧ manual.manualAlign 31 = true) ∧
    (soundB (put (lane 9 Lane.reset) [(0x554F, 1, 1), (0x2010, 1, 10 ^ 9)]) = true ∧
    (put (lane 9 Lane.reset) [(0x554F, 1, 1), (0x2010, 1, 10 ^ 9)]).laneState 31 = 9 ∧
    (put (lane 9 Lane.reset) [(0x554F, 1, 1), (0x2010, 1, 10 ^ 9)]).laneCells 31 ≠ 0 ∧
    (put (lane 9 Lane.reset) [(0x554F, 1, 1), (0x2010, 1, 10 ^ 9)]).laneLasted 31 1000 = true) ∧
    (soundB (lane 3 { Lane.reset with seen := some (messageWord 3 3 (1 * 2 ^ 32 + 9)) }) = true ∧
    (lane 3 { Lane.reset with seen := some (messageWord 3 3 (1 * 2 ^ 32 + 9)) }).laneState 31 = 3 ∧ 31 = 31 ∧
    ((lane 3 { Lane.reset with seen := some (messageWord 3 3 (1 * 2 ^ 32 + 9)) }).lane 31).gotCap = false) ∧
    (soundB (lane 3 { Lane.reset with seen := some (messageWord 2 31 (5 * 2 ^ 36 + 7 * 2 ^ 27)) }) = true ∧
    (lane 3 { Lane.reset with seen := some (messageWord 2 31 (5 * 2 ^ 36 + 7 * 2 ^ 27)) }).laneState 31 = 3 ∧ 31 = 31 ∧
    ((lane 3 { Lane.reset with seen := some (messageWord 2 31 (5 * 2 ^ 36 + 7 * 2 ^ 27)) }).lane 31).gotTrain = false ∧
    ((lane 3 { Lane.reset with seen := some (messageWord 2 31 (5 * 2 ^ 36 + 7 * 2 ^ 27)) }).lane 31).seen = some (messageWord 2 31 (5 % 16 * 2 ^ 36 + 7 % 512 * 2 ^ 27))) ∧
    (soundB (lane 3 { Lane.reset with seen := some (messageWord 3 31 (1 * 2 ^ 32 + 9)) }) = true ∧
    (lane 3 { Lane.reset with seen := some (messageWord 3 31 (1 * 2 ^ 32 + 9)) }).laneState 31 = 3 ∧ 31 = 31 ∧
    ((lane 3 { Lane.reset with seen := some (messageWord 3 31 (1 * 2 ^ 32 + 9)) }).lane 31).gotTrain = false ∧
    ((lane 3 { Lane.reset with seen := some (messageWord 3 31 (1 * 2 ^ 32 + 9)) }).lane 31).seen = some (messageWord 3 31 (1 % 256 * 2 ^ 32 + 9 % 2 ^ 32))) ∧
    (soundB (lane 3 { Lane.reset with seen := some (messageWord 2 3 (5 * 2 ^ 36 + 7 * 2 ^ 27)) }) = true ∧
    (lane 3 { Lane.reset with seen := some (messageWord 2 3 (5 * 2 ^ 36 + 7 * 2 ^ 27)) }).laneState 31 = 3 ∧ 3 ≠ 31 ∧
    ((lane 3 { Lane.reset with seen := some (messageWord 2 3 (5 * 2 ^ 36 + 7 * 2 ^ 27)) }).lane 31).seen = some (messageWord 2 3 (5 % 16 * 2 ^ 36 + 7 % 512 * 2 ^ 27))) := by decide +kernel

theorem witness_LaneBringUp_2 :
    ((lane 3 { Lane.reset with seen := some (messageWord 3 3 (1 * 2 ^ 32 + 9)) }).laneState 31 = 3 ∧ 3 ≠ 31 ∧
    ((lane 3 { Lane.reset with seen := some (messageWord 3 3 (1 * 2 ^ 32 + 9)) }).lane 31).seen = some (messageWord 3 3 (1 % 256 * 2 ^ 32 + 9 % 2 ^ 32))) := by decide +kernel

theorem witness_LaneRates :
    (soundB (lane 3 { Lane.reset with seen := some (messageWord 5 31 5), config := some 5 }) = true ∧
    (lane 3 { Lane.reset with seen := some (messageWord 5 31 5), config := some 5 }).laneState 31 = 3 ∧
    ((lane 3 { Lane.reset with seen := some (messageWord 5 31 5), config := some 5 }).lane 31).config = some (5 % 2 ^ 40) ∧
    ((lane 3 { Lane.reset with seen := some (messageWord 5 31 5), config := some 5 }).lane 31).seen = some (messageWord 5 31 5)) ∧
    (soundB (lane 4 { Lane.reset with message := 3, seen := some (messageWord 7 31 (4 * 2 ^ 24 + 3)), echoes := [5, 5, 5] }) = true ∧
    (lane 4 { Lane.reset with message := 3, seen := some (messageWord 7 31 (4 * 2 ^ 24 + 3)), echoes := [5, 5, 5] }).laneState 31 = 4 ∧
    ((lane 4 { Lane.reset with message := 3, seen := some (messageWord 7 31 (4 * 2 ^ 24 + 3)), echoes := [5, 5, 5] }).lane 31).echoes.length < 15 ∧
    ((lane 4 { Lane.reset with message := 3, seen := some (messageWord 7 31 (4 * 2 ^ 24 + 3)), echoes := [5, 5, 5] }).lane 31).seen = some (messageWord 7 31 (4 % 2 ^ 16 * 2 ^ 24 + ((lane 4 { Lane.reset with message := 3, seen := some (messageWord 7 31 (4 * 2 ^ 24 + 3)), echoes := [5, 5, 5] }).lane 31).message % 2 ^ 24)) ∧
    ((lane 4 { Lane.reset with message := 3, seen := some (messageWord 7 31 (4 * 2 ^ 24 + 3)), echoes := [5, 5, 5] }).lane 31).echoed ≠ ((lane 4 { Lane.reset with message := 3, seen := some (messageWord 7 31 (4 * 2 ^ 24 + 3)), echoes := [5, 5, 5] }).lane 31).seen) ∧
    (soundB (lane 5 { Lane.reset with seen := some (messageWord 9 31 (2 * 2 ^ 36)), stepTo := 2 }) = true ∧
    ((lane 5 { Lane.reset with seen := some (messageWord 9 31 (2 * 2 ^ 36)), stepTo := 2 }).laneState 31 = 5 ∨ (lane 5 { Lane.reset with seen := some (messageWord 9 31 (2 * 2 ^ 36)), stepTo := 2 }).laneState 31 = 6 ∧
    (lane 5 { Lane.reset with seen := some (messageWord 9 31 (2 * 2 ^ 36)), stepTo := 2 }).fallingBack 31 = true) ∧
    2 = ((lane 5 { Lane.reset with seen := some (messageWord 9 31 (2 * 2 ^ 36)), stepTo := 2 }).lane 31).stepTo ∧
    ((lane 5 { Lane.reset with seen := some (messageWord 9 31 (2 * 2 ^ 36)), stepTo := 2 }).lane 31).seen = some (messageWord 9 31 (2 % 16 * 2 ^ 36))) ∧
    (soundB (lane 6 { Lane.reset with aligned := true, clean := true }) = true ∧
    (lane 6 { Lane.reset with aligned := true, clean := true }).laneState 31 = 6 ∧
    (lane 6 { Lane.reset with aligned := true, clean := true }).fallingBack 31 = false ∧
    ((lane 6 { Lane.reset with aligned := true, clean := true }).lane 31).aligned = true ∧ 100 ≤ 100) ∧
    (soundB (put (lane 6 Lane.reset) [(0x2010, 1, 10 ^ 9)]) = true ∧ (put (lane 6 Lane.reset) [(0x2010, 1, 10 ^ 9)]).laneState 31 = 6 ∧
    (put (lane 6 Lane.reset) [(0x2010, 1, 10 ^ 9)]).laneLasted 31 (1000 * (put (lane 6 Lane.reset) [(0x2010, 1, 10 ^ 9)]).rd (laneIdx 31) 0x4C) = true) ∧
    ((lane 6 { Lane.reset with aligned := true, clean := true }).laneLasted 31 (1000 * (lane 6 { Lane.reset with aligned := true, clean := true }).rd (laneIdx 31) 0x4C) = false) ∧
    (soundB (lane 6 { Lane.reset with seen := some (messageWord 0x0A 31 0), aligned := true, clean := true }) = true ∧
    (lane 6 { Lane.reset with seen := some (messageWord 0x0A 31 0), aligned := true, clean := true }).laneState 31 = 6 ∧
    (lane 6 { Lane.reset with seen := some (messageWord 0x0A 31 0), aligned := true, clean := true }).fallingBack 31 = false ∧
    0 = (lane 6 { Lane.reset with seen := some (messageWord 0x0A 31 0), aligned := true, clean := true }).rd (laneIdx 31) 6 ∧
    ((lane 6 { Lane.reset with seen := some (messageWord 0x0A 31 0), aligned := true, clean := true }).lane 31).seen = some (messageWord 0x0A 31 (0 % 16 * 2 ^ 36)) ∧
    ((lane 6 { Lane.reset with seen := some (messageWord 0x0A 31 0), aligned := true, clean := true }).lane 31).aligned = true ∧
    ((lane 6 { Lane.reset with seen := some (messageWord 0x0A 31 0), aligned := true, clean := true }).lane 31).clean = true) := by decide +kernel

theorem witness_LaneServiceAndFrames :
    (soundB manual = true ∧ manual.mailbox = true ∧ manual.judge (laneIdx 31) 0x48 1 1 = none ∧ manual.manualAlign 31 = true) ∧
    (soundB (lane 8 { Lane.reset with writes := [(4, 1)] }) = true ∧ (lane 8 { Lane.reset with writes := [(4, 1)] }).mailbox = true ∧
    (lane 8 { Lane.reset with writes := [(4, 1)] }).judge (laneIdx 0) 0x1A 1 1 = none ∧
    (lane 8 { Lane.reset with writes := [(4, 1)] }).laneLive 0 = false) ∧
    (((lane 8 { Lane.reset with writes := [(4, 1)] }).lane 31).writes ≠ [] ∧
    (lane 8 { Lane.reset with writes := [(4, 1)] }).laneLive 31 = false) ∧
    (((lane 8 { Lane.reset with writes := [(4, 1)] }).lane 3).writes = [] ∨ (lane 8 { Lane.reset with writes := [(4, 1)] }).laneLive 3 = true) ∧
    (soundB (lane 8 Lane.reset) = true ∧ (lane 8 Lane.reset).laneState 31 = 8 ∧
    (lane 8 Lane.reset).frameOk 31 2031617 ([] : List Nat) = true) ∧
    ((lane 8 Lane.reset).laneState 31 = 8 ∧ (lane 8 Lane.reset).frameOk 31 0 ([] : List Nat) = false) := by decide +kernel

theorem witness_BarrierSend :
    (soundB (outer 4 id [(0x3806, 6, 0)]) = true ∧
    binding? 3 = some ({ sender := 2, spairs := 8, recvr := 1, rpairs := 0, slots := 4, maxPay := 1032, prio := 0 } : Binding) ∧
    ({ sender := 2, spairs := 8, recvr := 1, rpairs := 0, slots := 4, maxPay := 1032, prio := 0 } : Binding).sendsBy 2 3 = true ∧
    ((outer 4 id [(0x3806, 6, 0)]).chan 3).state = 2 ∧ typePermitted 3 2 129 = true ∧
    ([3, 97] : List Nat).length ≤ ({ sender := 2, spairs := 8, recvr := 1, rpairs := 0, slots := 4, maxPay := 1032, prio := 0 } : Binding).maxPay ∧
    ((outer 4 id [(0x3806, 6, 0)]).chan 3).credits ≠ 0) ∧
    (binding? 11 = some ({ sender := 0, spairs := 0, recvr := 2, rpairs := 8, slots := 32, maxPay := 260, prio := 1 } : Binding) ∧
    (({ sender := 0, spairs := 0, recvr := 2, rpairs := 8, slots := 32, maxPay := 260, prio := 1 } : Binding).sendsBy 3 2 = false ∨ ((outer 4 id [(0x3806, 6, 0)]).chan 11).state = 2 ∧
    (typePermitted 11 8 1 = false ∨ ({ sender := 0, spairs := 0, recvr := 2, rpairs := 8, slots := 32, maxPay := 260, prio := 1 } : Binding).maxPay < ([] : List Nat).length))) ∧
    (soundB (withChan run 2 { openChan with credits := 0 }) = true ∧ binding? 2 = some ⟨1, 0, 2, 4, 8, 1024, 0⟩ ∧
    Binding.sendsBy ⟨1, 0, 2, 4, 8, 1024, 0⟩ 1 0 = true ∧ ((withChan run 2 { openChan with credits := 0 }).chan 2).state = 2 ∧
    typePermitted 2 2 1 = true ∧ (List.replicate 1024 7).length ≤ 1024 ∧
    ((withChan run 2 { openChan with credits := 0 }).chan 2).credits = 0) := by decide +kernel

theorem witness_BarrierDelivery_1 :
    (soundB (withChan run 3 { openChan with flight := [msg], fails := 4 }) = true ∧
    ((withChan run 3 { openChan with flight := [msg], fails := 4 }).chan 3).state = 2 ∧
    ((withChan run 3 { openChan with flight := [msg], fails := 4 }).chan 3).flight = ({ cls := 7, typ := 1, pair := 3, seq := 0, tickLo := 0, payload := [7, 1, 2] } : Msg) :: ([] : List Msg) ∧
    ((withChan run 3 { openChan with flight := [msg], fails := 4 }).mayArrive (toStation 3)).contains 3 = true) ∧
    (soundB (withChan run 0 { openChan with flight := [⟨1, 1, 2, 0, 0, List.replicate 900 3⟩], part := 2 }) = true ∧
    ((withChan run 0 { openChan with flight := [⟨1, 1, 2, 0, 0, List.replicate 900 3⟩], part := 2 }).chan 0).state = 2 ∧
    ((withChan run 0 { openChan with flight := [⟨1, 1, 2, 0, 0, List.replicate 900 3⟩], part := 2 }).chan 0).flight = ({ cls := 1, typ := 1, pair := 2, seq := 0, tickLo := 0, payload := [3, 3, 3, 3, 3, 3, 3, 3, 3, 3, 3, 3, 3, 3, 3, 3, 3, 3, 3, 3, 3, 3, 3, 3, 3, 3, 3, 3, 3, 3, 3, 3, 3, 3, 3, 3, 3, 3, 3, 3, 3, 3, 3, 3, 3, 3, 3, 3, 3, 3, 3, 3, 3, 3, 3, 3, 3, 3, 3, 3, 3, 3, 3, 3, 3, 3, 3, 3, 3, 3, 3, 3, 3, 3, 3, 3, 3, 3, 3, 3, 3, 3, 3, 3, 3, 3, 3, 3, 3, 3, 3, 3, 3, 3, 3, 3, 3, 3, 3, 3, 3, 3, 3, 3, 3, 3, 3, 3, 3, 3, 3, 3, 3, 3, 3, 3, 3, 3, 3, 3, 3, 3, 3, 3, 3, 3, 3, 3, 3, 3, 3, 3, 3, 3, 3, 3, 3, 3, 3, 3, 3, 3, 3, 3, 3, 3, 3, 3, 3, 3, 3, 3, 3, 3, 3, 3, 3, 3, 3, 3, 3, 3, 3, 3, 3, 3, 3, 3, 3, 3, 3, 3, 3, 3, 3, 3, 3, 3, 3, 3, 3, 3, 3, 3, 3, 3, 3, 3, 3, 3, 3, 3, 3, 3, 3, 3, 3, 3, 3, 3, 3, 3, 3, 3, 3, 3, 3, 3, 3, 3, 3, 3, 3, 3, 3, 3, 3, 3, 3, 3, 3, 3, 3, 3, 3, 3, 3, 3, 3, 3, 3, 3, 3, 3, 3, 3, 3, 3, 3, 3, 3, 3, 3, 3, 3, 3, 3, 3, 3, 3, 3, 3, 3, 3, 3, 3, 3, 3, 3, 3, 3, 3, 3, 3, 3, 3, 3, 3, 3, 3, 3, 3, 3, 3, 3, 3, 3, 3, 3, 3, 3, 3, 3, 3, 3, 3, 3, 3, 3, 3, 3, 3, 3, 3, 3, 3, 3, 3, 3, 3, 3, 3, 3, 3, 3, 3, 3, 3, 3, 3, 3, 3, 3, 3, 3, 3, 3, 3, 3, 3, 3, 3, 3, 3, 3, 3, 3, 3, 3, 3, 3, 3, 3, 3, 3, 3, 3, 3, 3, 3, 3, 3, 3, 3, 3, 3, 3, 3, 3, 3, 3, 3, 3, 3, 3, 3, 3, 3, 3, 3, 3, 3, 3, 3, 3, 3, 3, 3, 3, 3, 3, 3, 3, 3, 3, 3, 3, 3, 3, 3, 3, 3, 3, 3, 3, 3, 3, 3, 3, 3, 3, 3, 3, 3, 3, 3, 3, 3, 3, 3, 3, 3, 3, 3, 3, 3, 3, 3, 3, 3, 3, 3, 3, 3, 3, 3, 3, 3, 3, 3, 3, 3, 3, 3, 3, 3, 3, 3, 3, 3, 3, 3, 3, 3, 3, 3, 3, 3, 3, 3, 3, 3, 3, 3, 3, 3, 3, 3, 3, 3, 3, 3, 3, 3, 3, 3, 3, 3, 3, 3, 3, 3, 3, 3, 3, 3, 3, 3, 3, 3, 3, 3, 3, 3, 3, 3, 3, 3, 3, 3, 3, 3, 3, 3, 3, 3, 3, 3, 3, 3, 3, 3, 3, 3, 3, 3, 3, 3, 3, 3, 3, 3, 3, 3, 3, 3, 3, 3, 3, 3, 3, 3, 3, 3, 3, 3, 3, 3, 3, 3, 3, 3, 3, 3, 3, 3, 3, 3, 3, 3, 3, 3, 3, 3, 3, 3, 3, 3, 3, 3, 3, 3, 3, 3, 3, 3, 3, 3, 3, 3, 3, 3, 3, 3, 3, 3, 3, 3, 3, 3, 3, 3, 3, 3, 3, 3, 3, 3, 3, 3, 3, 3, 3, 3, 3, 3, 3, 3, 3, 3, 3, 3, 3, 3, 3, 3, 3, 3, 3, 3, 3, 3, 3, 3, 3, 3, 3, 3, 3, 3, 3, 3, 3, 3, 3, 3, 3, 3, 3, 3, 3, 3, 3, 3, 3, 3, 3, 3, 3, 3, 3, 3, 3, 3, 3, 3, 3, 3, 3, 3, 3, 3, 3, 3, 3, 3, 3, 3, 3, 3, 3, 3, 3, 3, 3, 3, 3, 3, 3, 3, 3, 3, 3, 3, 3, 3, 3, 3, 3, 3, 3, 3, 3, 3, 3, 3, 3, 3, 3, 3, 3, 3, 3, 3, 3, 3, 3, 3, 3, 3, 3, 3, 3, 3, 3, 3, 3, 3, 3, 3, 3, 3, 3, 3, 3, 3, 3, 3, 3, 3, 3, 3, 3, 3, 3, 3, 3, 3, 3, 3, 3, 3, 3, 3, 3, 3, 3, 3, 3, 3, 3, 3, 3, 3, 3, 3, 3, 3, 3, 3, 3, 3, 3, 3, 3, 3, 3, 3, 3, 3, 3, 3, 3, 3, 3, 3, 3, 3, 3, 3, 3, 3, 3, 3, 3, 3, 3, 3, 3, 3, 3, 3, 3, 3, 3, 3, 3, 3, 3, 3, 3, 3, 3, 3, 3, 3, 3, 3, 3, 3, 3, 3, 3, 3, 3, 3, 3, 3, 3, 3, 3, 3, 3, 3, 3, 3, 3, 3, 3, 3, 3, 3, 3, 3, 3, 3, 3, 3, 3, 3, 3, 3, 3, 3, 3, 3, 3, 3, 3, 3, 3, 3, 3, 3, 3, 3, 3, 3, 3, 3, 3, 3, 3, 3, 3, 3, 3, 3, 3, 3, 3, 3, 3, 3, 3, 3, 3, 3, 3, 3, 3, 3, 3, 3, 3, 3, 3, 3, 3, 3, 3, 3, 3, 3, 3, 3, 3, 3, 3, 3, 3, 3, 3, 3, 3, 3, 3, 3, 3, 3, 3, 3, 3, 3, 3, 3, 3, 3, 3, 3, 3, 3, 3, 3, 3, 3, 3, 3, 3, 3] } : Msg) :: ([] : List Msg) ∧
    ((withChan run 0 { openChan with flight := [⟨1, 1, 2, 0, 0, List.replicate 900 3⟩], part := 2 }).mayArrive (toStation 0)).contains 0 = true ∧
    ((withChan run 0 { openChan with flight := [⟨1, 1, 2, 0, 0, List.replicate 900 3⟩], part := 2 }).chan 0).fails < 4) ∧
    (((withChan run 3 { openChan with flight := [msg], fails := 4 }).chan 3).state = 2 ∧
    ((withChan run 3 { openChan with flight := [msg], fails := 4 }).chan 3).flight = (msg : Msg) :: ([] : List Msg) ∧
    ((withChan run 3 { openChan with flight := [msg], fails := 4 }).mayArrive (toStation 3)).contains 3 = true ∧
    4 ≤ ((withChan run 3 { openChan with flight := [msg], fails := 4 }).chan 3).fails) ∧
    (soundB (withChan run 3 { openChan with queue := [msg] }) = true ∧
    binding? 3 = some ({ sender := 2, spairs := 8, recvr := 1, rpairs := 0, slots := 4, maxPay := 1032, prio := 0 } : Binding) ∧
    ((withChan run 3 { openChan with queue := [msg] }).chan 3).queue = ({ cls := 7, typ := 1, pair := 3, seq := 0, tickLo := 0, payload := [7, 1, 2] } : Msg) :: ([] : List Msg) ∧
    ({ sender := 2, spairs := 8, recvr := 1, rpairs := 0, slots := 4, maxPay := 1032, prio := 0 } : Binding).takenBy 1 1 = true ∧
    3 ∉ [0, 4, 7, 11]) ∧
    (binding? 3 = some ({ sender := 2, spairs := 8, recvr := 1, rpairs := 0, slots := 4, maxPay := 1032, prio := 0 } : Binding) ∧
    ((withChan run 3 { openChan with queue := [msg] }).chan 3).queue = ({ cls := 7, typ := 1, pair := 3, seq := 0, tickLo := 0, payload := [7, 1, 2] } : Msg) :: ([] : List Msg) ∧
    ({ sender := 2, spairs := 8, recvr := 1, rpairs := 0, slots := 4, maxPay := 1032, prio := 0 } : Binding).takenBy 3 2 = false) := by decide +kernel

theorem witness_BarrierDelivery_2 :
    (soundB ({ withChan (task 3 ⟨false, none, [], 0⟩) 11 { openChan with queue := [msg] } with slot3 := ⟨false, none, [], 0⟩ }) = true ∧
    binding? 11 = some ({ sender := 0, spairs := 0, recvr := 2, rpairs := 8, slots := 32, maxPay := 260, prio := 1 } : Binding) ∧
    (({ withChan (task 3 ⟨false, none, [], 0⟩) 11 { openChan with queue := [msg] } with slot3 := ⟨false, none, [], 0⟩ }).chan 11).queue = ({ cls := 7, typ := 1, pair := 3, seq := 0, tickLo := 0, payload := [7, 1, 2] } : Msg) :: ([] : List Msg) ∧
    11 = 11 ∧
    ({ withChan (task 3 ⟨false, none, [], 0⟩) 11 { openChan with queue := [msg] } with slot3 := ⟨false, none, [], 0⟩ }).boot.plantHeld = false ∧
    ({ withChan (task 3 ⟨false, none, [], 0⟩) 11 { openChan with queue := [msg] } with slot3 := ⟨false, none, [], 0⟩ }).boot.pairsHalted = false ∧
    ({ cls := 7, typ := 1, pair := 3, seq := 0, tickLo := 0, payload := [7, 1, 2] } : Msg).payload.headD 8 = 7 ∧
    ({ withChan (task 3 ⟨false, none, [], 0⟩) 11 { openChan with queue := [msg] } with slot3 := ⟨false, none, [], 0⟩ }).rd (0x9030 + 7) 1 ≠ 0 ∧
    (({ withChan (task 3 ⟨false, none, [], 0⟩) 11 { openChan with queue := [msg] } with slot3 := ⟨false, none, [], 0⟩ }).task 7).inbox.length < 16) := by decide +kernel

/-- A read of one entry, and one of an object that is not there. -/
theorem witness_SdoReads :
    let m : Msg := ⟨1, 1, 2, 0, 0, [0, 16, 32, 0x0A, 0]⟩
    let n : Msg := ⟨1, 1, 2, 0, 0, [0, 52, 18, 0, 0]⟩
    let d := withChan run 0 { openChan with queue := m :: [] }
    let e := withChan run 0 { openChan with queue := n :: [] }
    (soundB d = true ∧ (d.chan 0).queue = m :: [] ∧ m.cls = 1 ∧ m.typ = 1 ∧ m.payload.length = 5 ∧ (d.chan 1).state = 2 ∧ (d.chan 1).credits ≠ 0 ∧
      d.readAnswer (bit (m.payload.headD 0) 4) (m.payload.getD 4 0) (leNat ((m.payload.drop 1).take 2)) (m.payload.getD 3 0) =
        .inr ([0, 0, 0, 0, 0] ++ []) ∧ [0, 0, 0, 0, 0].length = min 1016 ([0, 0, 0, 0, 0].length + 0)) ∧
    (soundB e = true ∧ (e.chan 0).queue = n :: [] ∧ n.cls = 1 ∧ n.typ = 1 ∧ n.payload.length = 5 ∧ (e.chan 1).state = 2 ∧ (e.chan 1).credits ≠ 0 ∧
      e.readAnswer (bit (n.payload.headD 0) 4) (n.payload.getD 4 0) (leNat ((n.payload.drop 1).take 2)) (n.payload.getD 3 0) = .inl 0x06020000) := by
  decide +kernel

theorem witness_BarrierBellsAndLanes :
    (soundB (ecat 1 id) = true ∧
    binding? 6 = some ({ sender := 0, spairs := 0, recvr := 2, rpairs := 4, slots := 8, maxPay := 64, prio := 0 } : Binding) ∧
    ({ sender := 0, spairs := 0, recvr := 2, rpairs := 4, slots := 8, maxPay := 64, prio := 0 } : Binding).sendsBy 0 4 = true ∧
    ((ecat 1 id).chan 6).state = 2 ∧ 1 &&& 0xFFFF00F0 = 0) ∧
    (binding? 0 = some ({ sender := 0, spairs := 0, recvr := 2, rpairs := 4, slots := 16, maxPay := 1024, prio := 1 } : Binding) ∧
    ({ sender := 0, spairs := 0, recvr := 2, rpairs := 4, slots := 16, maxPay := 1024, prio := 1 } : Binding).sendsBy 4 3 = false ∨ ((ecat 1 id).chan 0).state = 2 ∧
    256 &&& 0xFFFF00F0 ≠ 0) ∧
    (binding? 1 = some ({ sender := 2, spairs := 4, recvr := 0, rpairs := 0, slots := 16, maxPay := 1024, prio := 1 } : Binding) ∧
    ({ sender := 2, spairs := 4, recvr := 0, rpairs := 0, slots := 16, maxPay := 1024, prio := 1 } : Binding).takenBy 0 0 = true) ∧
    (binding? 10 = some ({ sender := 2, spairs := 8, recvr := 0, rpairs := 0, slots := 32, maxPay := 260, prio := 1 } : Binding) ∧
    ({ sender := 2, spairs := 8, recvr := 0, rpairs := 0, slots := 32, maxPay := 260, prio := 1 } : Binding).takenBy 4 4 = false) ∧
    (soundB (armed []) = true ∧ (if true then (armed []).barrier.p2s else (armed []).barrier.s2p).getD 1 false = true ∧
    ((armed []).markLane true 1 false).barrierUp = true) ∧
    (soundB oneLane = true ∧ (if false then oneLane.barrier.p2s else oneLane.barrier.s2p).getD 0 false = true ∧
    oneLane.sessionOpen = false ∧ ((oneLane.markLane false 0 false).bumpEvent 0x5A00 6 7 lvWarn []).barrierUp = false ∧
    ((oneLane.markLane false 0 false).bumpEvent 0x5A00 6 7 lvWarn []).stationLost.sessionOpen = false) ∧
    ((armed []).stationUp = true ∧ (armed []).boot.plantHeld = false ∧ (armed []).barrier.exchanged = true) ∧
    ((armed []).barrierUp = true) := by decide +kernel

theorem witness_SyncTiming_1 :
    (soundB (pole 2 7 id) = true ∧ (pole 2 7 id).ticking = true ∧ (pole 2 7 id).rd 0x2010 5 = 0) ∧
    (soundB (armed []) = true ∧ (armed []).ticking = true ∧ (armed []).rd 0x2010 5 ≠ 0 ∧
    (armed []).edgeValid (131071 : Int) 201 (-2001 : Int) = false) ∧
    ((armed []).ticking = true ∧ (armed []).rd 0x2010 5 ≠ 0 ∧ (armed []).edgeValid (-1 : Int) 50 (0 : Int) = true ∧ 50 ≤ 200 ∧
    (armed []).syncState = 0) ∧
    (soundB (sync 2 3) = true ∧ (sync 2 3).ticking = true ∧ (sync 2 3).rd 0x2010 5 ≠ 0 ∧ (sync 2 3).timer.expecting = true ∧
    (sync 2 3).syncState = 2 ∧ 3 ≤ (sync 2 3).timer.missRun) ∧
    (soundB (sync 2 2) = true ∧ (sync 2 2).ticking = true ∧ (sync 2 2).rd 0x2010 5 ≠ 0 ∧ (sync 2 2).timer.expecting = true ∧
    (sync 2 2).syncState = 2 ∧ (sync 2 2).timer.missRun < 3) ∧
    ((sync 2 2).ticking = true ∧ (sync 2 2).syncState = 2 ∧ 25 ≤ (sync 2 2).rdI 0x2010 8 ∧
    (sync 2 2).timer.steps < (sync 2 2).engCycles / 50) ∧
    (soundB (put { sync 2 3 with timer := { (sync 2 3).timer with owed := 5, nearRun := 1000, stepSum := -50, stepTicks := 10 } } [(0x2010, 7, 3)]) = true ∧
    (put { sync 2 3 with timer := { (sync 2 3).timer with owed := 5, nearRun := 1000, stepSum := -50, stepTicks := 10 } } [(0x2010, 7, 3)]).ticking = true ∧
    (put { sync 2 3 with timer := { (sync 2 3).timer with owed := 5, nearRun := 1000, stepSum := -50, stepTicks := 10 } } [(0x2010, 7, 3)]).syncState = 3 ∧
    1 ≤ (put { sync 2 3 with timer := { (sync 2 3).timer with owed := 5, nearRun := 1000, stepSum := -50, stepTicks := 10 } } [(0x2010, 7, 3)]).timer.owed ∧
    (put { sync 2 3 with timer := { (sync 2 3).timer with owed := 5, nearRun := 1000, stepSum := -50, stepTicks := 10 } } [(0x2010, 7, 3)]).timer.steps < (put { sync 2 3 with timer := { (sync 2 3).timer with owed := 5, nearRun := 1000, stepSum := -50, stepTicks := 10 } } [(0x2010, 7, 3)]).engCycles / 50) ∧
    (soundB ({ run with timer := { run.timer with steps := 4000 } }) = true ∧
    ({ run with timer := { run.timer with steps := 4000 } }).engCycles / 50 ≤ ({ run with timer := { run.timer with steps := 4000 } }).timer.steps) := by decide +kernel

theorem witness_SyncTiming_2 :
    ((sync 2 2).rd 0x2010 7 = 2 ∧ 1000 ≤ (sync 2 2).timer.nearRun) := by decide +kernel

theorem witness_TickPeriod :
    (soundB (armed []) = true ∧ (armed []).mailbox = true ∧ (armed []).judgeAs true 0x2010 3 1 1 = none ∧ (armed []).periodFails 1 = 0) ∧
    (soundB (put run [(0x2010, 4, 1024)]) = true ∧ (put run [(0x2010, 4, 1024)]).mailbox = true ∧
    (put run [(0x2010, 4, 1024)]).judgeAs true 0x2010 3 1 2 = none ∧ (put run [(0x2010, 4, 1024)]).periodFails 2 ≠ 0) ∧
    (soundB (put run [(0x2010, 1, 1024), (0x2010, 4, 1024)]) = true ∧ (put run [(0x2010, 1, 1024), (0x2010, 4, 1024)]).rd 0x2010 4 ≠ 0 ∧
    (put run [(0x2010, 1, 1024), (0x2010, 4, 1024)]).rd 0x2010 4 ≤ (put run [(0x2010, 1, 1024), (0x2010, 4, 1024)]).tick ∧
    (put run [(0x2010, 1, 1024), (0x2010, 4, 1024)]).ticking = true) ∧
    ((put run [(0x2010, 4, 1024)]).tick < (put run [(0x2010, 4, 1024)]).rd 0x2010 4) := by decide +kernel

theorem witness_Conversions :
    (soundB (put run [(chIdx 31, 1, 0)]) = true ∧ (put run [(chIdx 31, 1, 0)]).boot.plantHeld = false ∧
    (put run [(chIdx 31, 1, 0)]).rd (chIdx 31) 1 = 0) ∧
    (soundB (armed []) = true ∧ (armed []).boot.plantHeld = false ∧ 12 ≤ 31 ∧ (armed []).rd (chIdx 31) 1 ≠ 0 ∧
    (armed []).rd (chIdx 31) 0x16 = 0 ∧ (armed []).overlapOf 31 = none) := by decide +kernel

theorem witness_ReferenceAndOverlap_1 :
    (soundB (fitUnit 0) = true ∧ (fitUnit 0).front.warmPs < warmUpPs) ∧
    (soundB ({ refBuf 1 with front := { (refBuf 1).front with warmPs := 20000000000 } }) = true ∧
    ({ refBuf 1 with front := { (refBuf 1).front with warmPs := 20000000000 } }).rd 0x5600 1 = 1 ∧
    warmUpPs ≤ ({ refBuf 1 with front := { (refBuf 1).front with warmPs := 20000000000 } }).front.warmPs ∧ refWithin 1048576000 = true) ∧
    (({ refBuf 1 with front := { (refBuf 1).front with warmPs := 20000000000 } }).rd 0x5600 1 = 1 ∧
    warmUpPs ≤ ({ refBuf 1 with front := { (refBuf 1).front with warmPs := 20000000000 } }).front.warmPs ∧ refWithin 1056964608 = false) ∧
    ((fitUnit 0).rd 0x5600 1 = 2 ∧ refWithin 1056964608 = false) ∧
    (soundB (refBuf 3) = true ∧ (refBuf 3).rd 0x5600 1 = 3 ∧ refWithin 0 = true) ∧
    (soundB (refBuf 0) = true ∧ (refBuf 0).mailbox = true ∧ (refBuf 0).judge 0x5600 0x41 1 1 = none ∧ (refBuf 0).rd 0x5600 0x40 ≠ 1 ∧
    1 = 1 ∧ ((refBuf 0).done.accept 0x5600 0x41 1).rd 0x5600 1 = 0) ∧
    (({ refBuf 1 with front := { (refBuf 1).front with warmPs := 20000000000 } }).mailbox = true ∧
    ({ refBuf 1 with front := { (refBuf 1).front with warmPs := 20000000000 } }).judge 0x5600 0x41 1 0 = none ∧
    ({ refBuf 1 with front := { (refBuf 1).front with warmPs := 20000000000 } }).rd 0x5600 0x40 ≠ 1 ∧ 0 = 0 ∧
    (({ refBuf 1 with front := { (refBuf 1).front with warmPs := 20000000000 } }).done.accept 0x5600 0x41 0).rd 0x5600 1 ≠ 0) ∧
    ((fitUnit 0).mailbox = true ∧ (fitUnit 0).judge 0x5600 0x41 1 1 = none ∧ (fitUnit 0).rd 0x5600 0x40 = 1) := by decide +kernel

theorem witness_ReferenceAndOverlap_2 :
    (soundB (armed []) = true ∧ (armed []).mailbox = true ∧ (armed []).judge (chIdx 4) 0x49 1 1 = none) ∧
    (soundB ({ run with front := { run.front with overlaps := [⟨11, 5, 0, 0, 0, 0, false⟩] } }) = true ∧
    ({ run with front := { run.front with overlaps := [⟨11, 5, 0, 0, 0, 0, false⟩] } }).front.overlaps = [({ ch := 11, n := 5, sum1 := 0, n1 := 0, sum16 := 0, n16 := 0, clip := false } : Overlap)] ∧
    ({ ch := 11, n := 5, sum1 := 0, n1 := 0, sum16 := 0, n16 := 0, clip := false } : Overlap).n < 4096) ∧
    (soundB ({ run with front := { run.front with overlaps := [⟨11, 4096, 0, 2048, 0, 2048, true⟩] } }) = true ∧
    ({ run with front := { run.front with overlaps := [⟨11, 4096, 0, 2048, 0, 2048, true⟩] } }).front.overlaps = [({ ch := 11, n := 4096, sum1 := 0, n1 := 2048, sum16 := 0, n16 := 2048, clip := true } : Overlap)] ∧
    4096 ≤ ({ ch := 11, n := 4096, sum1 := 0, n1 := 2048, sum16 := 0, n16 := 2048, clip := true } : Overlap).n ∧
    ({ ch := 11, n := 4096, sum1 := 0, n1 := 2048, sum16 := 0, n16 := 2048, clip := true } : Overlap).ch = 11 ∧
    ({ ch := 11, n := 4096, sum1 := 0, n1 := 2048, sum16 := 0, n16 := 2048, clip := true } : Overlap).clip = true) := by decide +kernel

theorem witness_MeterTiming :
    (soundB (metered 80000) = true ∧ (metered 80000).boot.plantHeld = false ∧ ((metered 80000).win 1).opened ≠ none ∧
    (metered 80000).rd (0x6001 + 1) 0x0A = 0 ∧
    2000 * (metered 80000).rd 0x6000 6 ≤ ((metered 80000).win 1).since + 2 * (metered 80000).period ∧
    ((metered 80000).crossings 1).accepted = ((metered 80000).win 1).accepted) ∧
    (((metered 80000).win 0).since + 2 * (metered 80000).period < 2000 * (metered 80000).rd 0x6000 6) ∧
    ((metered 80000).boot.plantHeld = false ∧ (metered 80000).meter.started = true ∧
    1000 * (metered 80000).rd 0x6000 4 ≤ (metered 80000).meter.sinceSave) ∧
    (soundB (armed []) = true ∧ (armed []).meter.sinceSave < 1000 * (armed []).rd 0x6000 4) ∧
    (soundB (pulsing false) = true ∧ (pulsing false).boot.plantHeld = false ∧ (pulsing false).rd (0x6060 + 7) 6 ≠ 0 ∧
    ((pulsing false).pulse 7).on = false ∧
    1000000 ≤ ((((pulsing false).pulse 7).age + (pulsing false).period : Nat) : Rat) * (pulsing false).rdF (0x6060 + 7) 4) ∧
    ((armed []).rd (0x6060 + 7) 6 = 0) ∧
    (soundB (pulsing true) = true ∧ ((pulsing true).pulse 7).on = true ∧
    (pulsing true).rd (0x6060 + 7) 5 ≤ ((pulsing true).pulse 7).age + (pulsing true).period) := by decide +kernel

theorem witness_CorePowerLatching_1 :
    (soundB (reg 0 id) = true ∧ (reg 0 id).power.retention = true ∧ (reg 0 id).power.supply = true ∧ (reg 0 id).power.saving = false ∧
    (reg 0 id).regState = 0 ∧ (reg 0 id).power.cause = 0 ∧ (reg 0 id).rd 0x5800 4 = 0 ∧
    (reg 0 id).rd 0x5800 0x4B ≤ (phasesOf (63 % 64)).length) ∧
    (soundB (reg 0 fun p => { p with cause := 1 }) = true ∧ (reg 0 fun p => { p with cause := 1 }).power.retention = true ∧
    (reg 0 fun p => { p with cause := 1 }).power.supply = true ∧ (reg 0 fun p => { p with cause := 1 }).power.saving = false ∧
    (reg 0 fun p => { p with cause := 1 }).regState = 0 ∧ (reg 0 fun p => { p with cause := 1 }).power.cause ≠ 0) ∧
    (soundB (armed []) = true ∧ (armed []).regState ≠ 0) ∧
    ((armed []).regState ≠ 2) ∧
    (soundB (reg 2 id) = true ∧ (reg 2 id).regState = 2 ∧ (reg 2 id).power.attempt < 4) ∧
    (soundB (reg 2 fun p => { p with attempt := 4 }) = true ∧ (reg 2 fun p => { p with attempt := 4 }).regState = 2 ∧
    4 ≤ (reg 2 fun p => { p with attempt := 4 }).power.attempt) ∧
    (soundB (reg 4 id) = true ∧ (reg 4 id).regState = 4) ∧
    (soundB ({ reg 3 id with boot := { (reg 3 id).boot with plantHeld := true } }) = true ∧
    ({ reg 3 id with boot := { (reg 3 id).boot with plantHeld := true } }).regState = 3 ∧
    3 &&& bothSwitches ({ reg 3 id with boot := { (reg 3 id).boot with plantHeld := true } }).activePhases = 3 ∧ 3 ≠ 0) := by decide +kernel

theorem witness_CorePowerLatching_2 :
    (({ reg 3 id with boot := { (reg 3 id).boot with plantHeld := true } }).regState = 3 ∧
    1 &&& bothSwitches ({ reg 3 id with boot := { (reg 3 id).boot with plantHeld := true } }).activePhases = 1 ∧ 1 ≠ 0) ∧
    ((Nat.lor 3 1) &&& bothSwitches (armed []).activePhases = 0) ∧
    (({ reg 3 id with boot := { (reg 3 id).boot with plantHeld := true } }).regState = 3 ∧ (5 = 4 ∨ 5 = 5) ∧
    ({ reg 3 id with boot := { (reg 3 id).boot with plantHeld := true } }).boot.plantHeld = true) ∧
    ((armed []).regState = 3 ∧ (5 = 4 ∨ 5 = 5) ∧ (armed []).boot.plantHeld = false ∧ (armed []).boot.pairsHalted = false) ∧
    (soundB (reg 5 fun p => { p with tripped := 4 }) = true ∧ (reg 5 fun p => { p with tripped := 4 }).regState = 5) ∧
    ((armed []).regState ≠ 5) := by decide +kernel

theorem witness_CorePowerSwitching_1 :
    (soundB (armed []) = true ∧ (armed []).switching = true ∧ bit (armed []).power.locked 0 = false) ∧
    ((armed []).switching = true ∧ bit (armed []).power.locked 6 = false) ∧
    ((armed []).regState = 3 ∧ (armed []).power.braking = false) ∧
    (soundB (reg 2 id) = true ∧ (reg 2 id).regState = 2) ∧
    (soundB (reg 3 fun p => { p with shed := some ⟨5, some 1, 0, 1250⟩ }) = true ∧
    (reg 3 fun p => { p with shed := some ⟨5, some 1, 0, 1250⟩ }).power.shed = some (⟨5, some 1, 0, 1250⟩ : Shed)) ∧
    ((armed []).power.shed = none) ∧
    ((reg 2 id).switching = true ∧ (reg 2 id).power.braking = false ∧ bit ((reg 2 id).rd 0x5800 3) 1 = true) ∧
    (soundB (reg 3 fun p => { p with braking := true }) = true ∧ (reg 3 fun p => { p with braking := true }).power.braking = true) := by decide +kernel

theorem witness_CorePowerSwitching_2 :
    (soundB (put (reg 3 fun p => { p with lowPs := 10 ^ 15, iavg := 100 }) [(0x5800, 6, 0x3F400000)]) = true ∧
    (put (reg 3 fun p => { p with lowPs := 10 ^ 15, iavg := 100 }) [(0x5800, 6, 0x3F400000)]).regState = 3 ∧
    (put (reg 3 fun p => { p with lowPs := 10 ^ 15, iavg := 100 }) [(0x5800, 6, 0x3F400000)]).power.shed = none ∧
    (put (reg 3 fun p => { p with lowPs := 10 ^ 15, iavg := 100 }) [(0x5800, 6, 0x3F400000)]).rd 0x5800 0x4B < (put (reg 3 fun p => { p with lowPs := 10 ^ 15, iavg := 100 }) [(0x5800, 6, 0x3F400000)]).activePhases.length ∧
    ((put (reg 3 fun p => { p with lowPs := 10 ^ 15, iavg := 100 }) [(0x5800, 6, 0x3F400000)]).power.iavg : Rat) / 1000 < (((put (reg 3 fun p => { p with lowPs := 10 ^ 15, iavg := 100 }) [(0x5800, 6, 0x3F400000)]).activePhases.length - 1 : Nat) : Rat) * (put (reg 3 fun p => { p with lowPs := 10 ^ 15, iavg := 100 }) [(0x5800, 6, 0x3F400000)]).rdF 0x5800 0x49 ∧
    1000000 * (put (reg 3 fun p => { p with lowPs := 10 ^ 15, iavg := 100 }) [(0x5800, 6, 0x3F400000)]).rd 0x5800 0x4A ≤ (put (reg 3 fun p => { p with lowPs := 10 ^ 15, iavg := 100 }) [(0x5800, 6, 0x3F400000)]).power.lowPs ∧
    (put (reg 3 fun p => { p with lowPs := 10 ^ 15, iavg := 100 }) [(0x5800, 6, 0x3F400000)]).loadStep = false ∧
    (put (reg 3 fun p => { p with lowPs := 10 ^ 15, iavg := 100 }) [(0x5800, 6, 0x3F400000)]).activePhases.getLast? = some 5) ∧
    ((armed []).rd 0x5800 0x42 ≠ 0) ∧
    ((armed []).activePhases.length ≤ (armed []).rd 0x5800 0x4B) ∧
    ((armed []).mailbox = true ∧ (armed []).judge 0x5800 0x1B 1 1 = none ∧
    (armed []).activePhases.length < (armed []).rd 0x5800 0x4B + 1) ∧
    ((put (reg 3 fun p => { p with lowPs := 10 ^ 15, iavg := 100 }) [(0x5800, 6, 0x3F400000)]).mailbox = true ∧
    (put (reg 3 fun p => { p with lowPs := 10 ^ 15, iavg := 100 }) [(0x5800, 6, 0x3F400000)]).judge 0x5800 0x1B 1 3 = none ∧
    (put (reg 3 fun p => { p with lowPs := 10 ^ 15, iavg := 100 }) [(0x5800, 6, 0x3F400000)]).rd 0x5800 0x4B + 1 ≤ (put (reg 3 fun p => { p with lowPs := 10 ^ 15, iavg := 100 }) [(0x5800, 6, 0x3F400000)]).activePhases.length ∧
    ((put (reg 3 fun p => { p with lowPs := 10 ^ 15, iavg := 100 }) [(0x5800, 6, 0x3F400000)]).power.iavg : Rat) / 1000 ≤ (((put (reg 3 fun p => { p with lowPs := 10 ^ 15, iavg := 100 }) [(0x5800, 6, 0x3F400000)]).activePhases.length - 1 : Nat) : Rat) * (put (reg 3 fun p => { p with lowPs := 10 ^ 15, iavg := 100 }) [(0x5800, 6, 0x3F400000)]).rdF 0x5800 0x48) := by decide +kernel

theorem witness_SupplyAndStore_1 :
    (soundB (armed []) = true ∧ (armed []).power.retention = true ∧ (armed []).power.supply = true ∧ (armed []).power.measuring = false ∧
    ((armed []).power.measured = false ∨ ((armed []).rd 0x5900 1 = 2 ∧ 3600 * (armed []).rd 0x5900 0x42 ≤ (armed []).rd 0x5900 5))) ∧
    (soundB (put (stored id) [(0x5900, 1, 0)]) = true ∧ (put (stored id) [(0x5900, 1, 0)]).power.measured = true ∧
    (put (stored id) [(0x5900, 1, 0)]).rd 0x5900 1 ≠ 2) ∧
    ((armed []).mailbox = true ∧ (armed []).judge 0x5900 0x0E 1 1 = none ∧ (armed []).power.measuring = false) ∧
    (soundB (stored fun p => { p with measuring := true }) = true ∧
    (stored fun p => { p with measuring := true }).power.measuring = true ∧
    (stored fun p => { p with measuring := true }).power.retention = true ∧ 1082130432 < 2 ^ 32 ∧ 0 < 2 ^ 32 ∧
    (stored fun p => { p with measuring := true }).rdF 0x5900 0x40 ≤ f32Val 1082130432 ∧ f32Val 1082130432 ≤ 52 / 10 ∧
    f32Val 0 ≤ (stored fun p => { p with measuring := true }).rdF 0x5900 0x41) ∧
    ((armed []).power.retention = true ∧ (armed []).power.supply = true ∧ (armed []).power.charger = true ∧
    (armed []).power.measuring = false ∧ ((armed []).rd 0x5900 1 = 0 ∨ (armed []).rd 0x5900 1 = 3)) ∧
    ((armed []).power.retention = true) ∧
    (soundB (stored fun p => { p with retention := false }) = true ∧
    (stored fun p => { p with retention := false }).power.retention = false) ∧
    ((armed []).power.supply = true) := by decide +kernel

theorem witness_SupplyAndStore_2 :
    (soundB (stored fun p => { p with saving := true, returned := true }) = true ∧
    (stored fun p => { p with saving := true, returned := true }).power.saving = true ∧
    (stored fun p => { p with saving := true, returned := true }).power.returned = true) ∧
    (soundB (stored fun p => { p with supply := false, saving := true }) = true ∧
    (stored fun p => { p with supply := false, saving := true }).power.supply = false ∧
    (stored fun p => { p with supply := false, saving := true }).power.saving = true) ∧
    (soundB (stored fun p => { p with supply := false }) = true ∧ (stored fun p => { p with supply := false }).power.supply = false ∧
    (stored fun p => { p with supply := false }).power.saving = false) := by decide +kernel

theorem witness_ResetReleases :
    (soundB Device.reset = true ∧ Device.reset.stationUp = false) ∧
    (soundB (armed []) = true ∧ (armed []).stationUp = true) ∧
    (Device.reset.boot.plantHeld = true ∧ Device.reset.regState = 3 ∧ Device.reset.power.retention = true) ∧
    (soundB (put Device.reset [(0x5800, 1, 4)]) = true ∧ (put Device.reset [(0x5800, 1, 4)]).regState ≠ 3) := by decide +kernel

theorem witness_StartUp_1 :
    (soundB (starting 2 0) = true ∧ (starting 2 0).boot.plantHeld = false ∧ (starting 2 0).boot.plState = 2 ∧
    (starting 2 0).plantReachable = true ∧ (starting 2 0).station.faulted = false ∧ bit ((starting 2 0).rd 0xA000 0x34) 9 = true ∧
    (starting 2 0).bootImage = (starting 2 0).boot.stImage) ∧
    (soundB (armed []) = true ∧ (armed []).boot.plState ≠ 2) ∧
    (soundB (starting 3 0) = true ∧ (starting 3 0).boot.plantHeld = false ∧ (starting 3 0).boot.plState = 3 ∧
    (starting 3 0).rd 0xA000 2 = 0xFF ∧ (starting 3 0).rd 0x5800 4 = 0 ∧
    ((starting 3 0).rd 0x5600 0x40 ≠ 1 ∨ (starting 3 0).rd 0x5600 1 = 2) ∧ (false && true) = false) ∧
    (soundB (starting 4 (10 ^ 9)) = true ∧ (starting 4 (10 ^ 9)).ticking = true ∧ (starting 4 (10 ^ 9)).boot.plState = 4 ∧
    (starting 4 (10 ^ 9)).linksUp = true) ∧
    (soundB (twin 0) = true ∧ (twin 0).linksUp = false) ∧
    ((starting 4 (10 ^ 9)).ticking = true ∧ (starting 4 (10 ^ 9)).boot.plState = 4 ∧
    (starting 4 (10 ^ 9)).rd 0x2000 2 + (starting 4 (10 ^ 9)).ticksOf (1000000 * (starting 4 (10 ^ 9)).rd 0xA000 0x14) ≤ (starting 4 (10 ^ 9)).tick) ∧
    ((armed []).tick < (armed []).rd 0x2000 2 + (armed []).ticksOf (1000000 * (armed []).rd 0xA000 0x14)) ∧
    ((starting 4 (10 ^ 9)).boot.plantHeld = false ∧ (starting 4 (10 ^ 9)).inTrial = true ∧
    (starting 4 (10 ^ 9)).ticksOf (1000000 * (starting 4 (10 ^ 9)).rd 0xA000 0x13) ≤ (starting 4 (10 ^ 9)).tick) := by decide +kernel

theorem witness_StartUp_2 :
    ((armed []).inTrial = false) := by decide +kernel

theorem witness_Resets_1 :
    (soundB (armed []) = true ∧ (armed []).stationUp = true) ∧
    ((armed []).mailbox = true ∧ (armed []).judge 0x2001 1 1 4 = none) ∧
    ((armed []).mailbox = true ∧ (armed []).judge 0x2001 1 1 3 = none ∧ (armed []).resetAllowed false = true) ∧
    (soundB (fitUnit 2) = true ∧ (fitUnit 2).mailbox = true ∧ (fitUnit 2).judge 0x2001 1 1 3 = none ∧
    (fitUnit 2).resetAllowed true = false) ∧
    ((armed []).mailbox = true ∧ (armed []).judge 0x2001 1 1 5 = none ∧ (armed []).resetAllowed false = true) ∧
    (soundB (toggling false) = true ∧ (toggling false).station.regEnDrv = true ∧ (toggling false).station.resetAfter = false) ∧
    (soundB (toggling true) = true ∧ (toggling true).station.regEnDrv = true ∧ (toggling true).station.resetAfter = true) ∧
    ((armed []).boot.plantClock = true ∧ (armed []).boot.pairsHalted = false) := by decide +kernel

theorem witness_Resets_2 :
    ((armed []).boot.stationClock = true) := by decide +kernel

theorem witness_FilesAndSlots_1 :
    (soundB (armed []) = true ∧ (armed []).station.al ≠ 1 ∧ 2 ≤ (armed []).level ∧ (armed []).slotState 3 ≠ 3 ∧
    (armed []).slotState 3 ≠ 4 ∧ (armed []).boot.act.pending = false) ∧
    ((armed []).station.al ≠ 1 ∧ (1 ≠ 0 ∨ (armed []).level < 2 ∨ (armed []).slotState 0 = 3 ∨ (armed []).slotState 0 = 4)) ∧
    (soundB (slot 0 fun b => { b with writing := some 7 }) = true ∧ (slot 0 fun b => { b with writing := some 7 }).boot.writing = some 7 ∧
    ([1] : List Nat).length ≤ 16777216) ∧
    (soundB (slot 0 fun b => { b with writing := some (8 + 1) }) = true ∧
    (slot 0 fun b => { b with writing := some (8 + 1) }).boot.writing = some (8 + 1)) ∧
    ((armed []).stationUp = true ∧ (armed []).station.al ≠ 1 ∧ 2 ≤ (armed []).level) ∧
    (4 = 2 ^ (2 + 0)) ∧
    (soundB (slot 1 id) = true ∧ (slot 1 id).mailbox = true ∧ (slot 1 id).judge 0xA000 7 1 1 = none ∧ (slot 1 id).rd 0xA000 8 = 7 ∧
    (slot 1 id).plantReachable = true ∧ (slot 1 id).boot.validating = none ∧ (slot 1 id).slotState 7 = 1) ∧
    ((armed []).mailbox = true ∧ (armed []).judge 0xA000 7 1 1 = none ∧ (armed []).rd 0xA000 8 = 0 ∧ (armed []).plantReachable = true ∧
    (armed []).boot.validating = none ∧ (armed []).slotState 0 ≠ 1) := by decide +kernel

theorem witness_FilesAndSlots_2 :
    (soundB (slot 1 fun b => { b with validating := some 7 }) = true ∧
    (slot 1 fun b => { b with validating := some 7 }).boot.validating = some 7 ∧
    (slot 1 fun b => { b with validating := some 7 }).slotState 7 = 1) ∧
    ((slot 1 id).mailbox = true ∧ (slot 1 id).judge 0xA000 7 1 4 = none ∧ (slot 1 id).rd 0xA000 8 = 7 ∧
    (slot 1 id).slotState 7 ∈ [1, 2, 5] ∧ (slot 1 id).boot.act.pending = false) ∧
    ((armed []).mailbox = true ∧ (armed []).judge 0xA000 7 1 4 = none ∧ (armed []).rd 0xA000 8 = 0 ∧ (armed []).slotState 0 ∉ [1, 2, 5]) := by decide +kernel

theorem witness_FilesAndSlots_firmware :
    let d := { sealed false with boot := { run.boot with writing := some (8 + 1) } }
    d.Sound ∧ d.boot.writing = some (8 + 1) ∧ d.sealedPart = false := by
  have h := sealed_sound false
  exact ⟨⟨h.wf, h.poles, h.arms, h.lanes, h.tasks, h.chans, h.convs⟩, rfl, sealed_part false⟩

theorem witness_ActivationCommands :
    (soundB (slot 2 id) = true ∧ (slot 2 id).mailbox = true ∧ (slot 2 id).holds = true ∧ (slot 2 id).judge 0xA000 7 1 2 = none ∧
    (slot 2 id).rd 0xA000 8 = 7 ∧ (slot 2 id).slotState 7 = 2 ∧ (slot 2 id).actBusy ((slot 2 id).slotKind 7) 7 = 0) ∧
    (soundB (acting 1 id) = true ∧ (acting 1 id).mailbox = true ∧ (acting 1 id).holds = true ∧ (acting 1 id).judge 0xA000 7 1 2 = none ∧
    (acting 1 id).rd 0xA000 8 = 0 ∧ (acting 1 id).slotState 0 ≠ 2) ∧
    (soundB (put (slot 2 id) [(0x2010, 4, 9)]) = true ∧ (put (slot 2 id) [(0x2010, 4, 9)]).mailbox = true ∧
    (put (slot 2 id) [(0x2010, 4, 9)]).holds = true ∧ (put (slot 2 id) [(0x2010, 4, 9)]).judge 0xA000 7 1 2 = none ∧
    (put (slot 2 id) [(0x2010, 4, 9)]).rd 0xA000 8 = 7 ∧ (put (slot 2 id) [(0x2010, 4, 9)]).slotState 7 = 2 ∧
    (put (slot 2 id) [(0x2010, 4, 9)]).actBusy ((put (slot 2 id) [(0x2010, 4, 9)]).slotKind 7) 7 ≠ 0) ∧
    (soundB (put (slot 4 id) [(0xA000, 5, 7)]) = true ∧ (put (slot 4 id) [(0xA000, 5, 7)]).mailbox = true ∧
    (put (slot 4 id) [(0xA000, 5, 7)]).holds = true ∧ (put (slot 4 id) [(0xA000, 5, 7)]).judge 0xA000 7 1 3 = none ∧
    (put (slot 4 id) [(0xA000, 5, 7)]).rd 0xA000 5 = 7 ∧ (put (slot 4 id) [(0xA000, 5, 7)]).slotState 7 = 4 ∧
    (put (slot 4 id) [(0xA000, 5, 7)]).actBusy ((put (slot 4 id) [(0xA000, 5, 7)]).slotKind 7) 7 = 0) ∧
    (soundB (slot 4 fun b => { b with images := [⟨true, 0, 0, 0, true⟩, ⟨true, 0, 0, 0, true⟩] }) = true ∧
    (slot 4 fun b => { b with images := [⟨true, 0, 0, 0, true⟩, ⟨true, 0, 0, 0, true⟩] }).mailbox = true ∧
    (slot 4 fun b => { b with images := [⟨true, 0, 0, 0, true⟩, ⟨true, 0, 0, 0, true⟩] }).holds = true ∧
    (slot 4 fun b => { b with images := [⟨true, 0, 0, 0, true⟩, ⟨true, 0, 0, 0, true⟩] }).judge 0xA000 7 1 6 = none ∧
    ((slot 4 fun b => { b with images := [⟨true, 0, 0, 0, true⟩, ⟨true, 0, 0, 0, true⟩] }).fwImage (1 - (slot 4 fun b => { b with images := [⟨true, 0, 0, 0, true⟩, ⟨true, 0, 0, 0, true⟩] }).rd 0xA000 0x15)).present = true ∧
    (slot 4 fun b => { b with images := [⟨true, 0, 0, 0, true⟩, ⟨true, 0, 0, 0, true⟩] }).actBusy 2 (1 - (slot 4 fun b => { b with images := [⟨true, 0, 0, 0, true⟩, ⟨true, 0, 0, 0, true⟩] }).rd 0xA000 0x15) = 0) ∧
    (soundB (put (acting 1 id) [(0x2010, 1, 0)]) = true ∧ (put (acting 1 id) [(0x2010, 1, 0)]).mailbox = true ∧
    (put (acting 1 id) [(0x2010, 1, 0)]).holds = true ∧ (put (acting 1 id) [(0x2010, 1, 0)]).judge 0xA000 7 1 5 = none ∧
    (put (acting 1 id) [(0x2010, 1, 0)]).boot.act.pending = true ∧ (put (acting 1 id) [(0x2010, 1, 0)]).boot.act.holder = true ∧
    (put (acting 1 id) [(0x2010, 1, 0)]).tick + 128 < (put (acting 1 id) [(0x2010, 1, 0)]).rd 0xA000 0x0C) ∧
    ((acting 1 id).mailbox = true ∧ (acting 1 id).holds = true ∧ (acting 1 id).judge 0xA000 7 1 5 = none ∧
    (acting 1 id).boot.act.pending = true ∧ (acting 1 id).boot.act.holder = true ∧
    (acting 1 id).rd 0xA000 0x0C ≤ (acting 1 id).tick + 128) := by decide +kernel

theorem witness_Activation_1 :
    (soundB (twinSlot 2) = true ∧ (twinSlot 2).twinProfile = true ∧ (twinSlot 2).unit = 2 ∧ (twinSlot 2).findSlot [2, 4] 5 6 = some 7 ∧
    (twinSlot 2).actBusy 0 7 = 0) ∧
    (soundB (fitUnit 0) = true ∧ (fitUnit 0).twinProfile = true ∧ (fitUnit 0).unit ≠ 2) ∧
    (soundB (acting 1 fun a => { a with peer := true }) = true ∧ (acting 1 fun a => { a with peer := true }).boot.act.pending = true ∧
    (acting 1 fun a => { a with peer := true }).boot.act.peer = true ∧
    (acting 1 fun a => { a with peer := true }).boot.act.holder = true ∧
    (acting 1 fun a => { a with peer := true }).boot.act.peerReady = false) ∧
    ((acting 1 fun a => { a with peer := true }).boot.act.pending = true ∧
    (acting 1 fun a => { a with peer := true }).boot.act.peer = true ∧
    (acting 1 fun a => { a with peer := true }).boot.act.peerDone = false ∧
    (acting 1 fun a => { a with peer := true }).rd 0xA000 0x0C ≤ (acting 1 fun a => { a with peer := true }).tick + 32) ∧
    (soundB (acting 2 id) = true ∧ (acting 2 id).boot.act.pending = true ∧ (acting 2 id).boot.act.abandon = false ∧
    (acting 2 id).rd 0xA000 0x0B = 2 ∧ (acting 2 id).rd 0xA000 0x0C ≤ (acting 2 id).tick + 128 ∧ (acting 2 id).boot.act.peer = false ∧
    (acting 2 id).boot.commits = [] ∧ (acting 2 id).boot.commitSeq < 2 ^ 32) ∧
    ((fitUnit 0).boot.act.pending = false) ∧
    (soundB (acting 3 fun a => { a with myCommit := some 1 }) = true ∧ (acting 3 fun a => { a with myCommit := some 1 }).ticking = true ∧
    (acting 3 fun a => { a with myCommit := some 1 }).switchReady = true ∧
    (acting 3 fun a => { a with myCommit := some 1 }).rd 0xA000 0x0D = 0) ∧
    (soundB (put (acting 3 fun a => { a with myCommit := some 1 }) [(0xA000, 0x0D, 1)]) = true ∧
    (put (acting 3 fun a => { a with myCommit := some 1 }) [(0xA000, 0x0D, 1)]).ticking = true ∧
    (put (acting 3 fun a => { a with myCommit := some 1 }) [(0xA000, 0x0D, 1)]).switchReady = true ∧
    (put (acting 3 fun a => { a with myCommit := some 1 }) [(0xA000, 0x0D, 1)]).rd 0xA000 0x0D = 1) := by decide +kernel

theorem witness_Activation_2 :
    (soundB (put (acting 3 fun a => { a with myCommit := some 1 }) [(0xA000, 0x0D, 2)]) = true ∧
    (put (acting 3 fun a => { a with myCommit := some 1 }) [(0xA000, 0x0D, 2)]).ticking = true ∧
    (put (acting 3 fun a => { a with myCommit := some 1 }) [(0xA000, 0x0D, 2)]).switchReady = true ∧
    (put (acting 3 fun a => { a with myCommit := some 1 }) [(0xA000, 0x0D, 2)]).rd 0xA000 0x0D = 2) ∧
    (soundB (armed []) = true ∧ (armed []).switchReady = false) ∧
    (soundB (put { twinSlot 2 with boot := { (twinSlot 2).boot with mismatchTicks := 1000 } } [(0x2020, 9, 3), (0x8011, 1, domainOf 64 (5 * 2 ^ 352 + 6 * 2 ^ 320))]) = true ∧
    (put { twinSlot 2 with boot := { (twinSlot 2).boot with mismatchTicks := 1000 } } [(0x2020, 9, 3), (0x8011, 1, domainOf 64 (5 * 2 ^ 352 + 6 * 2 ^ 320))]).findSlot (if (put { twinSlot 2 with boot := { (twinSlot 2).boot with mismatchTicks := 1000 } } [(0x2020, 9, 3), (0x8011, 1, domainOf 64 (5 * 2 ^ 352 + 6 * 2 ^ 320))]).rd 0xA000 2 = 0xFF then [2, 3, 4] else [2, 4]) (field (put { twinSlot 2 with boot := { (twinSlot 2).boot with mismatchTicks := 1000 } } [(0x2020, 9, 3), (0x8011, 1, domainOf 64 (5 * 2 ^ 352 + 6 * 2 ^ 320))]).peerBody 352 32) (field (put { twinSlot 2 with boot := { (twinSlot 2).boot with mismatchTicks := 1000 } } [(0x2020, 9, 3), (0x8011, 1, domainOf 64 (5 * 2 ^ 352 + 6 * 2 ^ 320))]).peerBody 320 32) = some 7 ∧
    (put { twinSlot 2 with boot := { (twinSlot 2).boot with mismatchTicks := 1000 } } [(0x2020, 9, 3), (0x8011, 1, domainOf 64 (5 * 2 ^ 352 + 6 * 2 ^ 320))]).twinProfile = true ∧
    (put { twinSlot 2 with boot := { (twinSlot 2).boot with mismatchTicks := 1000 } } [(0x2020, 9, 3), (0x8011, 1, domainOf 64 (5 * 2 ^ 352 + 6 * 2 ^ 320))]).unit ≠ 3 ∧
    1000 ≤ (put { twinSlot 2 with boot := { (twinSlot 2).boot with mismatchTicks := 1000 } } [(0x2020, 9, 3), (0x8011, 1, domainOf 64 (5 * 2 ^ 352 + 6 * 2 ^ 320))]).boot.mismatchTicks ∧
    (put { twinSlot 2 with boot := { (twinSlot 2).boot with mismatchTicks := 1000 } } [(0x2020, 9, 3), (0x8011, 1, domainOf 64 (5 * 2 ^ 352 + 6 * 2 ^ 320))]).rd 0x2020 9 = 3 ∧
    (put { twinSlot 2 with boot := { (twinSlot 2).boot with mismatchTicks := 1000 } } [(0x2020, 9, 3), (0x8011, 1, domainOf 64 (5 * 2 ^ 352 + 6 * 2 ^ 320))]).rd 0xA000 0x35 ≠ 0 ∧
    (put { twinSlot 2 with boot := { (twinSlot 2).boot with mismatchTicks := 1000 } } [(0x2020, 9, 3), (0x8011, 1, domainOf 64 (5 * 2 ^ 352 + 6 * 2 ^ 320))]).boot.act.pending = false ∧
    5 ≤ (put { twinSlot 2 with boot := { (twinSlot 2).boot with mismatchTicks := 1000 } } [(0x2020, 9, 3), (0x8011, 1, domainOf 64 (5 * 2 ^ 352 + 6 * 2 ^ 320))]).boot.plState) ∧
    ((armed []).boot.mismatchTicks < 1000) := by decide +kernel

theorem witness_Activation_load :
    let d := { acting 1 id with boot := { (acting 1 id).boot with slots := [⟨emptyImage, true⟩] } }
    soundB d = true ∧ d.boot.act.pending = true ∧ d.boot.act.abandon = false ∧ d.rd 0xA000 0x0B = 1 ∧ d.rd 0xA000 0x0C ≤ d.tick + 256 ∧
    (d.chan 1).state = 2 ∧ (d.chan 5).state = 2 ∧ d.boot.act.fwTarget = false ∧ (d.slotVerdict d.boot.act.slot true true).reason = 0 := by
  refine ⟨by decide +kernel, rfl, rfl, by decide +kernel, by decide +kernel, rfl, rfl, rfl, ?_⟩
  unfold Device.slotVerdict Device.verdict Device.headVerdict
  generalize Device.sealedPart _ = b
  cases b <;> decide +kernel

theorem witness_AccessLevels :
    (soundB (armed []) = true ∧ (armed []).mailbox = true ∧
    (armed []).judge 0x2002 2 ([3, 97, 98, 99, 100, 101, 102, 103, 104] : List Nat).length (leNat ([3, 97, 98, 99, 100, 101, 102, 103, 104] : List Nat)) = none ∧
    1 ≤ ([3, 97, 98, 99, 100, 101, 102, 103, 104] : List Nat).headD 0 ∧
    ([3, 97, 98, 99, 100, 101, 102, 103, 104] : List Nat).headD 0 ≤ 3 ∧
    printable (([3, 97, 98, 99, 100, 101, 102, 103, 104] : List Nat).drop 1) = true ∧
    8 ≤ (([3, 97, 98, 99, 100, 101, 102, 103, 104] : List Nat).drop 1).length ∧ (armed []).station.loginLock.locked = false ∧
    (armed []).credentialOpens (([3, 97, 98, 99, 100, 101, 102, 103, 104] : List Nat).headD 0) (([3, 97, 98, 99, 100, 101, 102, 103, 104] : List Nat).drop 1) = false) ∧
    (soundB locked = true ∧ locked.mailbox = true ∧ locked.judge 0x2002 2 ([] : List Nat).length (leNat ([] : List Nat)) = none ∧
    locked.station.loginLock.locked = true) ∧
    ((armed []).mailbox = true ∧ (armed []).judge 0x2002 3 1 1 = none) ∧
    ((armed []).mailbox = true ∧
    (armed []).judge 0x2002 0x0A ([3, 97, 98, 99, 100, 101, 102, 103, 104] : List Nat).length (leNat ([3, 97, 98, 99, 100, 101, 102, 103, 104] : List Nat)) = none ∧
    1 ≤ ([3, 97, 98, 99, 100, 101, 102, 103, 104] : List Nat).headD 0 ∧
    ([3, 97, 98, 99, 100, 101, 102, 103, 104] : List Nat).headD 0 ≤ 3 ∧
    printable (([3, 97, 98, 99, 100, 101, 102, 103, 104] : List Nat).drop 1) = true ∧
    8 ≤ (([3, 97, 98, 99, 100, 101, 102, 103, 104] : List Nat).drop 1).length) ∧
    ((armed []).stationUp = true) ∧
    (locked.station.loginLock.locked = true ∧ locked.rd 0x2002 0x0B = 0) := by decide +kernel

theorem witness_AccessLevels_login :
    let d := { run with station := { run.station with creds := [none, none, none, some (run.newSecret (secret.drop 1)).1] } }
    soundB d = true ∧ d.mailbox = true ∧ d.judge 0x2002 2 secret.length (leNat secret) = none ∧ 1 ≤ secret.headD 0 ∧ secret.headD 0 ≤ 3 ∧
    printable (secret.drop 1) = true ∧ 8 ≤ (secret.drop 1).length ∧ d.station.loginLock.locked = false ∧
    d.credentialOpens (secret.headD 0) (secret.drop 1) = true := by
  refine ⟨by decide +kernel, by decide +kernel, by decide +kernel, by decide, by decide, by decide +kernel, by decide, rfl, ?_⟩
  simp [Device.credentialOpens, Device.newSecret, Credential.opens, secret]

theorem witness_EtherCatStates :
    (soundB (armed []) = true ∧ (armed []).stationUp = true ∧ (armed []).station.al ≠ 3) ∧
    (soundB (ecat 1 id) = true ∧ (ecat 1 id).stationUp = true ∧ (ecat 1 id).station.al = 1) ∧
    ((armed []).stationUp = true ∧ (armed []).station.al = 2 ∧ (armed []).safeopCode true 50000 = 0) ∧
    (soundB (ecat 4 id) = true ∧ (ecat 4 id).stationUp = true ∧ (ecat 4 id).station.al = 4) ∧
    (soundB (ecat 8 id) = true ∧ (ecat 8 id).stationUp = true ∧ (ecat 8 id).station.al = 8) ∧
    ((armed []).stationUp = true ∧ (armed []).station.al ≠ 8) := by decide +kernel

theorem witness_ProcessDataAndEmergency_1 :
    (soundB (ecat 4 id) = true ∧ (ecat 4 id).stationUp = true ∧ (ecat 4 id).dcMode = true ∧ (ecat 4 id).station.al = 4) ∧
    (soundB (dcOn (ecat 8 fun x => { x with windowCnt := 255 })) = true ∧
    (dcOn (ecat 8 fun x => { x with windowCnt := 255 })).stationUp = true ∧
    (dcOn (ecat 8 fun x => { x with windowCnt := 255 })).dcMode = true ∧
    (dcOn (ecat 8 fun x => { x with windowCnt := 255 })).station.al = 8 ∧ 2000 < (131071 : Int).natAbs ∧
    (dcOn (ecat 8 fun x => { x with windowCnt := 255 })).rd 0x10F1 2 ≤ (dcOn (ecat 8 fun x => { x with windowCnt := 255 })).station.windowCnt + 1) ∧
    ((dcOn (ecat 8 fun x => { x with windowCnt := 255 })).stationUp = true ∧
    (dcOn (ecat 8 fun x => { x with windowCnt := 255 })).dcMode = true ∧
    (dcOn (ecat 8 fun x => { x with windowCnt := 255 })).station.al = 8 ∧ (-1 : Int).natAbs ≤ 2000 ∧
    (dcOn (ecat 8 fun x => { x with windowCnt := 255 })).station.sm2Fresh = false) ∧
    ((ecat 4 id).stationUp = true ∧ (ecat 4 id).station.al = 4 ∧
    ([0, 0, 0, 0, 0, 0, 0, 0, 0, 0, 0, 0, 0, 0, 0, 0, 0, 0, 0, 0, 0, 0, 0, 0, 0, 0, 0, 0, 0, 0, 0, 0] : List Nat).length = (ecat 4 id).pdoBytes false) ∧
    ((ecat 4 id).stationUp = true ∧
    ([71, 70, 67, 75, 1, 0, 3, 0, 1, 0, 0, 0, 0, 0, 0, 0, 0, 0, 0, 0, 0, 0, 0, 0, 0, 0, 0, 0, 0, 0, 0, 0, 0, 0, 0, 0, 0, 0, 0, 0, 0, 0, 0, 0, 0, 0, 0, 0, 0, 0, 0, 0, 0, 0, 0, 0, 0, 0, 0, 0, 0, 0, 0, 0, 0, 0, 0, 0, 0, 0, 0, 0, 0, 0, 0, 0, 0, 0, 0, 0, 0, 0, 0, 0, 0, 0, 0, 0, 0, 0, 0, 0, 0, 0, 0, 0, 0, 0, 0, 0, 0, 0, 0, 0, 0, 0, 0, 0, 0, 0, 0, 0, 0, 0, 0, 0, 0, 0, 0, 0, 0, 0, 0, 0, 0, 0, 0, 0, 0, 0, 0, 0, 0, 0, 0, 0, 0, 0, 0, 0, 0, 0, 0, 0, 0, 0, 0, 0, 0, 0, 0, 0, 0, 0, 0, 0, 0, 0, 0, 0, 0, 0, 0, 0, 0, 0, 0, 0, 0, 0, 0, 0, 0, 0, 0, 0, 0, 0, 0, 0, 0, 0, 0, 0, 0, 0, 0, 0, 0, 0, 0, 0, 0, 0, 0, 0, 0, 0, 0, 0, 0, 0, 0, 0, 0, 0, 0, 0, 0, 0, 0, 0, 0, 0, 0, 0, 0, 0, 0, 0, 0, 0, 0, 0, 0, 0, 0, 0, 0, 0, 0, 0, 0, 0, 0, 0, 0, 0, 0, 0, 0, 0, 0, 0, 0, 0, 0, 0, 0, 0, 0, 0, 0, 0, 0, 0] : List Nat).length ≠ (ecat 4 id).pdoBytes false) ∧
    (soundB (put (ecat 4 id) [(0x1C33, 1, 0)]) = true ∧ (put (ecat 4 id) [(0x1C33, 1, 0)]).stationUp = true ∧
    (put (ecat 4 id) [(0x1C33, 1, 0)]).station.al = 4 ∧ (put (ecat 4 id) [(0x1C33, 1, 0)]).rd 0x1C33 1 = 0 ∧
    (put (ecat 4 id) [(0x1C33, 1, 0)]).station.image = none) ∧
    (soundB (ecat 8 fun x => { x with emcy := [⟨0xFF55, 7, 2⟩] }) = true ∧
    (ecat 8 fun x => { x with emcy := [⟨0xFF55, 7, 2⟩] }).mailbox = true ∧
    (ecat 8 fun x => { x with emcy := [⟨0xFF55, 7, 2⟩] }).station.emcy = ({ errcode := 65365, event := 7, rseq := 2 } : Emcy) :: ([] : List Emcy)) ∧
    (soundB (armed []) = true ∧ (armed []).mailbox = true ∧ (armed []).station.emcy = []) := by decide +kernel

theorem witness_ProcessDataAndEmergency_2 :
    ((armed []).mailbox = true ∧ (armed []).judge 0x2001 1 1 2 = none) := by decide +kernel

theorem witness_SdoWriting :
    (soundB (fitUnit 0) = true ∧ (fitUnit 0).mailbox = true ∧ forcePart 36880 65 = false ∧
    (lengthFits 36880 65 4 = false ∨ ownWrite 36880 65 4 2 = none) ∧ (fitUnit 0).judge 36880 65 4 2 = some 100728834) ∧
    ((fitUnit 0).mailbox = true ∧ forcePart 16643 3 = true) ∧
    (soundB (ecat 1 id) = true ∧ (ecat 1 id).mailbox = false ∧ (lengthFits 28697 1 1 = false ∨ ownWrite 28697 1 1 6 = none)) ∧
    ((fitUnit 0).mailbox = true ∧ stationServed 20745 = false) ∧
    (stationServed 7219 = true) ∧
    (soundB (armed []) = true ∧ (armed []).mailbox = true ∧ forcePart 24577 6 = false ∧
    (lengthFits 24577 6 4 = false ∨ ownWrite 24577 6 4 1 = none) ∧ (armed []).judge 24577 6 4 1 = none ∧
    isSafetyKey (odKey 24577 6) = false ∧ 24577 ≠ 0x3004 ∧ 24577 ≠ 0x3804 ∧ heldEntry 24577 6 = false ∧
    (odEntry? (odKey 24577 6)).all (fun x => x.1.acc != .rws) = true ∧ stationServed 24577 = false ∧ (armed []).timer.running = true) ∧
    (soundB still = true ∧ still.mailbox = true ∧ forcePart 14341 3 = false ∧
    (lengthFits 14341 3 4 = false ∨ ownWrite 14341 3 4 3 = none) ∧ still.judge 14341 3 4 3 = none ∧ isSafetyKey (odKey 14341 3) = false ∧
    14341 ≠ 0x3004 ∧ 14341 ≠ 0x3804 ∧ heldEntry 14341 3 = false ∧ (odEntry? (odKey 14341 3)).all (fun x => x.1.acc != .rws) = true ∧
    stationServed 14341 = false ∧ still.timer.running = false) ∧
    (soundB session = true ∧ session.mailbox = true ∧ forcePart 28704 7 = false ∧
    (lengthFits 28704 7 2 = false ∨ ownWrite 28704 7 2 1 = none) ∧ session.judge 28704 7 2 1 = none ∧
    isSafetyKey (odKey 28704 7) = true) := by decide +kernel

theorem witness_CounterClears :
    (soundB (armed []) = true ∧ (armed []).mailbox = true ∧ isClear 32769 15 = true ∧ 32769 ≠ 0x5A00 ∧
    (armed []).judge 32769 15 (match odEntry? (odKey 32769 15) with | some (e, _) => e.ty.bytes | none => 0) 1 = none ∧
    stationServed 32769 = false ∧ (armed []).timer.running = true) ∧
    ((armed []).mailbox = true ∧ isClear 8240 9 = true ∧ 8240 ≠ 0x5A00 ∧
    (armed []).judge 8240 9 (match odEntry? (odKey 8240 9) with | some (e, _) => e.ty.bytes | none => 0) 1 = none ∧
    (stationServed 8240 = true ∨ (armed []).timer.running = false) ∧
    ({ base := 8240, entry := 9, mask := 1, ctr := 3, sticky := 4 } : ClearRow) ∈ clearRowsFor 8240 9 ∧
    1 &&& ({ base := 8240, entry := 9, mask := 1, ctr := 3, sticky := 4 } : ClearRow).mask ≠ 0) ∧
    (soundB run = true ∧ run.mailbox = true ∧ isClear 0x2010 0x0A = false) ∧
    (run.mailbox = true ∧ run.judge 0x9000 2 1 1 = none ∧ isCleared 0x2010 0x0A = true ∧ clearAllSkips 0x2010 = false) ∧
    ((armed []).mailbox = true ∧ (armed []).judge 0x9000 2 1 1 = none ∧ isCleared 7 1 = false ∧ 7 ≠ 0x5520 ∧ 7 ≠ 0x5521 ∧
    odKey 7 1 ∉ [odKey 0x9000 1, odKey 0x5A00 3]) := by decide +kernel

theorem witness_SafetySession_1 :
    (soundB (phased 1 [logged]) = true ∧ (phased 1 [logged]).mailbox = true ∧ (phased 1 [logged]).judge 0x7001 2 1 1 = none ∧
    (phased 1 [logged]).rd 0x7001 4 = 1) ∧
    (soundB (put run [(0x7001, 4, 1), (0x2010, 1, 10 ^ 9)]) = true ∧ (put run [(0x7001, 4, 1), (0x2010, 1, 10 ^ 9)]).rd 0x7001 4 = 1 ∧
    (put run [(0x7001, 4, 1), (0x2010, 1, 10 ^ 9)]).session.usedAt + (put run [(0x7001, 4, 1), (0x2010, 1, 10 ^ 9)]).ticksOf (1000000 * (put run [(0x7001, 4, 1), (0x2010, 1, 10 ^ 9)]).rd 0x7001 6) ≤ (put run [(0x7001, 4, 1), (0x2010, 1, 10 ^ 9)]).tick) ∧
    (soundB (put run [(0x7001, 4, 2), (0x2010, 1, 10 ^ 9)]) = true ∧ (put run [(0x7001, 4, 2), (0x2010, 1, 10 ^ 9)]).rd 0x7001 4 = 2 ∧
    (put run [(0x7001, 4, 2), (0x2010, 1, 10 ^ 9)]).lockoutLeft = 0) ∧
    ((phased 1 [logged]).mailbox = true ∧
    (phased 1 [logged]).judge 0x7001 3 ([97, 98, 99, 100, 101, 102, 103, 104, 105, 106, 107, 108] : List Nat).length (leNat ([97, 98, 99, 100, 101, 102, 103, 104, 105, 106, 107, 108] : List Nat)) = none ∧
    12 ≤ ([97, 98, 99, 100, 101, 102, 103, 104, 105, 106, 107, 108] : List Nat).length ∧
    printable ([97, 98, 99, 100, 101, 102, 103, 104, 105, 106, 107, 108] : List Nat) = true) ∧
    ((phased 1 [logged]).mailbox = true ∧ (phased 1 [logged]).judge 0x7002 3 4 3 = none ∧
    ((phased 1 [logged]).session.log.any fun x => x.seq == 3) = true) ∧
    (soundB session = true ∧ session.mailbox = true ∧ session.judge 0x7001 7 1 1 = none ∧ session.commitBusy = false ∧
    session.session.log.length < 4096 ∧ (session.wrAll session.session.pendingSet).safetyBad = false) ∧
    (soundB (put (phased 1 []) [(0x3000, 1, 4)]) = true ∧ (put (phased 1 []) [(0x3000, 1, 4)]).mailbox = true ∧
    (put (phased 1 []) [(0x3000, 1, 4)]).judge 0x7001 7 1 1 = none ∧ (put (phased 1 []) [(0x3000, 1, 4)]).commitBusy = true) ∧
    (soundB ({ phased 1 [] with session := { (phased 1 []).session with pendingSet := [(odKey 0x7010 3, 0)] } }) = true ∧
    ({ phased 1 [] with session := { (phased 1 []).session with pendingSet := [(odKey 0x7010 3, 0)] } }).mailbox = true ∧
    ({ phased 1 [] with session := { (phased 1 []).session with pendingSet := [(odKey 0x7010 3, 0)] } }).judge 0x7001 7 1 1 = none ∧
    ({ phased 1 [] with session := { (phased 1 []).session with pendingSet := [(odKey 0x7010 3, 0)] } }).commitBusy = false ∧
    ({ phased 1 [] with session := { (phased 1 []).session with pendingSet := [(odKey 0x7010 3, 0)] } }).session.log.length < 4096 ∧
    (({ phased 1 [] with session := { (phased 1 []).session with pendingSet := [(odKey 0x7010 3, 0)] } }).wrAll ({ phased 1 [] with session := { (phased 1 []).session with pendingSet := [(odKey 0x7010 3, 0)] } }).session.pendingSet).safetyBad = true) := by decide +kernel

theorem witness_SafetySession_2 :
    (session.mailbox = true ∧ session.judge 0x7001 7 1 2 = none) := by decide +kernel

theorem witness_SafetySession_open :
    let d := { phased 0 [] with session := { (phased 0 []).session with pass := some (run.newSecret phrase).1 } }
    soundB d = true ∧ d.mailbox = true ∧ d.judge 0x7001 1 phrase.length (leNat phrase) = none ∧ d.rd 0x7001 4 = 0 ∧
    d.session.pass = some (run.newSecret phrase).1 ∧ (run.newSecret phrase).1.opens phrase = true := by
  refine ⟨by decide +kernel, by decide +kernel, by decide +kernel, by decide +kernel, rfl, ?_⟩
  simp [Device.newSecret, Credential.opens, phrase]

theorem witness_SafetySession_refused :
    let c : Credential := ⟨5, 2 ^ 256, false⟩
    let d := { phased 0 [] with session := { (phased 0 []).session with pass := some c } }
    soundB d = true ∧ d.mailbox = true ∧ d.judge 0x7001 1 phrase.length (leNat phrase) = none ∧ d.rd 0x7001 4 = 0 ∧
    d.session.pass = some c ∧ c.opens phrase = false := by
  refine ⟨by decide +kernel, by decide +kernel, by decide +kernel, by decide +kernel, rfl, ?_⟩
  simp only [Credential.opens, beq_eq_false_iff_ne]
  omega

theorem witness_LockStepAndDebug :
    (soundB (armed []) = true ∧ (armed []).boot.plantHeld = false ∧ (armed []).boot.pairsHalted = false ∧ 3 ≤ 3 ∧ 1 ≤ 2 ∧ 2 ≤ 3 ∧
    (armed []).rd 0x9010 1 ≠ 1) ∧
    (soundB (put run [(0x9010, 1, 1)]) = true ∧ (put run [(0x9010, 1, 1)]).boot.plantHeld = false ∧
    (put run [(0x9010, 1, 1)]).boot.pairsHalted = false ∧ 2 ≤ 3 ∧ 1 ≤ 2 ∧ 2 ≤ 3 ∧ (put run [(0x9010, 1, 1)]).rd 0x9010 1 = 1) ∧
    (soundB (fitUnit 4) = true ∧ (fitUnit 4).mailbox = true ∧ (fitUnit 4).judge 0x9010 0x40 1 1 = none ∧ (fitUnit 4).twinProfile = true ∧
    (fitUnit 4).unit = 4) ∧
    (soundB (fitUnit 0) = true ∧ (fitUnit 0).mailbox = true ∧ (fitUnit 0).judge 0x9010 0x40 1 1 = none ∧ (fitUnit 0).twinProfile = true ∧
    (fitUnit 0).unit ≠ 4) ∧
    ((fitUnit 0).mailbox = true ∧ (fitUnit 0).judge 0x9010 0x40 1 0 = none) ∧
    (soundB (put run [(0x9010, 0x40, 1)]) = true ∧ (put run [(0x9010, 0x40, 1)]).boot.plantHeld = false ∧
    (put run [(0x9010, 0x40, 1)]).boot.pairsHalted = false ∧ (put run [(0x9010, 0x40, 1)]).rd 0x9010 0x40 ≠ 0 ∧ 3 ≤ 3) ∧
    ((fitUnit 0).rd 0x9010 0x40 = 0) := by decide +kernel

theorem witness_TasksAndTickTier_1 :
    (soundB (task 1 ⟨true, some 7, [], 5⟩) = true ∧ (task 1 ⟨true, some 7, [], 5⟩).mailbox = true ∧
    (task 1 ⟨true, some 7, [], 5⟩).judge (0x9030 + 7) 0x10 1 1 = none ∧ (task 1 ⟨true, some 7, [], 5⟩).taskState 7 = 1) ∧
    (soundB (armed []) = true ∧ (armed []).mailbox = true ∧ (armed []).judge (0x9030 + 7) 0x10 1 1 = none ∧ (armed []).taskState 7 ≠ 1) ∧
    (soundB (task 2 ⟨false, none, [], 0⟩) = true ∧ (task 2 ⟨false, none, [], 0⟩).mailbox = true ∧
    (task 2 ⟨false, none, [], 0⟩).judge (0x9030 + 7) 0x10 1 2 = none ∧ (task 2 ⟨false, none, [], 0⟩).taskState 7 = 2) ∧
    ((task 2 ⟨false, none, [], 0⟩).mailbox = true ∧ (task 2 ⟨false, none, [], 0⟩).judge (0x9030 + 7) 0x10 1 3 = none ∧
    ((task 2 ⟨false, none, [], 0⟩).taskState 7 = 2 ∨ (task 2 ⟨false, none, [], 0⟩).taskState 7 = 3)) ∧
    ((task 1 ⟨true, some 7, [], 5⟩).slot3 = ⟨true, some 7, [], 5⟩ ∧ (task 1 ⟨true, some 7, [], 5⟩).rd (0x9030 + 7) 6 ≤ 5) ∧
    (soundB (task 3 ⟨true, none, [7], 300⟩) = true ∧ (task 3 ⟨true, none, [7], 300⟩).slot3 = ⟨true, none, [7], 300⟩) ∧
    ((armed []).ticking = true ∧ (armed []).boot.pairsHalted = false ∧ (armed []).slot3.opened = false ∧
    (armed []).timer.committed = false ∧ bit ((armed []).rd 0x9010 0x43) 3 = false ∧ 641 ≤ (armed []).slotCycles) ∧
    ((armed []).ticking = true ∧ (armed []).boot.pairsHalted = false ∧ (armed []).slot3.opened = false ∧
    (armed []).timer.committed = false ∧ bit ((armed []).rd 0x9010 0x43) 3 = false ∧ (armed []).slotCycles < 1000000) := by decide +kernel

theorem witness_TasksAndTickTier_2 :
    (soundB (put run [(0x9010, 0x43, 8)]) = true ∧ (put run [(0x9010, 0x43, 8)]).ticking = true ∧
    (put run [(0x9010, 0x43, 8)]).boot.pairsHalted = false ∧ (put run [(0x9010, 0x43, 8)]).slot3.opened = false ∧
    (put run [(0x9010, 0x43, 8)]).timer.committed = false ∧ bit ((put run [(0x9010, 0x43, 8)]).rd 0x9010 0x43) 3 = true) := by decide +kernel

theorem witness_TimeMemoryLife_1 :
    (soundB (timed 1 true) = true ∧ (timed 1 true).stationUp = true ∧ 1 ≠ 0 ∧ (timed 1 true).rd 0x9000 3 = 1 ∧
    (timed 1 true).time.accepted = true) ∧
    (soundB (armed []) = true ∧ (armed []).stationUp = true ∧ 1 ≠ 0 ∧ (armed []).rd 0x9000 3 = 1 ∧
    ((armed []).time.accepted = false ∨ 1000 ≤ 10) ∧ (1 ≠ 1 ∨ (armed []).time.lastSec + 1 = (armed []).sourceSecond 1 1)) ∧
    ((armed []).rd 0x9000 3 ≠ 3) ∧
    ((armed []).boot.plantHeld = false ∧ 3 + 1000 ≤ 5000) ∧
    (soundB (put run [(0x9000, 4, 1)]) = true ∧ (put run [(0x9000, 4, 1)]).rd 0x9000 4 = 1) ∧
    ((armed []).rd 0x9000 4 ≠ 1) ∧
    (soundB ({ run with boot := { run.boot with plantHeld := true } }) = true ∧
    ({ run with boot := { run.boot with plantHeld := true } }).stationUp = true ∧
    ({ run with boot := { run.boot with plantHeld := true } }).boot.plantHeld = true ∧ 8 ≠ 0) ∧
    ((armed []).stationUp = true ∧ 0 < (armed []).recorder.length) := by decide +kernel

theorem witness_TimeMemoryLife_2 :
    ((armed []).boot.plantHeld = false ∧ (armed []).stationUp = true) := by decide +kernel

theorem witness_RecorderSlots :
    (soundB (rec1 1 1) = true ∧ (rec1 1 1).rd 0xB000 2 = 1 ∧
    (rec1 1 1).recorder = [({ state := 1, age := 0, trigTick := 5, trigSrc := 0, utc := 0, subsec := 0, flags := 0, armTick := 0, retrig := [], ticks := [{ tick := 1000000000, vals := [] }], snaps := [], cfgVer := 0, cfgCrc := 0, gaps := 0 } : RecSlot)] ∧
    (rec1 1 1).stationUp = true ∧ 3 &&& (rec1 1 1).rd 0xB000 5 ≠ 0 ∧
    ({ state := 1, age := 0, trigTick := 5, trigSrc := 0, utc := 0, subsec := 0, flags := 0, armTick := 0, retrig := [], ticks := [{ tick := 1000000000, vals := [] }], snaps := [], cfgVer := 0, cfgCrc := 0, gaps := 0 } : RecSlot).state = 1) ∧
    (soundB (rec1 2 1) = true ∧ (rec1 2 1).rd 0xB000 2 = 1 ∧
    (rec1 2 1).recorder = [({ state := 2, age := 0, trigTick := 5, trigSrc := 0, utc := 0, subsec := 0, flags := 0, armTick := 0, retrig := [], ticks := [{ tick := 1000000000, vals := [] }], snaps := [], cfgVer := 0, cfgCrc := 0, gaps := 0 } : RecSlot)] ∧
    (rec1 2 1).stationUp = true ∧ 3 &&& (rec1 2 1).rd 0xB000 5 ≠ 0 ∧
    ({ state := 2, age := 0, trigTick := 5, trigSrc := 0, utc := 0, subsec := 0, flags := 0, armTick := 0, retrig := [], ticks := [{ tick := 1000000000, vals := [] }], snaps := [], cfgVer := 0, cfgCrc := 0, gaps := 0 } : RecSlot).state = 2 ∧
    ({ state := 2, age := 0, trigTick := 5, trigSrc := 0, utc := 0, subsec := 0, flags := 0, armTick := 0, retrig := [], ticks := [{ tick := 1000000000, vals := [] }], snaps := [], cfgVer := 0, cfgCrc := 0, gaps := 0 } : RecSlot).trigTick = 5) ∧
    ((rec1 2 1).rd 0xB000 2 = 1 ∧
    (rec1 2 1).recorder = [({ state := 2, age := 0, trigTick := 5, trigSrc := 0, utc := 0, subsec := 0, flags := 0, armTick := 0, retrig := [], ticks := [{ tick := 1000000000, vals := [] }], snaps := [], cfgVer := 0, cfgCrc := 0, gaps := 0 } : RecSlot)] ∧
    (rec1 2 1).stationUp = true ∧ 1 &&& (rec1 2 1).rd 0xB000 5 ≠ 0 ∧
    ({ state := 2, age := 0, trigTick := 5, trigSrc := 0, utc := 0, subsec := 0, flags := 0, armTick := 0, retrig := [], ticks := [{ tick := 1000000000, vals := [] }], snaps := [], cfgVer := 0, cfgCrc := 0, gaps := 0 } : RecSlot).state = 2 ∧
    ({ state := 2, age := 0, trigTick := 5, trigSrc := 0, utc := 0, subsec := 0, flags := 0, armTick := 0, retrig := [], ticks := [{ tick := 1000000000, vals := [] }], snaps := [], cfgVer := 0, cfgCrc := 0, gaps := 0 } : RecSlot).trigTick ≠ 6 ∧
    ({ state := 2, age := 0, trigTick := 5, trigSrc := 0, utc := 0, subsec := 0, flags := 0, armTick := 0, retrig := [], ticks := [{ tick := 1000000000, vals := [] }], snaps := [], cfgVer := 0, cfgCrc := 0, gaps := 0 } : RecSlot).retrig.length < 16) ∧
    (soundB (rec1 3 1) = true ∧ (rec1 3 1).rd 0xB000 2 = 1 ∧
    (rec1 3 1).recorder = [({ state := 3, age := 0, trigTick := 5, trigSrc := 0, utc := 0, subsec := 0, flags := 0, armTick := 0, retrig := [], ticks := [{ tick := 1000000000, vals := [] }], snaps := [], cfgVer := 0, cfgCrc := 0, gaps := 0 } : RecSlot)] ∧
    (rec1 3 1).stationUp = true ∧ 1 &&& (rec1 3 1).rd 0xB000 5 ≠ 0 ∧
    ({ state := 3, age := 0, trigTick := 5, trigSrc := 0, utc := 0, subsec := 0, flags := 0, armTick := 0, retrig := [], ticks := [{ tick := 1000000000, vals := [] }], snaps := [], cfgVer := 0, cfgCrc := 0, gaps := 0 } : RecSlot).state = 3) ∧
    ((rec1 2 1).rd 0xB000 2 = 1 ∧
    (rec1 2 1).recorder = [({ state := 2, age := 0, trigTick := 5, trigSrc := 0, utc := 0, subsec := 0, flags := 0, armTick := 0, retrig := [], ticks := [{ tick := 1000000000, vals := [] }], snaps := [], cfgVer := 0, cfgCrc := 0, gaps := 0 } : RecSlot)] ∧
    2 &&& (rec1 2 1).rd 0xB000 5 = 0) ∧
    ((rec1 2 1).rd 0xB000 2 = 1 ∧
    (rec1 2 1).recorder = [({ state := 2, age := 0, trigTick := 5, trigSrc := 0, utc := 0, subsec := 0, flags := 0, armTick := 0, retrig := [], ticks := [{ tick := 1000000000, vals := [] }], snaps := [], cfgVer := 0, cfgCrc := 0, gaps := 0 } : RecSlot)] ∧
    ({ state := 2, age := 0, trigTick := 5, trigSrc := 0, utc := 0, subsec := 0, flags := 0, armTick := 0, retrig := [], ticks := [{ tick := 1000000000, vals := [] }], snaps := [], cfgVer := 0, cfgCrc := 0, gaps := 0 } : RecSlot).state = 2 ∧
    (rec1 2 1).recorded ({ state := 2, age := 0, trigTick := 5, trigSrc := 0, utc := 0, subsec := 0, flags := 0, armTick := 0, retrig := [], ticks := [{ tick := 1000000000, vals := [] }], snaps := [], cfgVer := 0, cfgCrc := 0, gaps := 0 } : RecSlot) = true ∧
    (rec1 2 1).rd 0xB000 7 = 0) ∧
    ((rec1 1 1).rd 0xB000 2 = 1 ∧
    (rec1 1 1).recorder = [({ state := 1, age := 0, trigTick := 5, trigSrc := 0, utc := 0, subsec := 0, flags := 0, armTick := 0, retrig := [], ticks := [{ tick := 1000000000, vals := [] }], snaps := [], cfgVer := 0, cfgCrc := 0, gaps := 0 } : RecSlot)] ∧
    ({ state := 1, age := 0, trigTick := 5, trigSrc := 0, utc := 0, subsec := 0, flags := 0, armTick := 0, retrig := [], ticks := [{ tick := 1000000000, vals := [] }], snaps := [], cfgVer := 0, cfgCrc := 0, gaps := 0 } : RecSlot).state ≠ 2) ∧
    ((rec1 2 1).rd 0xB000 2 = 1 ∧
    (rec1 2 1).recorder = [({ state := 2, age := 0, trigTick := 5, trigSrc := 0, utc := 0, subsec := 0, flags := 0, armTick := 0, retrig := [], ticks := [{ tick := 1000000000, vals := [] }], snaps := [], cfgVer := 0, cfgCrc := 0, gaps := 0 } : RecSlot)] ∧
    (rec1 2 1).mailbox = true ∧ (rec1 2 1).judge 0xB000 8 1 1 = none ∧ (rec1 2 1).boot.plantHeld = false) := by decide +kernel

theorem witness_LeaseGrants :
    (soundB ({ twin 3 with lease := { Lease.reset with sent := [9] } }) = true ∧
    ({ twin 3 with lease := { Lease.reset with sent := [9] } }).twinProfile = true ∧
    ({ twin 3 with lease := { Lease.reset with sent := [9] } }).boot.safeState = false ∧
    ({ twin 3 with lease := { Lease.reset with sent := [9] } }).lease.sent.contains 9 = true ∧ 100 ≤ 100 ∧
    ({ twin 3 with lease := { Lease.reset with sent := [9] } }).unit = 3) ∧
    (soundB ({ twin 1 with lease := { Lease.reset with sent := [9] } }) = true ∧
    ({ twin 1 with lease := { Lease.reset with sent := [9] } }).twinProfile = true ∧
    ({ twin 1 with lease := { Lease.reset with sent := [9] } }).boot.safeState = false ∧
    ({ twin 1 with lease := { Lease.reset with sent := [9] } }).lease.sent.contains 9 = true ∧ 100 ≤ 100 ∧
    ({ twin 1 with lease := { Lease.reset with sent := [9] } }).unit = 1) ∧
    (({ twin 1 with lease := { Lease.reset with sent := [9] } }).twinProfile = true ∧
    ({ twin 1 with lease := { Lease.reset with sent := [9] } }).boot.safeState = false ∧
    (true = false ∨ ({ twin 1 with lease := { Lease.reset with sent := [9] } }).lease.sent.contains 9 = false ∨ 100 < 101)) := by decide +kernel

theorem witness_LeaseLife_1 :
    (soundB frameUnit = true ∧ frameUnit.twinProfile = true ∧ frameUnit.unit ≠ 2 ∧ frameUnit.unit ≠ 1) ∧
    (frameUnit.twinProfile = true ∧ frameUnit.lease.heard + frameUnit.ticksOf 300 ≤ frameUnit.tick) ∧
    (soundB (fitUnit 3) = true ∧ (fitUnit 3).twinProfile = true ∧ (fitUnit 3).boot.safeState = false ∧ (fitUnit 3).unit = 3 ∧
    (fitUnit 3).fit = true ∧ (fitUnit 3).lease.valid = true) ∧
    (soundB (twin 3) = true ∧ (twin 3).twinProfile = true ∧ (twin 3).boot.safeState = false ∧ (twin 3).unit = 3 ∧ (twin 3).fit = false) ∧
    (soundB (twin 4) = true ∧ (twin 4).twinProfile = true ∧ (twin 4).unit = 4) ∧
    ((twin 3).twinProfile = true ∧ (twin 3).lease.valid = true ∧ (twin 3).rd 0x8001 4 ≤ (twin 3).period) ∧
    (soundB ({ twin 3 with lease := { Lease.reset with noLease := 10 ^ 6 } }) = true ∧
    ({ twin 3 with lease := { Lease.reset with noLease := 10 ^ 6 } }).twinProfile = true ∧
    ({ twin 3 with lease := { Lease.reset with noLease := 10 ^ 6 } }).unit = 3 ∧
    ({ twin 3 with lease := { Lease.reset with noLease := 10 ^ 6 } }).lease.valid = false ∧
    ({ twin 3 with lease := { Lease.reset with noLease := 10 ^ 6 } }).lease.stalemate = false ∧
    ({ twin 3 with lease := { Lease.reset with noLease := 10 ^ 6 } }).epwin ≤ ({ twin 3 with lease := { Lease.reset with noLease := 10 ^ 6 } }).lease.noLease) ∧
    (soundB ({ fitUnit 0 with lease := { Lease.reset with noHolder := 10 ^ 9, noTick := 10 ^ 9, noticed := true } }) = true ∧
    ({ fitUnit 0 with lease := { Lease.reset with noHolder := 10 ^ 9, noTick := 10 ^ 9, noticed := true } }).twinProfile = true ∧
    ({ fitUnit 0 with lease := { Lease.reset with noHolder := 10 ^ 9, noTick := 10 ^ 9, noticed := true } }).coldOk = true) := by decide +kernel

theorem witness_LeaseLife_2 :
    ((twin 3).twinProfile = true ∧ (twin 3).coldOk = false) := by decide +kernel

theorem witness_RolporLink :
    (soundB (twin 0) = true ∧ (twin 0).twinProfile = true ∧ (twin 0).unit ≠ 4 ∧ (twin 0).boot.safeState = false ∧
    field ((twin 0).rd 0xA000 1) 1 6 = field 1 1 6 ∧ bit ((twin 0).rd 0xA000 1) 0 ≠ bit 1 0) ∧
    ((twin 0).twinProfile = true ∧ (twin 0).unit ≠ 4 ∧ (twin 0).boot.safeState = false ∧ bit ((twin 0).rd 0xA000 1) 0 = bit 2 0) ∧
    ((twin 0).twinProfile = true ∧ (twin 0).unit ≠ 1) ∧
    (soundB (twin 1) = true ∧ (twin 1).twinProfile = true ∧ (twin 1).unit = 1 ∧ (twin 1).twin.leaveSync = false) ∧
    (soundB (twin 3) = true ∧ (twin 3).twinProfile = true ∧ (twin 3).ticking = true ∧ (twin 3).unit = 3 ∧
    (twin 3).boot.safeState = false) ∧
    ((twin 0).twinProfile = true ∧ (twin 0).unit ≠ 3) ∧
    ((twin 0).twinProfile = true ∧ (twin 0).boot.safeState = false ∧ (twin 0).boot.plantHeld = false) := by decide +kernel

theorem witness_StandbyAndBridging_1 :
    (soundB (fitUnit 2) = true ∧ (fitUnit 2).twinProfile = true ∧ (fitUnit 2).twin.rxSeq = none ∧ (fitUnit 2).unit = 2 ∧
    2 ≤ (fitUnit 2).rd 0x8002 1 ∧ bit ((fitUnit 2).rd 0x2020 6) 1 = false ∧
    ({ tick := 0, lease := true, epoch := 0, snap := [], lmap := 0, ldig := 0, hash := 0 } : TickRec).tick = (fitUnit 2).tick ∧
    0 ≤ (0 : Int) ∧
    ({ tick := 0, lease := true, epoch := 0, snap := [], lmap := 0, ldig := 0, hash := 0 } : TickRec).hash = (fitUnit 2).twin.prevHash) ∧
    ((fitUnit 2).twinProfile = true ∧ (fitUnit 2).twin.rxSeq = none ∧ (fitUnit 2).unit = 2 ∧ 2 ≤ (fitUnit 2).rd 0x8002 1 ∧
    bit ((fitUnit 2).rd 0x2020 6) 1 = false ∧
    ({ tick := 0, lease := true, epoch := 0, snap := [], lmap := 0, ldig := 0, hash := 1 } : TickRec).tick = (fitUnit 2).tick ∧
    0 ≤ (0 : Int) ∧
    ({ tick := 0, lease := true, epoch := 0, snap := [], lmap := 0, ldig := 0, hash := 1 } : TickRec).hash ≠ (fitUnit 2).twin.prevHash) ∧
    ((fitUnit 2).twinProfile = true ∧ (fitUnit 2).twin.rxSeq = none ∧ (fitUnit 2).unit = 2 ∧ (fitUnit 2).tick < 5) ∧
    ((fitUnit 2).twinProfile = true ∧ (fitUnit 2).twin.rxSeq = none ∧ (fitUnit 2).unit = 2 ∧ 0 ≤ (fitUnit 2).tick) ∧
    (soundB (put (standby 0 0) [(0x8011, 2, 9)]) = true ∧ (put (standby 0 0) [(0x8011, 2, 9)]).twinProfile = true ∧
    (put (standby 0 0) [(0x8011, 2, 9)]).twin.rxSeq = none ∧ 8 < (put (standby 0 0) [(0x8011, 2, 9)]).rd 0x8011 2 ∧
    (put (standby 0 0) [(0x8011, 2, 9)]).boot.act.pending = false) ∧
    ((fitUnit 2).twinProfile = true ∧ (fitUnit 2).twin.rxSeq = none ∧ (fitUnit 2).rd 0x8011 2 ≤ 8) ∧
    (soundB (twin 2) = true ∧ (twin 2).twinProfile = true ∧ (twin 2).unit = 2 ∧ bit ((twin 2).rd 0x2020 6) 1 = false ∧
    (twin 2).twin.tickRec = none) ∧
    (soundB ({ standby 0 5 with twin := { (standby 0 5).twin with tickRec := some { tickRec0 with tick := 5 } } }) = true ∧
    ({ standby 0 5 with twin := { (standby 0 5).twin with tickRec := some { tickRec0 with tick := 5 } } }).twinProfile = true ∧
    ({ standby 0 5 with twin := { (standby 0 5).twin with tickRec := some { tickRec0 with tick := 5 } } }).twin.tickRec = some ({ tick := 5, lease := true, epoch := 0, snap := [], lmap := 0, ldig := 0, hash := 0 } : TickRec) ∧
    ({ tick := 5, lease := true, epoch := 0, snap := [], lmap := 0, ldig := 0, hash := 0 } : TickRec).tick = ({ standby 0 5 with twin := { (standby 0 5).twin with tickRec := some { tickRec0 with tick := 5 } } }).tick) := by decide +kernel

theorem witness_StandbyAndBridging_2 :
    (soundB (standby 1 1000) = true ∧ (standby 1 1000).twinProfile = true ∧ (standby 1 1000).unit = 2 ∧
    bit ((standby 1 1000).rd 0x2020 6) 1 = true ∧ (standby 1 1000).twin.bridgeFrom + (standby 1 1000).epwin ≤ (standby 1 1000).tick) ∧
    ((twin 2).twinProfile = true ∧ (twin 2).tick < (twin 2).twin.bridgeFrom + (twin 2).epwin) := by decide +kernel

theorem witness_TwinRoles_1 :
    (soundB (twinBy 3 (fun t => { t with goodPeer := 10 ^ 9 }) [peerIs 2]) = true ∧
    (twinBy 3 (fun t => { t with goodPeer := 10 ^ 9 }) [peerIs 2]).mailbox = true ∧
    (twinBy 3 (fun t => { t with goodPeer := 10 ^ 9 }) [peerIs 2]).twinProfile = true ∧
    (twinBy 3 (fun t => { t with goodPeer := 10 ^ 9 }) [peerIs 2]).judge 0x8000 1 1 1 = none ∧
    (twinBy 3 (fun t => { t with goodPeer := 10 ^ 9 }) [peerIs 2]).unit = 3 ∧
    (twinBy 3 (fun t => { t with goodPeer := 10 ^ 9 }) [peerIs 2]).lease.valid = true ∧
    (twinBy 3 (fun t => { t with goodPeer := 10 ^ 9 }) [peerIs 2]).twin.castle = 0 ∧
    (twinBy 3 (fun t => { t with goodPeer := 10 ^ 9 }) [peerIs 2]).castleFails = 0) ∧
    (soundB (twin 3) = true ∧ (twin 3).mailbox = true ∧ (twin 3).twinProfile = true ∧ (twin 3).judge 0x8000 1 1 1 = none ∧
    (twin 3).unit = 3 ∧ (twin 3).lease.valid = true ∧ (twin 3).twin.castle = 0 ∧ (twin 3).castleFails ≠ 0) ∧
    (soundB (twinBy 3 (fun t => { t with castle := 2 }) []) = true ∧ (twinBy 3 (fun t => { t with castle := 2 }) []).mailbox = true ∧
    (twinBy 3 (fun t => { t with castle := 2 }) []).twinProfile = true ∧
    (twinBy 3 (fun t => { t with castle := 2 }) []).judge 0x8000 1 1 1 = none ∧ (twinBy 3 (fun t => { t with castle := 2 }) []).unit = 3 ∧
    (twinBy 3 (fun t => { t with castle := 2 }) []).lease.valid = true ∧
    (twinBy 3 (fun t => { t with castle := 2 }) []).twin.castle ≠ 0) ∧
    (soundB (twin 2) = true ∧ (twin 2).mailbox = true ∧ (twin 2).twinProfile = true ∧ (twin 2).judge 0x8000 1 1 1 = none ∧
    (twin 2).unit = 2) ∧
    (soundB (twin 0) = true ∧ (twin 0).mailbox = true ∧ (twin 0).twinProfile = true ∧ (twin 0).judge 0x8000 1 1 2 = none ∧
    (twin 0).unit = 0 ∧ (twin 0).disputed = false) := by decide +kernel

theorem witness_TwinRoles_2 :
    ((twin 3).mailbox = true ∧ (twin 3).twinProfile = true ∧ (twin 3).judge 0x8000 1 1 2 = none ∧ (twin 3).unit = 3) ∧
    ((twin 0).mailbox = true ∧ (twin 0).twinProfile = true ∧ (twin 0).judge 0x8000 1 1 3 = none ∧ (twin 0).unit ≠ 3) ∧
    ((twin 3).mailbox = true ∧ (twin 3).twinProfile = true ∧ (twin 3).judge 0x8000 1 1 3 = none ∧ (twin 3).unit = 3) ∧
    (soundB (fitUnit 4) = true ∧ (fitUnit 4).mailbox = true ∧ (fitUnit 4).twinProfile = true ∧ (fitUnit 4).judge 0x8000 1 1 4 = none ∧
    (fitUnit 4).unit = 4 ∧ (fitUnit 4).boot.faultSince = false ∧ (fitUnit 4).fit = true ∧ 5 ≤ (fitUnit 4).boot.plState) ∧
    ((twinBy 3 (fun t => { t with castle := 2 }) []).mailbox = true ∧ (twinBy 3 (fun t => { t with castle := 2 }) []).twinProfile = true ∧
    (twinBy 3 (fun t => { t with castle := 2 }) []).judge 0x8000 1 1 5 = none ∧ (twinBy 3 (fun t => { t with castle := 2 }) []).unit = 3 ∧
    (twinBy 3 (fun t => { t with castle := 2 }) []).twin.castle ≠ 0 ∧
    (twinBy 3 (fun t => { t with castle := 2 }) []).twin.noRelease = false) := by decide +kernel

theorem witness_TwinRoles_3 :
    ((twin 3).mailbox = true ∧ (twin 3).twinProfile = true ∧ (twin 3).judge 0x8000 1 1 5 = none ∧ (twin 3).twin.castle = 0) ∧
    (soundB (twinBy 2 id [peerIs 3]) = true ∧ (twinBy 2 id [peerIs 3]).twinProfile = true ∧ (twinBy 2 id [peerIs 3]).unit = 2 ∧
    (twinBy 2 id [peerIs 3]).peerShows 3 0 = true ∧ (twinBy 2 id [peerIs 3]).selfTestBits % 4096 = 0xFFF ∧
    (twinBy 2 id [peerIs 3]).rd 0x8001 0x10 = 1 ∧ bit (twinBy 2 id [peerIs 3]).peerBody 427 = true ∧
    (twinBy 2 id [peerIs 3]).disputed = false) ∧
    (soundB (put (twinBy 3 (fun t => { t with castle := 1 }) [(0x8000, 3, 1024)]) [(0x2010, 1, 1024)]) = true ∧
    (put (twinBy 3 (fun t => { t with castle := 1 }) [(0x8000, 3, 1024)]) [(0x2010, 1, 1024)]).twinProfile = true ∧
    (put (twinBy 3 (fun t => { t with castle := 1 }) [(0x8000, 3, 1024)]) [(0x2010, 1, 1024)]).unit ≠ 2) ∧
    ((put (twinBy 3 (fun t => { t with castle := 1 }) [(0x8000, 3, 1024)]) [(0x2010, 1, 1024)]).twinProfile = true ∧
    (put (twinBy 3 (fun t => { t with castle := 1 }) [(0x8000, 3, 1024)]) [(0x2010, 1, 1024)]).unit = 3 ∧
    (put (twinBy 3 (fun t => { t with castle := 1 }) [(0x8000, 3, 1024)]) [(0x2010, 1, 1024)]).twin.castle = 1 ∧
    (put (twinBy 3 (fun t => { t with castle := 1 }) [(0x8000, 3, 1024)]) [(0x2010, 1, 1024)]).rd 0x8000 3 = 1024) ∧
    ((put (twinBy 3 (fun t => { t with castle := 1 }) [(0x8000, 3, 1024)]) [(0x2010, 1, 1024)]).twinProfile = true ∧
    (put (twinBy 3 (fun t => { t with castle := 1 }) [(0x8000, 3, 1024)]) [(0x2010, 1, 1024)]).twin.castle ≠ 0) := by decide +kernel

theorem witness_TwinRoles_4 :
    ((twinBy 2 id [peerIs 3]).twinProfile = true ∧ (twinBy 2 id [peerIs 3]).twin.castle = 0) ∧
    ((twinBy 3 (fun t => { t with castle := 2 }) []).twinProfile = true ∧
    (twinBy 3 (fun t => { t with castle := 2 }) []).twin.castle = 2 ∧
    (twinBy 3 (fun t => { t with castle := 2 }) []).rd 0x8000 3 ≤ (twinBy 3 (fun t => { t with castle := 2 }) []).tick ∧
    (twinBy 3 (fun t => { t with castle := 2 }) []).unit = 3 ∧ (twinBy 3 (fun t => { t with castle := 2 }) []).twin.noRelease = false) ∧
    (soundB (twinBy 2 (fun t => { t with castle := 2 }) [(0x8000, 3, 1024), (0x2010, 1, 1024)]) = true ∧
    (twinBy 2 (fun t => { t with castle := 2 }) [(0x8000, 3, 1024), (0x2010, 1, 1024)]).twinProfile = true ∧
    (twinBy 2 (fun t => { t with castle := 2 }) [(0x8000, 3, 1024), (0x2010, 1, 1024)]).twin.castle = 2 ∧
    (twinBy 2 (fun t => { t with castle := 2 }) [(0x8000, 3, 1024), (0x2010, 1, 1024)]).rd 0x8000 3 ≤ (twinBy 2 (fun t => { t with castle := 2 }) [(0x8000, 3, 1024), (0x2010, 1, 1024)]).tick ∧
    (twinBy 2 (fun t => { t with castle := 2 }) [(0x8000, 3, 1024), (0x2010, 1, 1024)]).unit = 2) ∧
    ((put (twinBy 3 (fun t => { t with castle := 1 }) [(0x8000, 3, 1024)]) [(0x2010, 1, 1024)]).twinProfile = true ∧
    (put (twinBy 3 (fun t => { t with castle := 1 }) [(0x8000, 3, 1024)]) [(0x2010, 1, 1024)]).twin.castle = 1 ∧
    (put (twinBy 3 (fun t => { t with castle := 1 }) [(0x8000, 3, 1024)]) [(0x2010, 1, 1024)]).rd 0x8000 3 ≤ (put (twinBy 3 (fun t => { t with castle := 1 }) [(0x8000, 3, 1024)]) [(0x2010, 1, 1024)]).tick) ∧
    (soundB (put { twinBy 3 (fun t => { t with castleWait := true }) [] with lease := Lease.reset } [(0x2010, 1, 10 ^ 9)]) = true ∧
    (put { twinBy 3 (fun t => { t with castleWait := true }) [] with lease := Lease.reset } [(0x2010, 1, 10 ^ 9)]).twinProfile = true ∧
    (put { twinBy 3 (fun t => { t with castleWait := true }) [] with lease := Lease.reset } [(0x2010, 1, 10 ^ 9)]).unit = 3 ∧
    (put { twinBy 3 (fun t => { t with castleWait := true }) [] with lease := Lease.reset } [(0x2010, 1, 10 ^ 9)]).twin.castleWait = true ∧
    (put { twinBy 3 (fun t => { t with castleWait := true }) [] with lease := Lease.reset } [(0x2010, 1, 10 ^ 9)]).lease.valid = false ∧
    (put { twinBy 3 (fun t => { t with castleWait := true }) [] with lease := Lease.reset } [(0x2010, 1, 10 ^ 9)]).twin.castleAt + (put { twinBy 3 (fun t => { t with castleWait := true }) [] with lease := Lease.reset } [(0x2010, 1, 10 ^ 9)]).ticksOf ((put { twinBy 3 (fun t => { t with castleWait := true }) [] with lease := Lease.reset } [(0x2010, 1, 10 ^ 9)]).rd 0x8000 0x41) ≤ (put { twinBy 3 (fun t => { t with castleWait := true }) [] with lease := Lease.reset } [(0x2010, 1, 10 ^ 9)]).tick) := by decide +kernel

theorem witness_TwinRoles_5 :
    (soundB (twinBy 3 (fun t => { t with dispQuiet := 1000 }) [(0x2020, 6, 1)]) = true ∧
    (twinBy 3 (fun t => { t with dispQuiet := 1000 }) [(0x2020, 6, 1)]).twinProfile = true ∧
    (twinBy 3 (fun t => { t with dispQuiet := 1000 }) [(0x2020, 6, 1)]).disputed = true ∧
    1000 ≤ (twinBy 3 (fun t => { t with dispQuiet := 1000 }) [(0x2020, 6, 1)]).twin.dispQuiet) ∧
    ((put (twinBy 3 (fun t => { t with castle := 1 }) [(0x8000, 3, 1024)]) [(0x2010, 1, 1024)]).twinProfile = true ∧
    (put (twinBy 3 (fun t => { t with castle := 1 }) [(0x8000, 3, 1024)]) [(0x2010, 1, 1024)]).twin.dispQuiet < 1000) := by decide +kernel

theorem witness_Resynchronisation_1 :
    (soundB (put (twinBy 3 (fun t => { t with castle := 1 }) [(0x8000, 3, 1024)]) [(0x2010, 1, 1024)]) = true ∧
    (put (twinBy 3 (fun t => { t with castle := 1 }) [(0x8000, 3, 1024)]) [(0x2010, 1, 1024)]).twinProfile = true ∧
    (put (twinBy 3 (fun t => { t with castle := 1 }) [(0x8000, 3, 1024)]) [(0x2010, 1, 1024)]).twin.rxSeq = none ∧
    (put (twinBy 3 (fun t => { t with castle := 1 }) [(0x8000, 3, 1024)]) [(0x2010, 1, 1024)]).unit = 3) ∧
    (soundB (twinBy 0 (fun t => { t with resyncReq := true, snapTick := 5 }) [(0x2010, 1, 5)]) = true ∧
    (twinBy 0 (fun t => { t with resyncReq := true, snapTick := 5 }) [(0x2010, 1, 5)]).twinProfile = true ∧
    (twinBy 0 (fun t => { t with resyncReq := true, snapTick := 5 }) [(0x2010, 1, 5)]).twin.rxSeq = none ∧
    (twinBy 0 (fun t => { t with resyncReq := true, snapTick := 5 }) [(0x2010, 1, 5)]).unit = 0 ∧
    (twinBy 0 (fun t => { t with resyncReq := true, snapTick := 5 }) [(0x2010, 1, 5)]).twin.resyncReq = true ∧
    (twinBy 0 (fun t => { t with resyncReq := true, snapTick := 5 }) [(0x2010, 1, 5)]).twin.snapTick = (twinBy 0 (fun t => { t with resyncReq := true, snapTick := 5 }) [(0x2010, 1, 5)]).tick ∧
    (twinBy 0 (fun t => { t with resyncReq := true, snapTick := 5 }) [(0x2010, 1, 5)]).tick ≠ 0 ∧
    (twinBy 0 (fun t => { t with resyncReq := true, snapTick := 5 }) [(0x2010, 1, 5)]).twin.unlike = false) ∧
    (soundB (twinBy 1 id [(0x2010, 1, 10 ^ 9)]) = true ∧ (twinBy 1 id [(0x2010, 1, 10 ^ 9)]).twinProfile = true ∧
    (twinBy 1 id [(0x2010, 1, 10 ^ 9)]).twin.rxSeq = none ∧
    (twinBy 1 id [(0x2010, 1, 10 ^ 9)]).twin.snapTick ≠ (twinBy 1 id [(0x2010, 1, 10 ^ 9)]).tick) ∧
    (soundB (twinBy 0 (fun t => { t with unlike := true }) []) = true ∧
    (twinBy 0 (fun t => { t with unlike := true }) []).twinProfile = true ∧
    (twinBy 0 (fun t => { t with unlike := true }) []).twin.rxSeq = none ∧ (twinBy 0 (fun t => { t with unlike := true }) []).unit = 0 ∧
    (twinBy 0 (fun t => { t with unlike := true }) []).twin.unlike = true) ∧
    ((twinBy 1 id [(0x2010, 1, 10 ^ 9)]).twinProfile = true ∧ (twinBy 1 id [(0x2010, 1, 10 ^ 9)]).twin.rxSeq = none ∧
    (twinBy 1 id [(0x2010, 1, 10 ^ 9)]).unit = 1 ∧ (twinBy 1 id [(0x2010, 1, 10 ^ 9)]).twin.loaded = false ∧
    (twinBy 1 id [(0x2010, 1, 10 ^ 9)]).twin.leaveSync = false) ∧
    (soundB ({ fitUnit 1 with twin := { (fitUnit 1).twin with loaded := true } }) = true ∧
    ({ fitUnit 1 with twin := { (fitUnit 1).twin with loaded := true } }).twinProfile = true ∧
    ({ fitUnit 1 with twin := { (fitUnit 1).twin with loaded := true } }).twin.rxSeq = none ∧
    ({ fitUnit 1 with twin := { (fitUnit 1).twin with loaded := true } }).unit = 1 ∧
    ({ fitUnit 1 with twin := { (fitUnit 1).twin with loaded := true } }).twin.loaded = true ∧
    ({ fitUnit 1 with twin := { (fitUnit 1).twin with loaded := true } }).twin.gotOuter = false ∧
    ({ fitUnit 1 with twin := { (fitUnit 1).twin with loaded := true } }).twin.leaveSync = false ∧
    0 ≤ ({ fitUnit 1 with twin := { (fitUnit 1).twin with loaded := true } }).tick) ∧
    (soundB (twinBy 1 (fun t => { t with loaded := true, verified := 10 ^ 6 }) []) = true ∧
    (twinBy 1 (fun t => { t with loaded := true, verified := 10 ^ 6 }) []).twinProfile = true ∧
    (twinBy 1 (fun t => { t with loaded := true, verified := 10 ^ 6 }) []).twin.rxSeq = none ∧
    (twinBy 1 (fun t => { t with loaded := true, verified := 10 ^ 6 }) []).unit = 1 ∧
    (twinBy 1 (fun t => { t with loaded := true, verified := 10 ^ 6 }) []).twin.loaded = true ∧
    (twinBy 1 (fun t => { t with loaded := true, verified := 10 ^ 6 }) []).twin.leaveSync = false ∧
    (twinBy 1 (fun t => { t with loaded := true, verified := 10 ^ 6 }) []).rd 0x8000 0x40 ≤ (twinBy 1 (fun t => { t with loaded := true, verified := 10 ^ 6 }) []).twin.verified) ∧
    ((twinBy 1 id [(0x2010, 1, 10 ^ 9)]).twinProfile = true ∧ (twinBy 1 id [(0x2010, 1, 10 ^ 9)]).twin.rxSeq = none ∧
    (twinBy 1 id [(0x2010, 1, 10 ^ 9)]).unit = 1 ∧ (twinBy 1 id [(0x2010, 1, 10 ^ 9)]).twin.leaveSync = false ∧
    (twinBy 1 id [(0x2010, 1, 10 ^ 9)]).twin.snapTick + (twinBy 1 id [(0x2010, 1, 10 ^ 9)]).ticksOf 1000000 < (twinBy 1 id [(0x2010, 1, 10 ^ 9)]).tick) := by decide +kernel

theorem witness_Resynchronisation_2 :
    ((twinBy 1 id [(0x2010, 1, 10 ^ 9)]).twinProfile = true ∧ (twinBy 1 id [(0x2010, 1, 10 ^ 9)]).twin.rxSeq = none ∧
    (twinBy 1 id [(0x2010, 1, 10 ^ 9)]).twin.verified < (twinBy 1 id [(0x2010, 1, 10 ^ 9)]).rd 0x8000 0x40) ∧
    (soundB (twin 1) = true ∧ (twin 1).twinProfile = true ∧ (twin 1).twin.rxSeq = none ∧
    (twin 1).tick ≤ (twin 1).twin.snapTick + (twin 1).ticksOf 1000000) := by decide +kernel

theorem witness_PoleCommands_1 :
    (soundB (put (pole 1 7 onGrid) [(0x5109, 0x0E, 6)]) = true ∧ (put (pole 1 7 onGrid) [(0x5109, 0x0E, 6)]).mailbox = true ∧
    (put (pole 1 7 onGrid) [(0x5109, 0x0E, 6)]).judgeAs true (poleIdx 0x3001 1) 1 1 1 = none ∧
    (put (pole 1 7 onGrid) [(0x5109, 0x0E, 6)]).holds = true ∧
    ((put (pole 1 7 onGrid) [(0x5109, 0x0E, 6)]).twinProfile = true → (put (pole 1 7 onGrid) [(0x5109, 0x0E, 6)]).unit = 3) ∧
    (put (pole 1 7 onGrid) [(0x5109, 0x0E, 6)]).poleJudge 1 1 = (0, 0) ∧
    (put (pole 1 7 onGrid) [(0x5109, 0x0E, 6)]).poleLanesUp 1 = true) ∧
    (soundB (laneDown (pole 1 7 onGrid)) = true ∧ (laneDown (pole 1 7 onGrid)).mailbox = true ∧
    (laneDown (pole 1 7 onGrid)).judgeAs true (poleIdx 0x3001 1) 1 1 1 = none ∧ (laneDown (pole 1 7 onGrid)).holds = true ∧
    ((laneDown (pole 1 7 onGrid)).twinProfile = true → (laneDown (pole 1 7 onGrid)).unit = 3) ∧
    (laneDown (pole 1 7 onGrid)).poleJudge 1 1 = (0, 0) ∧ (laneDown (pole 1 7 onGrid)).poleLanesUp 1 = false) ∧
    ((put (pole 1 7 onGrid) [(0x5109, 0x0E, 6)]).poleState 1 = 1 ∧ (put (pole 1 7 onGrid) [(0x5109, 0x0E, 6)]).rd (enIdx 1) 0x0E = 6) ∧
    (soundB (put (pole 1 7 onGrid) [(0x9010, 0x40, 1)]) = true ∧ (put (pole 1 7 onGrid) [(0x9010, 0x40, 1)]).mailbox = true ∧
    (put (pole 1 7 onGrid) [(0x9010, 0x40, 1)]).judgeAs true (poleIdx 0x3001 1) 1 1 1 = none ∧
    (put (pole 1 7 onGrid) [(0x9010, 0x40, 1)]).holds = true ∧
    ((put (pole 1 7 onGrid) [(0x9010, 0x40, 1)]).twinProfile = true → (put (pole 1 7 onGrid) [(0x9010, 0x40, 1)]).unit = 3) ∧
    (put (pole 1 7 onGrid) [(0x9010, 0x40, 1)]).poleState 1 = 1 ∧ ((put (pole 1 7 onGrid) [(0x9010, 0x40, 1)]).pole 1).goto = none ∧
    (put (pole 1 7 onGrid) [(0x9010, 0x40, 1)]).rd 0x9010 0x40 = 1) ∧
    (soundB (put (pole 3 7 onGrid) [(0x9010, 0x40, 1)]) = true ∧ (put (pole 3 7 onGrid) [(0x9010, 0x40, 1)]).mailbox = true ∧
    (put (pole 3 7 onGrid) [(0x9010, 0x40, 1)]).judgeAs true (poleIdx 0x3001 1) 1 1 2 = none ∧
    (put (pole 3 7 onGrid) [(0x9010, 0x40, 1)]).holds = true ∧
    ((put (pole 3 7 onGrid) [(0x9010, 0x40, 1)]).twinProfile = true → (put (pole 3 7 onGrid) [(0x9010, 0x40, 1)]).unit = 3) ∧
    (put (pole 3 7 onGrid) [(0x9010, 0x40, 1)]).poleState 1 = 3 ∧ (put (pole 3 7 onGrid) [(0x9010, 0x40, 1)]).rd 0x9010 0x40 = 1) := by decide +kernel

theorem witness_PoleCommands_2 :
    (soundB (put (fitUnit 3) [(0x3000, 1, 4), (0x3800, 1, 3)]) = true ∧
    (put (fitUnit 3) [(0x3000, 1, 4), (0x3800, 1, 3)]).mailbox = true ∧
    (put (fitUnit 3) [(0x3000, 1, 4), (0x3800, 1, 3)]).judgeAs true (poleIdx 0x3001 0) 1 1 1 = none ∧
    (put (fitUnit 3) [(0x3000, 1, 4), (0x3800, 1, 3)]).holds = true ∧
    ((put (fitUnit 3) [(0x3000, 1, 4), (0x3800, 1, 3)]).twinProfile = true → (put (fitUnit 3) [(0x3000, 1, 4), (0x3800, 1, 3)]).unit = 3) ∧
    (put (fitUnit 3) [(0x3000, 1, 4), (0x3800, 1, 3)]).poleState 0 = 4) ∧
    (soundB (pole 3 7 onGrid) = true ∧ (pole 3 7 onGrid).mailbox = true ∧ (pole 3 7 onGrid).judgeAs true (poleIdx 0x3001 1) 1 1 2 = none ∧
    (pole 3 7 onGrid).holds = true ∧ ((pole 3 7 onGrid).twinProfile = true → (pole 3 7 onGrid).unit = 3) ∧
    (pole 3 7 onGrid).poleJudge 1 2 = (0, 0)) ∧
    (soundB (twin 0) = true ∧ (twin 0).mailbox = true ∧ (twin 0).judgeAs true (poleIdx 0x3001 1) 1 1 2 = none ∧ (twin 0).holds = false) ∧
    ((pole 3 7 onGrid).mailbox = true ∧ (pole 3 7 onGrid).judgeAs true (poleIdx 0x3001 1) 1 1 5 = none ∧ (pole 3 7 onGrid).holds = true ∧
    ((pole 3 7 onGrid).twinProfile = true → (pole 3 7 onGrid).unit = 3) ∧ (pole 3 7 onGrid).poleState 1 = 3) ∧
    (soundB (put (pole 5 7 id) [(0x3804, 3, 1)]) = true ∧ (put (pole 5 7 id) [(0x3804, 3, 1)]).mailbox = true ∧
    (put (pole 5 7 id) [(0x3804, 3, 1)]).judgeAs true (poleIdx 0x3001 1) 1 1 3 = none ∧
    (put (pole 5 7 id) [(0x3804, 3, 1)]).holds = true ∧
    ((put (pole 5 7 id) [(0x3804, 3, 1)]).twinProfile = true → (put (pole 5 7 id) [(0x3804, 3, 1)]).unit = 3) ∧
    ((put (pole 5 7 id) [(0x3804, 3, 1)]).poleState 1 = 4 ∨ (put (pole 5 7 id) [(0x3804, 3, 1)]).poleState 1 = 5)) := by decide +kernel

theorem witness_PoleCommands_3 :
    (soundB (put (pole 2 7 id) [(0x5109, 0x0E, 1), (0x2010, 1, 10 ^ 9)]) = true ∧
    (put (pole 2 7 id) [(0x5109, 0x0E, 1), (0x2010, 1, 10 ^ 9)]).mailbox = true ∧
    (put (pole 2 7 id) [(0x5109, 0x0E, 1), (0x2010, 1, 10 ^ 9)]).judgeAs true (poleIdx 0x3001 1) 1 1 3 = none ∧
    (put (pole 2 7 id) [(0x5109, 0x0E, 1), (0x2010, 1, 10 ^ 9)]).holds = true ∧
    ((put (pole 2 7 id) [(0x5109, 0x0E, 1), (0x2010, 1, 10 ^ 9)]).twinProfile = true → (put (pole 2 7 id) [(0x5109, 0x0E, 1), (0x2010, 1, 10 ^ 9)]).unit = 3) ∧
    (put (pole 2 7 id) [(0x5109, 0x0E, 1), (0x2010, 1, 10 ^ 9)]).poleState 1 = 2 ∧
    1 ≤ (put (pole 2 7 id) [(0x5109, 0x0E, 1), (0x2010, 1, 10 ^ 9)]).rd (enIdx 1) 0x0E ∧
    (put (pole 2 7 id) [(0x5109, 0x0E, 1), (0x2010, 1, 10 ^ 9)]).rd (enIdx 1) 0x0E ≤ 4) ∧
    (soundB (pole 6 7 id) = true ∧ (pole 6 7 id).mailbox = true ∧ (pole 6 7 id).judgeAs true (poleIdx 0x3001 1) 1 1 4 = none ∧
    (pole 6 7 id).holds = true ∧ ((pole 6 7 id).twinProfile = true → (pole 6 7 id).unit = 3) ∧ (pole 6 7 id).poleState 1 = 6 ∧
    (pole 6 7 id).disputed = false ∧ (pole 6 7 id).causePresent 1 = false) ∧
    (soundB (put (pole 6 12 id) [(0x3800, 4, 6)]) = true ∧ (put (pole 6 12 id) [(0x3800, 4, 6)]).mailbox = true ∧
    (put (pole 6 12 id) [(0x3800, 4, 6)]).judgeAs true (poleIdx 0x3001 1) 1 1 4 = none ∧
    (put (pole 6 12 id) [(0x3800, 4, 6)]).holds = true ∧
    ((put (pole 6 12 id) [(0x3800, 4, 6)]).twinProfile = true → (put (pole 6 12 id) [(0x3800, 4, 6)]).unit = 3) ∧
    (put (pole 6 12 id) [(0x3800, 4, 6)]).poleState 1 = 6 ∧ (put (pole 6 12 id) [(0x3800, 4, 6)]).disputed = false ∧
    (put (pole 6 12 id) [(0x3800, 4, 6)]).causePresent 1 = true) ∧
    ((put (pole 5 7 id) [(0x3804, 3, 1)]).mailbox = true ∧
    (put (pole 5 7 id) [(0x3804, 3, 1)]).judgeAs true (poleIdx 0x3001 1) 1 1 6 = none ∧
    (put (pole 5 7 id) [(0x3804, 3, 1)]).holds = true ∧
    ((put (pole 5 7 id) [(0x3804, 3, 1)]).twinProfile = true → (put (pole 5 7 id) [(0x3804, 3, 1)]).unit = 3) ∧
    (put (pole 5 7 id) [(0x3804, 3, 1)]).poleState 1 = 5 ∧ (put (pole 5 7 id) [(0x3804, 3, 1)]).disputed = false ∧
    (put (pole 5 7 id) [(0x3804, 3, 1)]).rd (poleIdx 0x3004 1) 3 ≠ 0) ∧
    ((put (pole 5 7 id) [(0x3804, 3, 1)]).mailbox = true ∧
    (put (pole 5 7 id) [(0x3804, 3, 1)]).judgeAs true (poleIdx 0x3001 1) 1 1 7 = none ∧
    (put (pole 5 7 id) [(0x3804, 3, 1)]).holds = true ∧
    ((put (pole 5 7 id) [(0x3804, 3, 1)]).twinProfile = true → (put (pole 5 7 id) [(0x3804, 3, 1)]).unit = 3) ∧
    (put (pole 5 7 id) [(0x3804, 3, 1)]).poleState 1 ≠ 0) := by decide +kernel

theorem witness_PoleCommands_4 :
    ((put (pole 5 7 id) [(0x3804, 3, 1)]).mailbox = true ∧
    (put (pole 5 7 id) [(0x3804, 3, 1)]).judgeAs true (poleIdx 0x3001 1) 1 1 8 = none ∧
    (put (pole 5 7 id) [(0x3804, 3, 1)]).holds = true ∧
    ((put (pole 5 7 id) [(0x3804, 3, 1)]).twinProfile = true → (put (pole 5 7 id) [(0x3804, 3, 1)]).unit = 3) ∧
    (put (pole 5 7 id) [(0x3804, 3, 1)]).poleState 1 ≠ 0) := by decide +kernel

theorem witness_PoleSequence :
    (soundB (pole 3 7 fun c => onGrid { c with deblockAt := some 0 }) = true ∧
    ((pole 3 7 fun c => onGrid { c with deblockAt := some 0 }).pole 1).deblockAt = some 0 ∧
    0 ≤ (pole 3 7 fun c => onGrid { c with deblockAt := some 0 }).tick ∧
    ((pole 3 7 fun c => onGrid { c with deblockAt := some 0 }).twinProfile = true → (pole 3 7 fun c => onGrid { c with deblockAt := some 0 }).unit = 3) ∧
    (pole 3 7 fun c => onGrid { c with deblockAt := some 0 }).deblockFails 1 = 0) ∧
    (soundB (pole 3 5 fun c => onGrid { c with deblockAt := some 0 }) = true ∧
    ((pole 3 5 fun c => onGrid { c with deblockAt := some 0 }).pole 1).deblockAt = some 0 ∧
    0 ≤ (pole 3 5 fun c => onGrid { c with deblockAt := some 0 }).tick ∧
    ((pole 3 5 fun c => onGrid { c with deblockAt := some 0 }).twinProfile = true → (pole 3 5 fun c => onGrid { c with deblockAt := some 0 }).unit = 3) ∧
    (pole 3 5 fun c => onGrid { c with deblockAt := some 0 }).deblockFails 1 ≠ 0) ∧
    (soundB (armed []) = true ∧ ((armed []).pole 1).deblockAt = none) ∧
    (soundB (put (pole 5 7 id) [(0x3000, 1, 4)]) = true ∧ (put (pole 5 7 id) [(0x3000, 1, 4)]).mailbox = true ∧
    (put (pole 5 7 id) [(0x3000, 1, 4)]).judgeAs true 0x2001 1 1 1 = none ∧ (put (pole 5 7 id) [(0x3000, 1, 4)]).twinProfile = false ∧
    (put (pole 5 7 id) [(0x3000, 1, 4)]).plantReachable = true ∧ (put (pole 5 7 id) [(0x3000, 1, 4)]).poleState 0 = 4 ∧
    (put (pole 5 7 id) [(0x3000, 1, 4)]).poleState 1 = 5) ∧
    (soundB (put (pole 2 7 fun c => { c with fastPend := some ⟨10 ^ 9, true, FastRes.reset, []⟩ }) [(0x5109, 0x0E, 1), (0x2010, 1, 10 ^ 9)]) = true ∧
    (put (pole 2 7 fun c => { c with fastPend := some ⟨10 ^ 9, true, FastRes.reset, []⟩ }) [(0x5109, 0x0E, 1), (0x2010, 1, 10 ^ 9)]).mailbox = true ∧
    (put (pole 2 7 fun c => { c with fastPend := some ⟨10 ^ 9, true, FastRes.reset, []⟩ }) [(0x5109, 0x0E, 1), (0x2010, 1, 10 ^ 9)]).judge (enIdx 1) 0x12 1 1 = none ∧
    (put (pole 2 7 fun c => { c with fastPend := some ⟨10 ^ 9, true, FastRes.reset, []⟩ }) [(0x5109, 0x0E, 1), (0x2010, 1, 10 ^ 9)]).poleState 1 = 2 ∧
    1 ≤ (put (pole 2 7 fun c => { c with fastPend := some ⟨10 ^ 9, true, FastRes.reset, []⟩ }) [(0x5109, 0x0E, 1), (0x2010, 1, 10 ^ 9)]).rd (enIdx 1) 0x0E ∧
    (put (pole 2 7 fun c => { c with fastPend := some ⟨10 ^ 9, true, FastRes.reset, []⟩ }) [(0x5109, 0x0E, 1), (0x2010, 1, 10 ^ 9)]).rd (enIdx 1) 0x0E ≤ 4) ∧
    ((armed []).mailbox = true ∧ (armed []).judge (enIdx 1) 0x12 1 1 = none ∧ (armed []).poleState 1 ≠ 2) ∧
    ((put (pole 2 7 fun c => { c with fastPend := some ⟨10 ^ 9, true, FastRes.reset, []⟩ }) [(0x5109, 0x0E, 1), (0x2010, 1, 10 ^ 9)]).poleState 1 = 2 ∧
    (put (pole 2 7 fun c => { c with fastPend := some ⟨10 ^ 9, true, FastRes.reset, []⟩ }) [(0x5109, 0x0E, 1), (0x2010, 1, 10 ^ 9)]).enNext 1 ((put (pole 2 7 fun c => { c with fastPend := some ⟨10 ^ 9, true, FastRes.reset, []⟩ }) [(0x5109, 0x0E, 1), (0x2010, 1, 10 ^ 9)]).pole 1).fast.trk.state = some (6, 2) ∧
    2 ≠ 8 ∧
    ((put (pole 2 7 fun c => { c with fastPend := some ⟨10 ^ 9, true, FastRes.reset, []⟩ }) [(0x5109, 0x0E, 1), (0x2010, 1, 10 ^ 9)]).pole 1).fastPend = some ({ commit := 1000000000, finish := true, res := { trk := { state := 0, inner := [], integ := 0, theta := 0, freq := 0, rocof := 0, vpd := 0, vpq := 0, vnd := 0, vnq := 0, ipd := 0, ipq := 0, ind := 0, inq := 0, holdUs := 0, backUs := 0, valid := false, clearUs := 0 }, vsm := { on := false, lead := false, omega := 1, theta := 0, ed := 0, eq := 0, dd := 0, dq := 0, pm := 0, iso := 0 }, ride := { state := 0, elapsed := 0, inBand := 0, pcHeld := 0, iqHeld := 0, ramp := 0, upre := 0, hist := [], quietUs := 500000 }, isl := { win := 0, base := 0, sumD := 0, sumQ := 0, runs := 0, prev := none, zPrev := none, rocofUs := 0, indUs := 0, passUs := 0, lastErr := 0, fired := false }, idp := 0, iqp := 0, idn := 0, iqn := 0, limD := false, limQ := false, limited := false, thetaG := 0, thetaB := 0, nB := 0, dTheta := 0, angleOk := false, iz0 := none, vdcs := none, xE := 0, loopOn := false, vt := 0, xR := 0, pe := 0, qe := 0 }, acts := [] } : FastPend)) := by decide +kernel

theorem witness_OuterRuns_1 :
    (soundB (armed []) = true ∧ (armed []).outerRuns = true ∧ (armed []).polePresent 1 = true ∧
    (armed []).ticksOf ((armed []).fastUs 1) ≠ 0 ∧ (armed []).tick % (armed []).ticksOf ((armed []).fastUs 1) = 0 ∧
    ((armed []).pole 1).fastPend = none) ∧
    (soundB frameUnit = true ∧ frameUnit.tick % frameUnit.ticksOf (frameUnit.fastUs 1) ≠ 0) ∧
    ((armed []).outerRuns = true ∧ (armed []).ticksOf (armed []).slowUs ≠ 0 ∧ (armed []).tick % (armed []).ticksOf (armed []).slowUs = 0 ∧
    ((armed []).pole 0).slowPend = none ∧ ((armed []).pole 1).slowPend = none) ∧
    (frameUnit.tick % frameUnit.ticksOf frameUnit.slowUs ≠ 0) ∧
    (soundB (outer 4 (fun c => { c with fastPend := some ⟨0, true, FastRes.reset, []⟩ }) []) = true ∧
    ((outer 4 (fun c => { c with fastPend := some ⟨0, true, FastRes.reset, []⟩ }) []).pole 1).fastPend = some ({ commit := 0, finish := true, res := { trk := { state := 0, inner := [], integ := 0, theta := 0, freq := 0, rocof := 0, vpd := 0, vpq := 0, vnd := 0, vnq := 0, ipd := 0, ipq := 0, ind := 0, inq := 0, holdUs := 0, backUs := 0, valid := false, clearUs := 0 }, vsm := { on := false, lead := false, omega := 1, theta := 0, ed := 0, eq := 0, dd := 0, dq := 0, pm := 0, iso := 0 }, ride := { state := 0, elapsed := 0, inBand := 0, pcHeld := 0, iqHeld := 0, ramp := 0, upre := 0, hist := [], quietUs := 500000 }, isl := { win := 0, base := 0, sumD := 0, sumQ := 0, runs := 0, prev := none, zPrev := none, rocofUs := 0, indUs := 0, passUs := 0, lastErr := 0, fired := false }, idp := 0, iqp := 0, idn := 0, iqn := 0, limD := false, limQ := false, limited := false, thetaG := 0, thetaB := 0, nB := 0, dTheta := 0, angleOk := false, iz0 := none, vdcs := none, xE := 0, loopOn := false, vt := 0, xR := 0, pe := 0, qe := 0 }, acts := [] } : FastPend) ∧
    ({ commit := 0, finish := true, res := { trk := { state := 0, inner := [], integ := 0, theta := 0, freq := 0, rocof := 0, vpd := 0, vpq := 0, vnd := 0, vnq := 0, ipd := 0, ipq := 0, ind := 0, inq := 0, holdUs := 0, backUs := 0, valid := false, clearUs := 0 }, vsm := { on := false, lead := false, omega := 1, theta := 0, ed := 0, eq := 0, dd := 0, dq := 0, pm := 0, iso := 0 }, ride := { state := 0, elapsed := 0, inBand := 0, pcHeld := 0, iqHeld := 0, ramp := 0, upre := 0, hist := [], quietUs := 500000 }, isl := { win := 0, base := 0, sumD := 0, sumQ := 0, runs := 0, prev := none, zPrev := none, rocofUs := 0, indUs := 0, passUs := 0, lastErr := 0, fired := false }, idp := 0, iqp := 0, idn := 0, iqn := 0, limD := false, limQ := false, limited := false, thetaG := 0, thetaB := 0, nB := 0, dTheta := 0, angleOk := false, iz0 := none, vdcs := none, xE := 0, loopOn := false, vt := 0, xR := 0, pe := 0, qe := 0 }, acts := [] } : FastPend).commit = (outer 4 (fun c => { c with fastPend := some ⟨0, true, FastRes.reset, []⟩ }) []).tick ∧
    ({ commit := 0, finish := true, res := { trk := { state := 0, inner := [], integ := 0, theta := 0, freq := 0, rocof := 0, vpd := 0, vpq := 0, vnd := 0, vnq := 0, ipd := 0, ipq := 0, ind := 0, inq := 0, holdUs := 0, backUs := 0, valid := false, clearUs := 0 }, vsm := { on := false, lead := false, omega := 1, theta := 0, ed := 0, eq := 0, dd := 0, dq := 0, pm := 0, iso := 0 }, ride := { state := 0, elapsed := 0, inBand := 0, pcHeld := 0, iqHeld := 0, ramp := 0, upre := 0, hist := [], quietUs := 500000 }, isl := { win := 0, base := 0, sumD := 0, sumQ := 0, runs := 0, prev := none, zPrev := none, rocofUs := 0, indUs := 0, passUs := 0, lastErr := 0, fired := false }, idp := 0, iqp := 0, idn := 0, iqn := 0, limD := false, limQ := false, limited := false, thetaG := 0, thetaB := 0, nB := 0, dTheta := 0, angleOk := false, iz0 := none, vdcs := none, xE := 0, loopOn := false, vt := 0, xR := 0, pe := 0, qe := 0 }, acts := [] } : FastPend).finish = true ∧
    ({ commit := 0, finish := true, res := { trk := { state := 0, inner := [], integ := 0, theta := 0, freq := 0, rocof := 0, vpd := 0, vpq := 0, vnd := 0, vnq := 0, ipd := 0, ipq := 0, ind := 0, inq := 0, holdUs := 0, backUs := 0, valid := false, clearUs := 0 }, vsm := { on := false, lead := false, omega := 1, theta := 0, ed := 0, eq := 0, dd := 0, dq := 0, pm := 0, iso := 0 }, ride := { state := 0, elapsed := 0, inBand := 0, pcHeld := 0, iqHeld := 0, ramp := 0, upre := 0, hist := [], quietUs := 500000 }, isl := { win := 0, base := 0, sumD := 0, sumQ := 0, runs := 0, prev := none, zPrev := none, rocofUs := 0, indUs := 0, passUs := 0, lastErr := 0, fired := false }, idp := 0, iqp := 0, idn := 0, iqn := 0, limD := false, limQ := false, limited := false, thetaG := 0, thetaB := 0, nB := 0, dTheta := 0, angleOk := false, iz0 := none, vdcs := none, xE := 0, loopOn := false, vt := 0, xR := 0, pe := 0, qe := 0 }, acts := [] } : FastPend).acts = [] ∧
    ((outer 4 (fun c => { c with fastPend := some ⟨0, true, FastRes.reset, []⟩ }) []).poleState 1 = 4 ∨ (outer 4 (fun c => { c with fastPend := some ⟨0, true, FastRes.reset, []⟩ }) []).poleState 1 = 5)) := by decide +kernel

theorem witness_OuterRuns_2 :
    (soundB (outer 4 (fun c => { c with fastPend := some ⟨10 ^ 9, false, FastRes.reset, []⟩ }) [(0x2010, 1, 10 ^ 9)]) = true ∧
    ((outer 4 (fun c => { c with fastPend := some ⟨10 ^ 9, false, FastRes.reset, []⟩ }) [(0x2010, 1, 10 ^ 9)]).pole 1).fastPend = some ({ commit := 1000000000, finish := false, res := { trk := { state := 0, inner := [], integ := 0, theta := 0, freq := 0, rocof := 0, vpd := 0, vpq := 0, vnd := 0, vnq := 0, ipd := 0, ipq := 0, ind := 0, inq := 0, holdUs := 0, backUs := 0, valid := false, clearUs := 0 }, vsm := { on := false, lead := false, omega := 1, theta := 0, ed := 0, eq := 0, dd := 0, dq := 0, pm := 0, iso := 0 }, ride := { state := 0, elapsed := 0, inBand := 0, pcHeld := 0, iqHeld := 0, ramp := 0, upre := 0, hist := [], quietUs := 500000 }, isl := { win := 0, base := 0, sumD := 0, sumQ := 0, runs := 0, prev := none, zPrev := none, rocofUs := 0, indUs := 0, passUs := 0, lastErr := 0, fired := false }, idp := 0, iqp := 0, idn := 0, iqn := 0, limD := false, limQ := false, limited := false, thetaG := 0, thetaB := 0, nB := 0, dTheta := 0, angleOk := false, iz0 := none, vdcs := none, xE := 0, loopOn := false, vt := 0, xR := 0, pe := 0, qe := 0 }, acts := [] } : FastPend) ∧
    ({ commit := 1000000000, finish := false, res := { trk := { state := 0, inner := [], integ := 0, theta := 0, freq := 0, rocof := 0, vpd := 0, vpq := 0, vnd := 0, vnq := 0, ipd := 0, ipq := 0, ind := 0, inq := 0, holdUs := 0, backUs := 0, valid := false, clearUs := 0 }, vsm := { on := false, lead := false, omega := 1, theta := 0, ed := 0, eq := 0, dd := 0, dq := 0, pm := 0, iso := 0 }, ride := { state := 0, elapsed := 0, inBand := 0, pcHeld := 0, iqHeld := 0, ramp := 0, upre := 0, hist := [], quietUs := 500000 }, isl := { win := 0, base := 0, sumD := 0, sumQ := 0, runs := 0, prev := none, zPrev := none, rocofUs := 0, indUs := 0, passUs := 0, lastErr := 0, fired := false }, idp := 0, iqp := 0, idn := 0, iqn := 0, limD := false, limQ := false, limited := false, thetaG := 0, thetaB := 0, nB := 0, dTheta := 0, angleOk := false, iz0 := none, vdcs := none, xE := 0, loopOn := false, vt := 0, xR := 0, pe := 0, qe := 0 }, acts := [] } : FastPend).commit = (outer 4 (fun c => { c with fastPend := some ⟨10 ^ 9, false, FastRes.reset, []⟩ }) [(0x2010, 1, 10 ^ 9)]).tick ∧
    ({ commit := 1000000000, finish := false, res := { trk := { state := 0, inner := [], integ := 0, theta := 0, freq := 0, rocof := 0, vpd := 0, vpq := 0, vnd := 0, vnq := 0, ipd := 0, ipq := 0, ind := 0, inq := 0, holdUs := 0, backUs := 0, valid := false, clearUs := 0 }, vsm := { on := false, lead := false, omega := 1, theta := 0, ed := 0, eq := 0, dd := 0, dq := 0, pm := 0, iso := 0 }, ride := { state := 0, elapsed := 0, inBand := 0, pcHeld := 0, iqHeld := 0, ramp := 0, upre := 0, hist := [], quietUs := 500000 }, isl := { win := 0, base := 0, sumD := 0, sumQ := 0, runs := 0, prev := none, zPrev := none, rocofUs := 0, indUs := 0, passUs := 0, lastErr := 0, fired := false }, idp := 0, iqp := 0, idn := 0, iqn := 0, limD := false, limQ := false, limited := false, thetaG := 0, thetaB := 0, nB := 0, dTheta := 0, angleOk := false, iz0 := none, vdcs := none, xE := 0, loopOn := false, vt := 0, xR := 0, pe := 0, qe := 0 }, acts := [] } : FastPend).finish = false) := by decide +kernel

theorem witness_Setpoints :
    (soundB (pole 1 7 onGrid) = true ∧ (pole 1 7 onGrid).ticking = true ∧ (pole 1 7 onGrid).holds = true) ∧
    (soundB (fitUnit 0) = true ∧ (fitUnit 0).ticking = true ∧ (fitUnit 0).holds = false ∧ (fitUnit 0).unit ≠ 3) ∧
    (soundB (outer 4 id [(0x2010, 1, 10 ^ 9)]) = true ∧ (outer 4 id [(0x2010, 1, 10 ^ 9)]).poleBlocked 1 = false ∧
    (outer 4 id [(0x2010, 1, 10 ^ 9)]).hasPdoOrder 1 = true ∧ (outer 4 id [(0x2010, 1, 10 ^ 9)]).sub 1 2 = false ∧
    ((outer 4 id [(0x2010, 1, 10 ^ 9)]).pole 1).lastFrame.getD 0 + (outer 4 id [(0x2010, 1, 10 ^ 9)]).ticksOf (1000 * (outer 4 id [(0x2010, 1, 10 ^ 9)]).rd (poleIdx 0x3003 1) 0x0C) ≤ (outer 4 id [(0x2010, 1, 10 ^ 9)]).tick) ∧
    ((pole 1 7 onGrid).tick < ((pole 1 7 onGrid).pole 0).lastFrame.getD 0 + (pole 1 7 onGrid).ticksOf (1000 * (pole 1 7 onGrid).rd (poleIdx 0x3003 0) 0x0C)) ∧
    (soundB (outer 4 id [(0x3806, 6, 0)]) = true ∧ (outer 4 id [(0x3806, 6, 0)]).poleState 1 = 4 ∧
    ((outer 4 id [(0x3806, 6, 0)]).pole 1).slow.form = false ∧ ((outer 4 id [(0x3806, 6, 0)]).pole 1).fast.trk.valid = false ∧
    1000 * (outer 4 id [(0x3806, 6, 0)]).rd (poleIdx 0x3006 1) 6 ≤ ((outer 4 id [(0x3806, 6, 0)]).pole 1).fast.trk.clearUs) ∧
    (((pole 1 7 onGrid).pole 1).fast.trk.valid = true) := by decide +kernel

theorem witness_DcFaultAndLoss_1 :
    (soundB (outer 4 (fun c => { c with dc := { c.dc with below := some 0 } }) [(0x5105, 0x10, 1), (0x2010, 1, 10 ^ 9)]) = true ∧
    ((outer 4 (fun c => { c with dc := { c.dc with below := some 0 } }) [(0x5105, 0x10, 1), (0x2010, 1, 10 ^ 9)]).pole 1).dc.below = some 0 ∧
    (outer 4 (fun c => { c with dc := { c.dc with below := some 0 } }) [(0x5105, 0x10, 1), (0x2010, 1, 10 ^ 9)]).dcState 1 = 1 ∧
    0 + (outer 4 (fun c => { c with dc := { c.dc with below := some 0 } }) [(0x5105, 0x10, 1), (0x2010, 1, 10 ^ 9)]).ticksOf ((outer 4 (fun c => { c with dc := { c.dc with below := some 0 } }) [(0x5105, 0x10, 1), (0x2010, 1, 10 ^ 9)]).rd (0x5104 + 1) 8) ≤ (outer 4 (fun c => { c with dc := { c.dc with below := some 0 } }) [(0x5105, 0x10, 1), (0x2010, 1, 10 ^ 9)]).tick) ∧
    (soundB (outer 4 id [(0x5105, 0x10, 2), (0x2010, 1, 10 ^ 9)]) = true ∧
    ((outer 4 id [(0x5105, 0x10, 2), (0x2010, 1, 10 ^ 9)]).pole 1).dc.below = none) ∧
    ((outer 4 (fun c => { c with dc := { c.dc with below := some 0 } }) [(0x5105, 0x10, 1), (0x2010, 1, 10 ^ 9)]).dcState 1 = 1 ∧
    ((outer 4 (fun c => { c with dc := { c.dc with below := some 0 } }) [(0x5105, 0x10, 1), (0x2010, 1, 10 ^ 9)]).pole 1).dc.since + (outer 4 (fun c => { c with dc := { c.dc with below := some 0 } }) [(0x5105, 0x10, 1), (0x2010, 1, 10 ^ 9)]).ticksOf ((outer 4 (fun c => { c with dc := { c.dc with below := some 0 } }) [(0x5105, 0x10, 1), (0x2010, 1, 10 ^ 9)]).rd (0x5104 + 1) 6) ≤ (outer 4 (fun c => { c with dc := { c.dc with below := some 0 } }) [(0x5105, 0x10, 1), (0x2010, 1, 10 ^ 9)]).tick ∧
    (outer 4 (fun c => { c with dc := { c.dc with below := some 0 } }) [(0x5105, 0x10, 1), (0x2010, 1, 10 ^ 9)]).poleLive 1 = true) ∧
    ((outer 4 id [(0x5105, 0x10, 2), (0x2010, 1, 10 ^ 9)]).dcState 1 ≠ 1) ∧
    ((outer 4 id [(0x5105, 0x10, 2), (0x2010, 1, 10 ^ 9)]).deionised 1 = true ∧
    (outer 4 id [(0x5105, 0x10, 2), (0x2010, 1, 10 ^ 9)]).rd (0x5104 + 1) 0x0D ≠ 0) ∧
    ((outer 4 id [(0x5105, 0x10, 2), (0x2010, 1, 10 ^ 9)]).mailbox = true ∧
    (outer 4 id [(0x5105, 0x10, 2), (0x2010, 1, 10 ^ 9)]).judge (0x5104 + 1) 0x11 1 1 = none ∧
    (outer 4 id [(0x5105, 0x10, 2), (0x2010, 1, 10 ^ 9)]).deionised 1 = true) ∧
    ((outer 4 id [(0x5105, 0x10, 2), (0x2010, 1, 10 ^ 9)]).mailbox = true ∧
    (outer 4 id [(0x5105, 0x10, 2), (0x2010, 1, 10 ^ 9)]).judge (0x5104 + 0) 0x11 1 1 = none ∧
    (outer 4 id [(0x5105, 0x10, 2), (0x2010, 1, 10 ^ 9)]).deionised 0 = false) ∧
    ((outer 4 id [(0x5105, 0x10, 2), (0x2010, 1, 10 ^ 9)]).dcState 1 = 2) := by decide +kernel

theorem witness_DcFaultAndLoss_2 :
    (soundB (outer 4 id [(0x5002, 1, 4), (0x2010, 1, 10 ^ 9)]) = true ∧
    ((outer 4 id [(0x5002, 1, 4), (0x2010, 1, 10 ^ 9)]).rd (0x5001 + 1) 1 = 2 ∨ (outer 4 id [(0x5002, 1, 4), (0x2010, 1, 10 ^ 9)]).rd (0x5001 + 1) 1 = 4) ∧
    ((outer 4 id [(0x5002, 1, 4), (0x2010, 1, 10 ^ 9)]).pole 1).loss.settle + (outer 4 id [(0x5002, 1, 4), (0x2010, 1, 10 ^ 9)]).ticksOf (1000 * (outer 4 id [(0x5002, 1, 4), (0x2010, 1, 10 ^ 9)]).rd 0x5000 4) ≤ (outer 4 id [(0x5002, 1, 4), (0x2010, 1, 10 ^ 9)]).tick) ∧
    (soundB (armed []) = true ∧ (armed []).tick < ((armed []).pole 1).loss.settle + (armed []).ticksOf (1000 * (armed []).rd 0x5000 4)) := by decide +kernel

theorem witness_ExclusionAndForce :
    (soundB (cellArm Cell.reset) = true ∧ (cellArm Cell.reset).mailbox = true ∧
    (cellArm Cell.reset).judge (armIdx 0x4002 0) 1 128 0 = none ∧ 0 < 2 ^ (cellArm Cell.reset).rd (armIdx 0x4000 0) 2 ∧
    (cellArm Cell.reset).armLive 0 = false ∧ (cellArm Cell.reset).timer.running = true) ∧
    ((cellArm Cell.reset).mailbox = true ∧ (cellArm Cell.reset).judge (armIdx 0x4002 0) 1 128 1 = none ∧
    2 ^ (cellArm Cell.reset).rd (armIdx 0x4000 0) 2 ≤ 1) ∧
    ((cellArm Cell.reset).mailbox = true ∧ (cellArm Cell.reset).judge (armIdx 0x4002 11) 1 128 1 = none ∧
    1 < 2 ^ (cellArm Cell.reset).rd (armIdx 0x4000 11) 2 ∧ (cellArm Cell.reset).armLive 11 = true ∧
    (cellArm Cell.reset).availUnder 11 1 < max 1 ((cellArm Cell.reset).rd (0x5301 + 11) 6)) ∧
    ((cellArm Cell.reset).mailbox = true ∧ (cellArm Cell.reset).judge (armIdx 0x4003 11) 1 1 0 = none ∧
    (cellArm Cell.reset).judge (armIdx 0x4003 11) 2 1 2 = none ∧ (cellArm Cell.reset).judge (armIdx 0x4003 11) 3 4 1 = none ∧
    (cellArm Cell.reset).judge (armIdx 0x4003 11) 4 2 1 = none ∧ (cellArm Cell.reset).judge (armIdx 0x4003 11) 5 1 0 = none ∧
    (cellArm Cell.reset).forceAbort 11 ⟨0, 2, 1, toInt 16 1, 0⟩ = none) ∧
    ((cellArm Cell.reset).mailbox = true ∧ (cellArm Cell.reset).judge (armIdx 0x4003 0) 1 1 1 = none ∧
    (cellArm Cell.reset).judge (armIdx 0x4003 0) 2 1 3 = none ∧ (cellArm Cell.reset).judge (armIdx 0x4003 0) 3 4 0 = none ∧
    (cellArm Cell.reset).judge (armIdx 0x4003 0) 4 2 65535 = none ∧ (cellArm Cell.reset).judge (armIdx 0x4003 0) 5 1 1 = none ∧
    (cellArm Cell.reset).forceAbort 0 ⟨1, 3, 0, toInt 16 65535, 1⟩ = some 134217762) := by decide +kernel

theorem witness_ComparatorTrips :
    (soundB (compared 23 0 id) = true ∧ (compared 23 0 id).boot.plantHeld = false ∧ (compared 23 0 id).inService 22 = true ∧
    (compared 23 0 id).blanked (22 / 2) 2000 = false ∧ (compared 23 0 id).guard.quals.getD (22 / 2) 0 = 0 ∧
    (compared 23 0 id).latched (22 / 2) = false) ∧
    (soundB (put (compared 0xFF 0 id) [(0x702B, 6, 100), (0x702B, 7, 10)]) = true ∧
    (put (compared 0xFF 0 id) [(0x702B, 6, 100), (0x702B, 7, 10)]).blanked (22 / 2) 109 = true) ∧
    ((compared 23 0 id).inService 0 = false) ∧
    ((compared 23 0 id).pairOn 11 = true) := by decide +kernel

theorem witness_ComparatorTests :
    (soundB (compared 0xFF 0 fun g => { g with nextK := 23 }) = true ∧
    (compared 0xFF 0 fun g => { g with nextK := 23 }).boot.plantHeld = false ∧
    (compared 0xFF 0 fun g => { g with nextK := 23 }).boot.pairsHalted = false ∧
    (compared 0xFF 0 fun g => { g with nextK := 23 }).rd 0x5700 3 = 0xFF ∧
    (compared 0xFF 0 fun g => { g with nextK := 23 }).testDue = true ∧
    (compared 0xFF 0 fun g => { g with nextK := 23 }).guard.nextK = 23 ∧
    (compared 0xFF 0 fun g => { g with nextK := 23 }).pairOn (23 / 2) = true ∧
    (compared 0xFF 0 fun g => { g with nextK := 23 }).cmpFailed 23 = false ∧
    (compared 0xFF 0 fun g => { g with nextK := 23 }).cmpFailed (partnerOf 23) = false) ∧
    (soundB (compared 22 0 fun g => { g with step := 1 }) = true ∧ (compared 22 0 fun g => { g with step := 1 }).rd 0x5700 3 ≠ 0xFF) ∧
    (soundB (compared 22 0 fun g => { g with step := 4 }) = true ∧ (compared 22 0 fun g => { g with step := 4 }).rd 0x5700 3 = 22 ∧
    (compared 22 0 fun g => { g with step := 4 }).guard.discard = false ∧
    (compared 22 0 fun g => { g with step := 4 }).guard.swapped = false ∧
    (compared 22 0 fun g => { g with step := 4 }).nextTestStep (22 / 2) (compared 22 0 fun g => { g with step := 4 }).guard.step 4 = none) ∧
    ((compared 22 0 fun g => { g with step := 1 }).rd 0x5700 3 = 22 ∧
    (compared 22 0 fun g => { g with step := 1 }).guard.discard = false ∧
    (compared 22 0 fun g => { g with step := 1 }).guard.swapped = false ∧
    (compared 22 0 fun g => { g with step := 1 }).guard.again = false) ∧
    (soundB (compared 22 0 fun g => { g with step := 1, again := true }) = true ∧
    (compared 22 0 fun g => { g with step := 1, again := true }).rd 0x5700 3 = 22 ∧
    (compared 22 0 fun g => { g with step := 1, again := true }).guard.discard = false ∧
    (compared 22 0 fun g => { g with step := 1, again := true }).guard.swapped = false ∧
    (compared 22 0 fun g => { g with step := 1, again := true }).guard.again = true ∧
    (compared 22 0 fun g => { g with step := 1, again := true }).guard.step ≠ 4) ∧
    (soundB (armed []) = true ∧ (armed []).rd 0x5700 3 = 0xFF) ∧
    ((compared 22 0 fun g => { g with step := 1 }).rd 0x5700 3 = 22 ∧
    (compared 22 0 fun g => { g with step := 1 }).guard.discard = false ∧
    (compared 22 0 fun g => { g with step := 1 }).guard.swapped = false ∧
    (compared 22 0 fun g => { g with step := 1 }).nextTestStep (22 / 2) (compared 22 0 fun g => { g with step := 1 }).guard.step 4 = some 2) := by decide +kernel

theorem witness_SafeFunctions_1 :
    (soundB (armed []) = true ∧ (armed []).boot.plantHeld = false ∧ (armed []).boot.pairsHalted = false ∧
    (armed []).rd (0x7010 + 0) 1 ≠ 0) ∧
    ((armed []).boot.plantHeld = false ∧ (armed []).boot.pairsHalted = false ∧ (armed []).rd (0x7010 + 7) 1 = 0) ∧
    (soundB (put (safe 0 [(0x7017, 1, 1), (0x7017, 4, 2)]) [(0x2010, 1, 10 ^ 9)]) = true ∧
    (put (safe 0 [(0x7017, 1, 1), (0x7017, 4, 2)]) [(0x2010, 1, 10 ^ 9)]).boot.plantHeld = false ∧
    (put (safe 0 [(0x7017, 1, 1), (0x7017, 4, 2)]) [(0x2010, 1, 10 ^ 9)]).boot.pairsHalted = false ∧
    (put (safe 0 [(0x7017, 1, 1), (0x7017, 4, 2)]) [(0x2010, 1, 10 ^ 9)]).rd (0x7010 + 7) 1 = 1 ∧
    bit ((put (safe 0 [(0x7017, 1, 1), (0x7017, 4, 2)]) [(0x2010, 1, 10 ^ 9)]).inputState 7) 0 ≠ bit ((put (safe 0 [(0x7017, 1, 1), (0x7017, 4, 2)]) [(0x2010, 1, 10 ^ 9)]).inputState 7) 1 ∧
    bit ((put (safe 0 [(0x7017, 1, 1), (0x7017, 4, 2)]) [(0x2010, 1, 10 ^ 9)]).inputState 7) 2 = false ∧
    (put (safe 0 [(0x7017, 1, 1), (0x7017, 4, 2)]) [(0x2010, 1, 10 ^ 9)]).guard.differ.getD 7 0 + (put (safe 0 [(0x7017, 1, 1), (0x7017, 4, 2)]) [(0x2010, 1, 10 ^ 9)]).ticksOf (1000 * (put (safe 0 [(0x7017, 1, 1), (0x7017, 4, 2)]) [(0x2010, 1, 10 ^ 9)]).rd (0x7010 + 7) 3) ≤ (put (safe 0 [(0x7017, 1, 1), (0x7017, 4, 2)]) [(0x2010, 1, 10 ^ 9)]).tick) ∧
    ((armed []).boot.plantHeld = false ∧ (armed []).boot.pairsHalted = false ∧
    bit ((armed []).inputState 7) 0 = bit ((armed []).inputState 7) 1) ∧
    (soundB (safe 2 [(0x7010, 4, 3), (0x7017, 1, 1), (0x7017, 4, 3)]) = true ∧
    (safe 2 [(0x7010, 4, 3), (0x7017, 1, 1), (0x7017, 4, 3)]).boot.plantHeld = false ∧
    (safe 2 [(0x7010, 4, 3), (0x7017, 1, 1), (0x7017, 4, 3)]).boot.pairsHalted = false ∧
    (safe 2 [(0x7010, 4, 3), (0x7017, 1, 1), (0x7017, 4, 3)]).rd 0x7000 0x0A ≠ 2 ∧ 100 ≤ 200 ∧ 100 ≤ 100 ∧
    (safe 2 [(0x7010, 4, 3), (0x7017, 1, 1), (0x7017, 4, 3)]).guard.ch1 = 2 ∧
    (safe 2 [(0x7010, 4, 3), (0x7017, 1, 1), (0x7017, 4, 3)]).rd 0x7000 2 = 2 ∧
    (safe 2 [(0x7010, 4, 3), (0x7017, 1, 1), (0x7017, 4, 3)]).safeSources = 0 ∧
    (∀ j, j < 8 → (safe 2 [(0x7010, 4, 3), (0x7017, 1, 1), (0x7017, 4, 3)]).rd (0x7010 + j) 1 = 1 → (safe 2 [(0x7010, 4, 3), (0x7017, 1, 1), (0x7017, 4, 3)]).inputState j = 3) ∧
    (safe 2 [(0x7010, 4, 3), (0x7017, 1, 1), (0x7017, 4, 3)]).rd 0x7000 5 ≠ 0) ∧
    ((armed []).boot.plantHeld = false ∧ (armed []).boot.pairsHalted = false ∧ (armed []).rd 0x7000 0x0A ≠ 2) ∧
    (soundB (put (compared 0xFF 0 fun g => { g with split := some 0 }) [(0x2010, 1, 10 ^ 9)]) = true ∧
    (put (compared 0xFF 0 fun g => { g with split := some 0 }) [(0x2010, 1, 10 ^ 9)]).boot.plantHeld = false ∧
    (put (compared 0xFF 0 fun g => { g with split := some 0 }) [(0x2010, 1, 10 ^ 9)]).boot.pairsHalted = false ∧
    (put (compared 0xFF 0 fun g => { g with split := some 0 }) [(0x2010, 1, 10 ^ 9)]).guard.split = some 0 ∧
    0 + (put (compared 0xFF 0 fun g => { g with split := some 0 }) [(0x2010, 1, 10 ^ 9)]).ticksOf 1000000 < (put (compared 0xFF 0 fun g => { g with split := some 0 }) [(0x2010, 1, 10 ^ 9)]).tick) ∧
    (soundB (safe 0 [(0x701B, 2, 1), (0x701B, 3, 1)]) = true ∧ (safe 0 [(0x701B, 2, 1), (0x701B, 3, 1)]).rd (0x7018 + 3) 2 ≠ 0 ∧
    bit ((safe 0 [(0x701B, 2, 1), (0x701B, 3, 1)]).rd (0x7018 + 3) 3) 0 = true ∧
    bit ((safe 0 [(0x701B, 2, 1), (0x701B, 3, 1)]).rd (0x7018 + 3) 3) 3 = false ∧
    (safe 0 [(0x701B, 2, 1), (0x701B, 3, 1)]).boot.plantHeld = false) := by decide +kernel

theorem witness_SafeFunctions_2 :
    (soundB (safe 0 [(0x7030, 1, 1), (0x7030, 5, 0), (0x2010, 1, 10 ^ 12)]) = true ∧
    (safe 0 [(0x7030, 1, 1), (0x7030, 5, 0), (0x2010, 1, 10 ^ 12)]).rd 0x7030 1 = 1 ∧
    (safe 0 [(0x7030, 1, 1), (0x7030, 5, 0), (0x2010, 1, 10 ^ 12)]).rd 0x7030 5 = 0 ∧
    (safe 0 [(0x7030, 1, 1), (0x7030, 5, 0), (0x2010, 1, 10 ^ 12)]).guard.zeSince + (safe 0 [(0x7030, 1, 1), (0x7030, 5, 0), (0x2010, 1, 10 ^ 12)]).ticksOf (1000000 * (safe 0 [(0x7030, 1, 1), (0x7030, 5, 0), (0x2010, 1, 10 ^ 12)]).rd 0x7030 4) ≤ (safe 0 [(0x7030, 1, 1), (0x7030, 5, 0), (0x2010, 1, 10 ^ 12)]).tick) ∧
    ((armed []).rd 0x7030 5 ≠ 0) ∧
    (soundB (put (safe 4 [(0x7040, 1, 1), (0x7040, 3, 4)]) [(0x2010, 1, 10 ^ 9)]) = true ∧
    (put (safe 4 [(0x7040, 1, 1), (0x7040, 3, 4)]) [(0x2010, 1, 10 ^ 9)]).boot.plantHeld = false ∧
    (put (safe 4 [(0x7040, 1, 1), (0x7040, 3, 4)]) [(0x2010, 1, 10 ^ 9)]).boot.pairsHalted = false ∧
    (put (safe 4 [(0x7040, 1, 1), (0x7040, 3, 4)]) [(0x2010, 1, 10 ^ 9)]).rd 0x7040 1 ≠ 0 ∧ 3 ≤ 4) ∧
    ((put (safe 4 [(0x7040, 1, 1), (0x7040, 3, 4)]) [(0x2010, 1, 10 ^ 9)]).boot.plantHeld = false ∧
    (put (safe 4 [(0x7040, 1, 1), (0x7040, 3, 4)]) [(0x2010, 1, 10 ^ 9)]).boot.pairsHalted = false ∧
    (put (safe 4 [(0x7040, 1, 1), (0x7040, 3, 4)]) [(0x2010, 1, 10 ^ 9)]).rd 0x7040 1 ≠ 0 ∧
    (put (safe 4 [(0x7040, 1, 1), (0x7040, 3, 4)]) [(0x2010, 1, 10 ^ 9)]).rd 0x7040 3 = 4 ∧
    (put (safe 4 [(0x7040, 1, 1), (0x7040, 3, 4)]) [(0x2010, 1, 10 ^ 9)]).guard.fsoeAt + (put (safe 4 [(0x7040, 1, 1), (0x7040, 3, 4)]) [(0x2010, 1, 10 ^ 9)]).ticksOf (1000 * (put (safe 4 [(0x7040, 1, 1), (0x7040, 3, 4)]) [(0x2010, 1, 10 ^ 9)]).rd 0x7040 2) ≤ (put (safe 4 [(0x7040, 1, 1), (0x7040, 3, 4)]) [(0x2010, 1, 10 ^ 9)]).tick) ∧
    ((armed []).rd 0x7040 1 = 0) := by decide +kernel

theorem witness_TickStart :
    (soundB (armed []) = true ∧ (armed []).ticking = true ∧ (armed []).twinProfile = false ∧ (armed []).live = [] ∧
    (armed []).session.effect = false ∧ (armed []).twin.takeUp = none ∧ (armed []).twin.writes = [] ∧ (armed []).twin.bufWrites = [] ∧
    (armed []).twin.decisions = []) ∧
    (soundB ({ run with timer := { run.timer with committed := true } }) = true ∧
    ({ run with timer := { run.timer with committed := true } }).timer.committed = true) ∧
    (soundB still = true ∧ still.ticking = false) := by decide +kernel

theorem witness_TickDeadlinesAndSlips_1 :
    (soundB (run.setStage 1) = true ∧ (run.setStage 1).ticking = true ∧ (run.setStage 1).timer.stage ≠ 0) ∧
    (soundB (armed []) = true ∧ (armed []).ticking = true ∧ (armed []).timer.stage ≠ 1) ∧
    ((armed []).ticking = true ∧ (armed []).timer.stage ≠ 2) ∧
    (soundB (fitUnit 0) = true ∧ (fitUnit 0).ticking = true ∧ (fitUnit 0).enginesRun = false ∧ (fitUnit 0).timer.stage = 0) ∧
    (soundB ((twin 0).setStage 1) = true ∧ ((twin 0).setStage 1).ticking = true ∧ ((twin 0).setStage 1).enginesRun = false ∧
    ((twin 0).setStage 1).timer.stage = 1) ∧
    (soundB ((twin 0).setStage 2) = true ∧ ((twin 0).setStage 2).ticking = true ∧ ((twin 0).setStage 2).enginesRun = false ∧
    ((twin 0).setStage 2).timer.stage = 2) ∧
    ((armed []).ticking = true ∧ (armed []).enginesRun = true ∧ (armed []).timer.stage = 0 ∧ (armed []).twinProfile = false ∧
    (armed []).boot.safeState = false ∧
    (∀ b, b < 12 → (armed []).armPresent b = true → 32 ≤ (armed []).rd (armIdx 0x4010 b) 1 ∨ resultValid ((((armed []).setStage 1).takeAll 3).result ((armed []).rd (armIdx 0x4010 b) 1)) = true)) ∧
    ((run.setStage 1).ticking = true ∧ (run.setStage 1).enginesRun = true ∧ (run.setStage 1).timer.stage = 1) := by decide +kernel

theorem witness_TickDeadlinesAndSlips_2 :
    (soundB (run.setStage 2) = true ∧ (run.setStage 2).ticking = true ∧ (run.setStage 2).enginesRun = true ∧
    (run.setStage 2).timer.stage = 2) ∧
    ((armed []).armPresent 11 = true ∧ ((armed []).arm 11).slip = 0 ∧ (armed []).twinProfile = false ∧ (armed []).boot.plState ≠ 12 ∧
    (armed []).inTrial = false ∧ (armed []).rd (armIdx 0x4001 11) 3 < 2 ∧ 16 ≠ 11) ∧
    (soundB (armed [(0x4B01, 3, 2), (0x4B00, 1, 3)]) = true ∧ (armed [(0x4B01, 3, 2), (0x4B00, 1, 3)]).armPresent 11 = true ∧
    ((armed [(0x4B01, 3, 2), (0x4B00, 1, 3)]).arm 11).slip = 0 ∧ (armed [(0x4B01, 3, 2), (0x4B00, 1, 3)]).twinProfile = false ∧
    (armed [(0x4B01, 3, 2), (0x4B00, 1, 3)]).boot.plState ≠ 12 ∧ (armed [(0x4B01, 3, 2), (0x4B00, 1, 3)]).inTrial = false ∧
    2 ≤ (armed [(0x4B01, 3, 2), (0x4B00, 1, 3)]).rd (armIdx 0x4001 11) 3 ∧ (armed [(0x4B01, 3, 2), (0x4B00, 1, 3)]).armLive 11 = true) := by decide +kernel

theorem witness_ReferenceHold :
    (soundB (armed []) = true ∧ (armed []).timer.committed = false) ∧
    (soundB (put run [(0x2010, 0x0A, 2 ^ 32 - 1)]) = true ∧ (put run [(0x2010, 0x0A, 2 ^ 32 - 1)]).timer.committed = false ∧
    2 ^ 32 - 1 ≤ (put run [(0x2010, 0x0A, 2 ^ 32 - 1)]).rd 0x2010 0x0A + 1) := by decide +kernel

theorem witness_DeblockWhilePending :
    (soundB (put run [(0x2010, 4, 1024)]) = true ∧ (put run [(0x2010, 4, 1024)]).rd 0x2010 4 ≠ 0 ∧
    (put run [(0x2010, 4, 1024)]).mailbox = true ∧ (put run [(0x2010, 4, 1024)]).judgeAs true (poleIdx 0x3001 1) 1 1 2 = none) := by decide +kernel

theorem witness_SafeopRefusals :
    (soundB (armed []) = true ∧ (armed []).stationUp = true ∧ (armed []).station.al = 2 ∧ (53 = 0x001D ∧
    (armed []).pdoOk false = false ∨ 53 = 0x001E ∧ (armed []).pdoOk false = true ∧ (armed []).fsoeUnmapped false = false ∧
    (armed []).pdoOk true = false ∨ ((armed []).pdoOk false = true ∧ (armed []).pdoOk true = true ∧
    (armed []).fsoeUnmapped false = false ∧ (armed []).fsoeUnmapped true = false ∧ (armed []).dcMode = true ∧ (53 = 0x0030 ∧
    true = false ∨ 53 = 0x0035 ∧ true = true ∧ (0 % 50000 ≠ 0 ∨ 0 < 50000 ∨ 10000000 < 0))))) := by decide +kernel

end Sys2Proof.Tests
end

section

/-! R10, comparison of sequence numbers: `newer` asks where the forward distance from `a` to `b` lies, and the facts about `newer` follow
from what that distance is. -/
namespace Sys2Proof.Machine

/-- The forward distance from `a` to `b` among sequence numbers of `w` bits: R10's (b − a) mod 2ʷ. -/
def seqDist (w a b : Nat) : Nat := (b % 2 ^ w + 2 ^ w - a % 2 ^ w) % 2 ^ w

theorem newer_iff_seqDist (w a b : Nat) : newer w a b = true ↔ 1 ≤ seqDist w a b ∧ seqDist w a b ≤ 2 ^ (w - 1) - 1 := by
  simp only [newer, seqDist, decide_eq_true_eq]

theorem newer_eq_false_of_seqDist_eq_half {w a b : Nat} (h : seqDist w a b = 2 ^ (w - 1)) : newer w a b = false := by
  have hpos : 0 < 2 ^ (w - 1) := Nat.two_pow_pos _
  rw [Bool.eq_false_iff, Ne, newer_iff_seqDist]
  omega

theorem seqDist_lt (w a b : Nat) : seqDist w a b < 2 ^ w := Nat.mod_lt _ (Nat.two_pow_pos w)

@[simp] theorem seqDist_self (w a : Nat) : seqDist w a a = 0 := by
  rw [seqDist, Nat.add_sub_cancel_left, Nat.mod_self]

/-- Going the forward distance from `a` arrives at `b`. -/
theorem add_seqDist_mod {w a b : Nat} (ha : a < 2 ^ w) (hb : b < 2 ^ w) : (a + seqDist w a b) % 2 ^ w = b := by
  have hsum : a + (b + 2 ^ w - a) = b + 2 ^ w := by omega
  rw [seqDist, Nat.mod_eq_of_lt ha, Nat.mod_eq_of_lt hb, Nat.add_mod_mod, hsum, Nat.add_mod_right, Nat.mod_eq_of_lt hb]

/-- The forward distance is the only step below 2ʷ that leads from `a` to `b`. -/
theorem seqDist_eq_iff {w a b k : Nat} (ha : a < 2 ^ w) (hb : b < 2 ^ w) (hk : k < 2 ^ w) :
    seqDist w a b = k ↔ (a + k) % 2 ^ w = b := by
  constructor
  · rintro rfl
    exact add_seqDist_mod ha hb
  · rintro rfl
    rw [seqDist, Nat.mod_mod, Nat.mod_eq_of_lt ha]
    rcases Nat.lt_or_ge (a + k) (2 ^ w) with hlt | hge
    · have hback : a + k + 2 ^ w - a = k + 2 ^ w := by omega
      rw [Nat.mod_eq_of_lt hlt, hback, Nat.add_mod_right, Nat.mod_eq_of_lt hk]
    · have hwrap : a + k - 2 ^ w < 2 ^ w := by omega
      have hback : a + k - 2 ^ w + 2 ^ w - a = k := by omega
      rw [Nat.mod_eq_sub_mod hge, Nat.mod_eq_of_lt hwrap, hback, Nat.mod_eq_of_lt hk]

theorem newer_iff_exists_step {w a b : Nat} (ha : a < 2 ^ w) (hb : b < 2 ^ w) :
    newer w a b = true ↔ ∃ k, 1 ≤ k ∧ k ≤ 2 ^ (w - 1) - 1 ∧ (a + k) % 2 ^ w = b := by
  rw [newer_iff_seqDist]
  constructor
  · rintro ⟨hlo, hhi⟩
    exact ⟨seqDist w a b, hlo, hhi, add_seqDist_mod ha hb⟩
  · rintro ⟨k, hlo, hhi, hstep⟩
    have hhalf : 2 ^ (w - 1) ≤ 2 ^ w := Nat.pow_le_pow_right Nat.two_pos (Nat.sub_le w 1)
    have hdist : seqDist w a b = k := (seqDist_eq_iff ha hb (by omega)).2 hstep
    rw [hdist]
    exact ⟨hlo, hhi⟩

@[simp] theorem newer_self (w a : Nat) : newer w a a = false := by
  rw [Bool.eq_false_iff, Ne, newer_iff_seqDist, seqDist_self]
  omega

/-- Half a turn forward from `a` to `b` is half a turn forward from `b` to `a`. -/
theorem half_step_symm {w a b : Nat} (hw : 0 < w) (ha : a < 2 ^ w) (h : (a + 2 ^ (w - 1)) % 2 ^ w = b) :
    (b + 2 ^ (w - 1)) % 2 ^ w = a := by
  rw [← h, Nat.mod_add_mod, Nat.add_assoc, ← Nat.mul_two, Nat.two_pow_pred_mul_two hw, Nat.add_mod_right, Nat.mod_eq_of_lt ha]

theorem newer_eq_false_of_half_step {w a b : Nat} (hw : 0 < w) (ha : a < 2 ^ w) (hb : b < 2 ^ w)
    (h : (a + 2 ^ (w - 1)) % 2 ^ w = b) : newer w a b = false :=
  newer_eq_false_of_seqDist_eq_half ((seqDist_eq_iff ha hb (Nat.two_pow_pred_lt_two_pow hw)).2 h)

/-- Settles O57: `newer` is R10's comparison. The distance decides it (`newer_iff_exists_step`), a number is not newer than itself, and of
two numbers half a turn apart neither is newer, since half a turn one way is half a turn the other way. -/
theorem serialNumbers : Obligations.SerialNumbers := by
  intro n a b hn ha hb
  refine ⟨newer_iff_exists_step ha hb, newer_self n a, fun hhalf => ⟨?_, ?_⟩⟩
  · exact newer_eq_false_of_half_step hn ha hb hhalf
  · exact newer_eq_false_of_half_step hn hb ha (half_step_symm hn ha hhalf)

end Sys2Proof.Machine
end

section

/-! R7, the event counters: what a counter reads after a count, and that a count writes three entries at most, the counter, its sticky bit
and the sticky summary 0x9000.01. -/
namespace Sys2Proof.Machine

/-- Entries of two objects are two entries. -/
theorem odKey_ne_of_idx_ne {i s j t : Nat} (hs : s < 256) (ht : t < 256) (h : i ≠ j) : odKey i s ≠ odKey j t :=
  fun heq => h ((odKey_inj hs ht).1 heq).1

/-- Below its maximum a counter takes the sum. -/
theorem Device.bumpBy_of_lt {d : Device} {idx sub n : Nat} (sticky : Nat) (h : d.rd idx sub + n < 2 ^ odBits (odKey idx sub) - 1) :
    d.bumpBy idx sub sticky n = d.wr idx sub (d.rd idx sub + n) := if_neg (Nat.not_le.2 h)

/-- At its maximum a counter stays there and its sticky bit is set. -/
theorem Device.bumpBy_of_ge {d : Device} {idx sub n : Nat} (sticky : Nat) (h : 2 ^ odBits (odKey idx sub) - 1 ≤ d.rd idx sub + n) :
    d.bumpBy idx sub sticky n =
      ((d.wr idx sub (2 ^ odBits (odKey idx sub) - 1)).wr idx sticky 1).wrBit 0x9000 0x01 (stickyFamily idx) true := if_pos h

/-- A count writes dictionary entries only. -/
theorem Device.bumpBy_eq_od (d : Device) (idx sub sticky n : Nat) :
    d.bumpBy idx sub sticky n = { d with od := (d.bumpBy idx sub sticky n).od } := by
  rcases Nat.lt_or_ge (d.rd idx sub + n) (2 ^ odBits (odKey idx sub) - 1) with hlt | hge
  · rw [Device.bumpBy_of_lt sticky hlt, Device.wr]
  · rw [Device.bumpBy_of_ge sticky hge, Device.wrBit, Device.wr, Device.wr, Device.wr]

/-- A counter is not counted past its maximum. -/
theorem Device.rd_bumpBy_counter {d : Device} (h : odWf d.od = true) {idx sub sticky : Nat} (n : Nat)
    (hbits : odBits (odKey idx sub) ≠ 0) (hsticky : odKey idx sub ≠ odKey idx sticky) (hsum : odKey idx sub ≠ odKey 0x9000 1) :
    (d.bumpBy idx sub sticky n).rd idx sub = min (2 ^ odBits (odKey idx sub) - 1) (d.rd idx sub + n) := by
  have hpos := Nat.two_pow_pos (odBits (odKey idx sub))
  rcases Nat.lt_or_ge (d.rd idx sub + n) (2 ^ odBits (odKey idx sub) - 1) with hlt | hge
  · rw [Device.bumpBy_of_lt sticky hlt, Device.rd_wr_same h _ _ _ hbits, Nat.mod_eq_of_lt (by omega), Nat.min_eq_right (Nat.le_of_lt hlt)]
  · rw [Device.bumpBy_of_ge sticky hge, Device.wrBit, Device.rd_wr_other (Device.wr_wf (Device.wr_wf h _ _ _) _ _ _) _ _ _ _ _ hsum,
      Device.rd_wr_other (Device.wr_wf h _ _ _) _ _ _ _ _ hsticky, Device.rd_wr_same h _ _ _ hbits, Nat.mod_eq_of_lt (by omega),
      Nat.min_eq_left hge]

/-- A count that reaches the maximum sets the sticky bit. -/
theorem Device.rd_bumpBy_sticky {d : Device} (h : odWf d.od = true) {idx sub sticky n : Nat}
    (hbits : odBits (odKey idx sticky) ≠ 0) (hsum : odKey idx sticky ≠ odKey 0x9000 1)
    (hge : 2 ^ odBits (odKey idx sub) - 1 ≤ d.rd idx sub + n) : (d.bumpBy idx sub sticky n).rd idx sticky = 1 := by
  rw [Device.bumpBy_of_ge sticky hge, Device.wrBit, Device.rd_wr_other (Device.wr_wf (Device.wr_wf h _ _ _) _ _ _) _ _ _ _ _ hsum,
    Device.rd_wr_same (Device.wr_wf h _ _ _) _ _ _ hbits, Nat.mod_eq_of_lt (Nat.one_lt_two_pow hbits)]

/-- A count leaves every entry alone but the counter, its sticky bit and the summary. -/
theorem Device.rd_bumpBy_other {d : Device} (h : odWf d.od = true) {idx sub sticky i s : Nat} (n : Nat)
    (hcounter : odKey i s ≠ odKey idx sub) (hsticky : odKey i s ≠ odKey idx sticky) (hsum : odKey i s ≠ odKey 0x9000 1) :
    (d.bumpBy idx sub sticky n).rd i s = d.rd i s := by
  rcases Nat.lt_or_ge (d.rd idx sub + n) (2 ^ odBits (odKey idx sub) - 1) with hlt | hge
  · rw [Device.bumpBy_of_lt sticky hlt, Device.rd_wr_other h _ _ _ _ _ hcounter]
  · rw [Device.bumpBy_of_ge sticky hge, Device.wrBit, Device.rd_wr_other (Device.wr_wf (Device.wr_wf h _ _ _) _ _ _) _ _ _ _ _ hsum,
      Device.rd_wr_other (Device.wr_wf h _ _ _) _ _ _ _ _ hsticky, Device.rd_wr_other h _ _ _ _ _ hcounter]

end Sys2Proof.Machine
end

section

/-! R63, the reference hold: a T0 that swaps no block counts once in 0x2010.0A and writes no reference block, no arm and no other entry than
the sticky bit and the summary. -/
namespace Sys2Proof.Machine

/-- A trip cause stands with the control of its pole until the tick boundary: nothing else changes (R188). -/
theorem Device.tripAll_eq_poles (d : Device) (cause : Nat) : d.tripAll cause = { d with poles := (d.tripAll cause).poles } := by
  have htrip : ∀ (d : Device) (p : Nat), d.tripPole p cause = { d with poles := (d.tripPole p cause).poles } := by
    intro d p
    unfold Device.tripPole
    split <;> rfl
  rw [Device.tripAll, htrip (d.tripPole 0 cause) 1, htrip d 0]

/-- A unit in STANDBY-SYNC that loses it notes so for the tick boundary. -/
theorem Device.loseSync_of_standbySync {d : Device} (h : d.unit = 2) : d.loseSync = d.modTwin fun t => { t with leaveSync := true } :=
  if_pos h

/-- A reference hold counts in 0x2010.0A; beyond that it touches the pole control, the twin's notes and the tick timer at most. -/
theorem Device.swapRefs_of_hold {d : Device} (h : d.timer.committed = false) :
    ∃ poles twin timer, d.swapRefs = { d.bump 0x2010 0x0A 0x0B with poles := poles, twin := twin, timer := timer } := by
  unfold Device.swapRefs
  rw [if_neg (by simp [h])]
  extract_lets n d₁ d₂
  have htrip : ∃ poles, d₂ = { d₁ with poles := poles } := by
    rcases Nat.lt_or_ge (n * d₁.period) 200 with hlt | hge
    · exact ⟨d₁.poles, if_neg (Nat.not_le.2 hlt)⟩
    · exact ⟨(d₁.tripAll 2).poles, (if_pos hge).trans (Device.tripAll_eq_poles d₁ 2)⟩
  obtain ⟨poles, hd₂⟩ := htrip
  by_cases hsync : d₂.twinProfile = true ∧ d₂.unit = 2
  · refine ⟨poles, { d₂.twin with leaveSync := true }, d₁.timer, ?_⟩
    rw [if_pos (by simpa using hsync), Device.loseSync_of_standbySync hsync.2, hd₂]
    rfl
  · refine ⟨poles, d₂.twin, d₁.timer, ?_⟩
    rw [if_neg (by simpa using hsync), hd₂]
    rfl

/-- Settles O56: a reference hold is one count of 0x2010.0A (`Device.swapRefs_of_hold`), so the entries read as a count leaves them, and the
slip counters of the arms are none of the three entries a count writes. -/
theorem referenceHold : Obligations.ReferenceHold := by
  intro d hd hold
  obtain ⟨poles, twin, timer, hswap⟩ := Device.swapRefs_of_hold hold
  have hrd : ∀ i s, d.swapRefs.rd i s = (d.bumpBy 0x2010 0x0A 0x0B 1).rd i s := fun i s => by rw [hswap]; rfl
  refine ⟨?_, ?_, fun hfull => ?_, ?_, fun a sub ha hsub => ?_⟩
  · rw [hswap, Device.bump, Device.bumpBy_eq_od]
  · rw [Device.Counted, hrd]
    exact Device.rd_bumpBy_counter hd.wf 1 (by decide) (by decide) (by decide)
  · rw [hrd]
    exact Device.rd_bumpBy_sticky hd.wf (by decide) (by decide) hfull
  · rw [hswap, Device.bump, Device.bumpBy_eq_od]
  · have hcounter : armIdx 0x4001 a ≠ 0x2010 := by unfold armIdx; omega
    have hsum : armIdx 0x4001 a ≠ 0x9000 := by unfold armIdx; omega
    rw [hrd]
    exact Device.rd_bumpBy_other hd.wf 1 (odKey_ne_of_idx_ne hsub (by decide) hcounter) (odKey_ne_of_idx_ne hsub (by decide) hcounter)
      (odKey_ne_of_idx_ne hsub (by decide) hsum)

end Sys2Proof.Machine
end

section

/-! R44, DEBLOCK while a tick-period change is pending: the order always ends in `Device.poleRefuse`, behind one event, and a refusal
leaves the pole as it was. -/
namespace Sys2Proof.Machine

/-- A pending tick-period change fails the judgement of R189, by its own condition or an earlier one. -/
theorem Device.deblockFails_of_pending {d : Device} (p : Nat) (h : d.rd 0x2010 4 ≠ 0) : d.deblockFails p ≠ 0 := by
  unfold Device.deblockFails
  rw [if_pos h]
  split
  · decide
  · split
    · decide
    · split <;> decide

/-- DEBLOCK is not accepted while a condition of R189 fails. -/
theorem Device.poleJudge_deblock_of_fails {d : Device} {p : Nat} (h : d.deblockFails p ≠ 0) : (d.poleJudge p 2).1 ≠ 0 := by
  by_cases hready : d.poleState p = 3
  · simp [Device.poleJudge, hready, h]
  · simp [Device.poleJudge, hready]

/-- A DEBLOCK ordered while a tick-period change is pending ends in a refusal, behind its event. -/
theorem Device.poleOrder_deblock_of_pending {d : Device} (sdo : Bool) (p : Nat) (h : d.rd 0x2010 4 ≠ 0) :
    ∃ result reason code, code ≠ 0 ∧
      d.poleOrder sdo p 2 = (d.event (poleIdx 0x3001 p) 1 lvWarn [(8, p)]).poleRefuse p sdo result reason code := by
  unfold Device.poleOrder
  extract_lets i free e lease
  have he : e = d.event i 1 lvWarn [(8, p)] := if_pos (by simp [h])
  rw [← he]
  have hjudge : (e.poleJudge p 2).1 ≠ 0 := Device.poleJudge_deblock_of_fails (Device.deblockFails_of_pending p (by simpa [he] using h))
  by_cases hlease : (!free && !e.holds) = true
  · exact ⟨2, 2, 0x08000020, by decide, if_pos hlease⟩
  rw [if_neg hlease]
  by_cases hstandby : (e.twinProfile && e.unit = 2) = true
  · exact ⟨2, 2, 0x08000020, by decide, if_pos hstandby⟩
  rw [if_neg hstandby]
  by_cases hactive : (e.twinProfile && e.unit ≠ 3) = true
  · exact ⟨3, 0, 0x08000022, by decide, if_pos hactive⟩
  rw [if_neg hactive]
  exact ⟨(e.poleJudge p 2).1, (e.poleJudge p 2).2, 0x08000022, by decide, if_pos hjudge⟩

/-- An abort shows its code and the entry in 0x2002, and is the result of the request. -/
theorem Device.abort_eq_modStation (d : Device) (idx sub code : Nat) :
    d.abort idx sub code = ((d.wr 0x2002 0x08 code).wr 0x2002 0x09 (idx * 2 ^ 16 + sub * 2 ^ 8)).modStation
      fun x => { x with sdoResult := code } := rfl

@[simp] theorem Device.abort_poles (d : Device) (idx sub code : Nat) : (d.abort idx sub code).poles = d.poles := by
  rw [Device.abort_eq_modStation, Device.modStation_poles, Device.wr_poles, Device.wr_poles]

@[simp] theorem Device.abort_ring (d : Device) (idx sub code : Nat) : (d.abort idx sub code).ring = d.ring := by
  rw [Device.abort_eq_modStation, Device.modStation_ring, Device.wr_ring, Device.wr_ring]

@[simp] theorem Device.abort_sdoResult (d : Device) (idx sub code : Nat) : (d.abort idx sub code).station.sdoResult = code := by
  rw [Device.abort_eq_modStation, Device.modStation_station]

@[simp] theorem Device.poleRefuse_poles (d : Device) (p : Nat) (sdo : Bool) (result reason code : Nat) :
    (d.poleRefuse p sdo result reason code).poles = d.poles := by
  cases sdo <;> simp [Device.poleRefuse]

@[simp] theorem Device.poleRefuse_ring (d : Device) (p : Nat) (sdo : Bool) (result reason code : Nat) :
    (d.poleRefuse p sdo result reason code).ring = d.ring := by
  cases sdo <;> simp [Device.poleRefuse]

/-- A refused SDO write shows its abort code. -/
@[simp] theorem Device.poleRefuse_sdoResult (d : Device) (p result reason code : Nat) :
    (d.poleRefuse p true result reason code).station.sdoResult = code := by
  rw [Device.poleRefuse, if_pos rfl, Device.abort_sdoResult]

/-- An abort writes to 0x2002 only. -/
theorem Device.abort_poleState {d : Device} (h : odWf d.od = true) (idx sub code p : Nat) :
    (d.abort idx sub code).poleState p = d.poleState p := by
  have hkey : ∀ t, t < 256 → odKey (poleIdx 0x3000 p) 1 ≠ odKey 0x2002 t :=
    fun t ht => odKey_ne_of_idx_ne (by decide) ht (by unfold poleIdx; omega)
  rw [Device.poleState, Device.abort_eq_modStation, Device.modStation_rd,
    Device.rd_wr_other (Device.wr_wf h _ _ _) _ _ _ _ _ (hkey 9 (by decide)), Device.rd_wr_other h _ _ _ _ _ (hkey 8 (by decide)),
    Device.poleState]

/-- A refusal writes to 0x3001 of the pole, an abort besides to 0x2002. -/
theorem Device.poleRefuse_poleState {d : Device} (h : odWf d.od = true) (p : Nat) (sdo : Bool) (result reason code : Nat) :
    (d.poleRefuse p sdo result reason code).poleState p = d.poleState p := by
  have hkey : ∀ t, t < 256 → odKey (poleIdx 0x3000 p) 1 ≠ odKey (poleIdx 0x3001 p) t :=
    fun t ht => odKey_ne_of_idx_ne (by decide) ht (by unfold poleIdx; omega)
  have hshown : ((d.wr (poleIdx 0x3001 p) 3 result).wr (poleIdx 0x3001 p) 5 reason).poleState p = d.poleState p := by
    rw [Device.poleState, Device.rd_wr_other (Device.wr_wf h _ _ _) _ _ _ _ _ (hkey 5 (by decide)),
      Device.rd_wr_other h _ _ _ _ _ (hkey 3 (by decide)), Device.poleState]
  cases sdo with
  | false => exact hshown
  | true => exact (Device.abort_poleState (Device.wr_wf (Device.wr_wf h _ _ _) _ _ _) _ _ _ _).trans hshown

/-- What a refused DEBLOCK leaves: the pole as it was, and one event more. -/
theorem Device.poleOrder_deblock_refused {d : Device} (h : odWf d.od = true) (sdo : Bool) (p : Nat) (hpend : d.rd 0x2010 4 ≠ 0) :
    (d.poleOrder sdo p 2).poles = d.poles ∧ (d.poleOrder sdo p 2).poleState p = d.poleState p ∧
      (sdo = true → (d.poleOrder sdo p 2).station.sdoResult ≠ 0) ∧
      ∃ n, (d.poleOrder sdo p 2).ring.fresh = d.ring.fresh ++ [n] := by
  obtain ⟨result, reason, code, hcode, horder⟩ := Device.poleOrder_deblock_of_pending sdo p hpend
  rw [horder]
  refine ⟨Device.poleRefuse_poles .., Device.poleRefuse_poleState (d := d.event _ _ _ _) h .., ?_, ?_⟩
  · rintro rfl
    rwa [Device.poleRefuse_sdoResult]
  · rw [Device.poleRefuse_ring]
    exact ⟨_, rfl⟩

/-- A pole command that the mailbox serves and the judgement lets through reaches the pole control. -/
theorem Device.poleCommand_of_judged {d : Device} {p code : Nat} (hp : p < 2) (hmail : d.mailbox = true)
    (hjudge : d.judgeAs true (poleIdx 0x3001 p) 1 1 code = none) : d.poleCommand p code = d.done.poleOrder true p code := by
  have hserved : ¬ (decide (p ≥ 2) || !d.mailbox) = true := by
    rw [hmail, decide_eq_false (Nat.not_le.2 hp)]
    decide
  rw [Device.poleCommand, if_neg hserved, hjudge]

/-- Settles O58: by either way the order reaches `Device.poleOrder`, by SDO through the mailbox and its judgement, and there it is refused
(`Device.poleOrder_deblock_refused`). -/
theorem deblockWhilePending : Obligations.DeblockWhilePending := by
  intro p s hs hp hpend
  refine ⟨fun hmail hjudge => ⟨s.dev.poleCommand p 2, rfl, ?_⟩, ?_⟩
  · obtain ⟨hpoles, hstate, hresult, hevent⟩ := Device.poleOrder_deblock_refused (d := s.dev.done) hs.wf true p hpend
    rw [Device.poleCommand_of_judged hp hmail hjudge]
    exact ⟨hpoles, hstate, hresult rfl, hevent⟩
  · obtain ⟨hpoles, hstate, -, hevent⟩ := Device.poleOrder_deblock_refused hs.wf false p hpend
    exact ⟨hpoles, hstate, hevent⟩

end Sys2Proof.Machine
end

section

/-! R529, the refusals of PREOP to SAFEOP: which AL status code the first check that fails gives, and that a refusal changes nothing but the
AL status code. -/
namespace Sys2Proof.Machine

/-- A bad RxPDO assignment is the first reason. -/
theorem Device.safeopCode_of_rxPdo_bad {d : Device} (dc : Bool) (ns : Nat) (hrx : d.pdoOk false = false) :
    d.safeopCode dc ns = 0x001D := by
  rw [Device.safeopCode, if_pos (by rw [hrx]; rfl)]

/-- The checks of the TxPDO assignment and of SYNC0 come after that of the RxPDO assignment. -/
theorem Device.safeopCode_of_rxPdo_ok {d : Device} (dc : Bool) (ns : Nat) (hrx : d.pdoOk false = true) (hrxFsoe : d.fsoeUnmapped false = false) :
    d.safeopCode dc ns =
      if !d.pdoOk true || d.fsoeUnmapped true then 0x001E
      else if d.dcMode && !dc then 0x0030
      else if d.dcMode && !(ns % 50000 = 0 && 50000 ≤ ns && ns ≤ 10000000) then 0x0035
      else 0 := by
  rw [Device.safeopCode, if_neg (by rw [hrx, hrxFsoe]; decide)]

/-- A bad TxPDO assignment is the reason once the RxPDO assignment is in order. -/
theorem Device.safeopCode_of_txPdo_bad {d : Device} (dc : Bool) (ns : Nat) (hrx : d.pdoOk false = true) (hrxFsoe : d.fsoeUnmapped false = false)
    (htx : d.pdoOk true = false) : d.safeopCode dc ns = 0x001E := by
  rw [Device.safeopCode_of_rxPdo_ok dc ns hrx hrxFsoe, if_pos (by rw [htx]; rfl)]

/-- With both assignments in order only SYNC0 is left to check, and it is checked in DC mode only. -/
theorem Device.safeopCode_of_pdos_ok {d : Device} (dc : Bool) (ns : Nat) (hrx : d.pdoOk false = true) (htx : d.pdoOk true = true)
    (hrxFsoe : d.fsoeUnmapped false = false) (htxFsoe : d.fsoeUnmapped true = false) :
    d.safeopCode dc ns =
      if d.dcMode && !dc then 0x0030
      else if d.dcMode && !(ns % 50000 = 0 && 50000 ≤ ns && ns ≤ 10000000) then 0x0035
      else 0 := by
  rw [Device.safeopCode_of_rxPdo_ok dc ns hrx hrxFsoe, if_neg (by rw [htx, htxFsoe]; decide)]

/-- In PREOP a request for SAFEOP that fails a check is answered with the AL status code and nothing else. -/
theorem exec_alStateRequest_safeop_refused {s : State} {dc : Bool} {ns : Nat} (hup : s.dev.stationUp = true) (hal : s.dev.station.al = 2)
    (hcode : s.dev.safeopCode dc ns ≠ 0) :
    exec (.alStateRequest 4 dc ns) s = .next ⟨s.dev.refuseAl (s.dev.safeopCode dc ns), s.pending⟩ := by
  have hexec : exec (.alStateRequest 4 dc ns) s = execAlStateRequest 4 dc ns s := rfl
  rw [hexec]
  simp [execAlStateRequest, State.run, hup, hal, hcode]

/-- The answer to a refused request for SAFEOP, in the words of R529: the state stays PREOP, and the AL status code is the reason. -/
theorem answers_safeop_refused {s : State} {dc : Bool} {ns code : Nat} (hup : s.dev.stationUp = true) (hal : s.dev.station.al = 2)
    (hreason : s.dev.safeopCode dc ns = code) (hcode : code ≠ 0) :
    Answers (.alStateRequest 4 dc ns) s fun e =>
      e = { s.dev with station := { s.dev.station with alStatus := code } } ∧ e.station.al = 2 := by
  subst hreason
  exact ⟨_, exec_alStateRequest_safeop_refused hup hal hcode, rfl, hal⟩

/-- Settles O59: under each of the premises `Device.safeopCode` is the code named, and a code that is not 0 refuses the request
(`answers_safeop_refused`). -/
theorem safeopRefusals : Obligations.SafeopRefusals := by
  intro dc ns code s _ hup hal hreason
  rcases hreason with ⟨rfl, hrx⟩ | ⟨rfl, hrx, hrxFsoe, htx⟩ | ⟨hrx, htx, hrxFsoe, htxFsoe, hdc, hsync⟩
  · exact answers_safeop_refused hup hal (Device.safeopCode_of_rxPdo_bad dc ns hrx) (by decide)
  · exact answers_safeop_refused hup hal (Device.safeopCode_of_txPdo_bad dc ns hrx hrxFsoe htx) (by decide)
  · have hcode := Device.safeopCode_of_pdos_ok dc ns hrx htx hrxFsoe htxFsoe
    rw [hdc] at hcode
    rcases hsync with ⟨rfl, rfl⟩ | ⟨rfl, rfl, hcycle⟩
    · exact answers_safeop_refused hup hal hcode (by decide)
    · have hbad : (ns % 50000 = 0 && 50000 ≤ ns && ns ≤ 10000000) = false := by
        simp only [Bool.and_eq_false_iff, decide_eq_false_iff_not]
        omega
      rw [hbad] at hcode
      exact answers_safeop_refused hup hal hcode (by decide)

end Sys2Proof.Machine
end

section

/-! R671, the full ring: a write drops the oldest entry and appends its own, and an undelivered entry so lost is a count with its event,
which adds to the ring's fresh events and leaves its entries as they are. -/
namespace Sys2Proof.Machine

@[simp] theorem Device.bump_ring (d : Device) (idx sub sticky : Nat) : (d.bump idx sub sticky).ring = d.ring := by
  rw [Device.bump, Device.bumpBy_eq_od]

/-- The event of a count joins the events of the tick; the ring's entries wait for the next T0. -/
theorem Device.bumpEvent_ring (d : Device) (idx sub sticky level : Nat) (data : List (Nat × Nat)) :
    (d.bumpEvent idx sub sticky level data).ring =
      { d.ring with fresh := d.ring.fresh ++ [⟨eventCode idx sub level, packData data⟩] } := by
  rw [Device.bumpEvent, Device.event, Device.bump_ring]

/-- A count with its event counts an event counter of 32 bits. -/
theorem Device.counted_bumpEvent {d : Device} (h : odWf d.od = true) {idx sub sticky : Nat} (level : Nat) (data : List (Nat × Nat))
    (hbits : odBits (odKey idx sub) = 32) (hsticky : odKey idx sub ≠ odKey idx sticky) (hsum : odKey idx sub ≠ odKey 0x9000 1) :
    d.Counted (d.bumpEvent idx sub sticky level data) idx sub := by
  have hcount := Device.rd_bumpBy_counter h 1 (by rw [hbits]; decide) hsticky hsum
  rwa [hbits] at hcount

/-- The entry that `Device.ringWrite` makes of an event: the ring's next number, the tick and its UTC, not yet sent (Table 20.2). -/
def Device.ringEntry (d : Device) (e : NewEvent) : RingEntry :=
  ⟨d.ring.nextSeq, d.tick, d.utcMicros / 1000000 % 2 ^ 32, d.utcMicros % 1000000, d.rd 0x9000 0x04, 0, e.event, e.data, false, false⟩

/-- The ring with the new entry behind `rest`, what is left of it without its oldest. -/
def Device.overwriteOldest (d : Device) (rest : List RingEntry) (e : NewEvent) : Device :=
  { d with ring := ⟨rest ++ [d.ringEntry e], d.ring.fresh, (d.ring.nextSeq + 1) % 2 ^ 32⟩ }

/-- A write to a full ring overwrites its oldest entry, and counts it in 0xB000.15 unless it had been delivered. -/
theorem Device.ringWrite_of_full {d : Device} {old : RingEntry} {rest : List RingEntry} (e : NewEvent)
    (hentries : d.ring.entries = old :: rest) (hfull : 65536 ≤ d.ring.entries.length) :
    d.ringWrite e =
      if old.delivered then d.overwriteOldest rest e
      else (d.overwriteOldest rest e).bumpEvent 0xB000 0x15 0x16 lvWarn [] := by
  rw [hentries] at hfull
  simp only [Device.ringWrite, hentries]
  rw [if_pos hfull]
  rfl

/-- A delivered entry is overwritten without a trace. -/
theorem Device.ringWrite_of_full_delivered {d : Device} {old : RingEntry} {rest : List RingEntry} (e : NewEvent)
    (hentries : d.ring.entries = old :: rest) (hfull : 65536 ≤ d.ring.entries.length) (hold : old.delivered = true) :
    d.ringWrite e = d.overwriteOldest rest e := by
  rw [Device.ringWrite_of_full e hentries hfull, if_pos hold]

/-- An undelivered entry is overwritten and counted as lost. -/
theorem Device.ringWrite_of_full_undelivered {d : Device} {old : RingEntry} {rest : List RingEntry} (e : NewEvent)
    (hentries : d.ring.entries = old :: rest) (hfull : 65536 ≤ d.ring.entries.length) (hold : old.delivered = false) :
    d.ringWrite e = (d.overwriteOldest rest e).bumpEvent 0xB000 0x15 0x16 lvWarn [] := by
  rw [Device.ringWrite_of_full e hentries hfull, if_neg (by simp [hold])]

/-- Delivered or not, the oldest entry gives way to the new one. -/
theorem Device.ringWrite_entries_of_full {d : Device} {old : RingEntry} {rest : List RingEntry} (e : NewEvent)
    (hentries : d.ring.entries = old :: rest) (hfull : 65536 ≤ d.ring.entries.length) :
    (d.ringWrite e).ring.entries = rest ++ [d.ringEntry e] := by
  cases hold : old.delivered with
  | true => rw [Device.ringWrite_of_full_delivered e hentries hfull hold, Device.overwriteOldest]
  | false => rw [Device.ringWrite_of_full_undelivered e hentries hfull hold, Device.bumpEvent_ring, Device.overwriteOldest]

/-- Settles O55: the entry overwritten had been delivered, and then the ring alone changed, or it had not, and then the write ends in the
count of 0xB000.15 with its event (`Device.ringWrite_of_full`). -/
theorem fullRing : Obligations.FullRing := by
  intro d n old rest hd hentries hlength
  have hfull : 65536 ≤ d.ring.entries.length := Nat.le_of_eq hlength.symm
  refine ⟨⟨d.ringEntry n, Device.ringWrite_entries_of_full n hentries hfull, rfl, rfl, rfl, rfl⟩, fun hold => ?_, fun hold => ?_⟩
  · rw [Device.ringWrite_of_full_undelivered n hentries hfull hold]
    refine ⟨?_, lvWarn, packData [], by decide, ?_⟩
    · exact Device.counted_bumpEvent (d := d.overwriteOldest rest n) hd.wf lvWarn [] (by decide) (by decide) (by decide)
    · rw [Device.bumpEvent_ring, Device.overwriteOldest]
  · rw [Device.ringWrite_of_full_delivered n hentries hfull hold]
    exact ⟨rfl, rfl⟩

end Sys2Proof.Machine
end
